-- ==== Sys2Proof/Word.lean ====
section
/-! DEFINITION. The words, identifiers and small integer helpers of the Sethlan LA-96 model. -/
namespace Sys2Proof

/-- One 8-bit character, frame byte or store byte (00_scope.md, Conventions). -/
abbrev Byte := BitVec 8

/-- A line number 0 to 95. -/
abbrev LineNo := Fin 96

/-- A host port number 0 to 63. -/
abbrev PortNo := Fin 64

/-- An open-account entry number 0 to 111. -/
abbrev EntryNo := Fin 112

/-- A group: index g stands for group g + 1, shown to callers as the letters A to F. -/
abbrev GroupNo := Fin 6

/-- A class number 0 to 3. -/
abbrev ClassNo := Fin 4

/-- A tariff band 0 to 3. -/
abbrev Band := Fin 4

/-- A watch number 0 to 3. -/
abbrev WatchNo := Fin 4

/-- A message number 0 to 15. -/
abbrev MsgNo := Fin 16

/-- An account-store slot number; the largest capacity is 8,192 slots. -/
abbrev SlotNo := Fin 8192

/-- The largest value of a 24-bit count: 16,777,215. -/
abbrev max24 : Nat := 16777215

/-- The largest account number (R3). -/
abbrev maxAccount : Nat := 9999999

end Sys2Proof
end

