-- ==== Sys2Proof/Syntax.lean ====
section
/-! DEFINITION. The commands of the controller: one constructor of Instr per row of spec/opcode_table.json, with the
types of their operands. A command is an event of one of the buses, an event of the controller's own clock, timers and
store, a strobe of the supervisor port, or a whole request frame completing at that port. -/
namespace Sys2Proof

/-- What became of one whole-slot write when it was read back (R4). The store is external memory, so this is an input. -/
inductive WriteOutcome where
  /-- The slot holds what was written and the read-back matches. -/
  | good
  /-- The read-back does not match; the slot now holds these bytes. -/
  | left (bytes : List Byte)
  /-- The read-back does not match; the slot now holds a mixture, the new byte where the mark is set and the old one elsewhere. -/
  | mixed (new : List Bool)
  deriving DecidableEq, Repr

/-- One timer of one line or port, as an expiry names it (R51, R144). -/
inductive Expiry where
  | answerLimit (line : LineNo)
  | signonLimit (line : LineNo)
  | holdTimer (line : LineNo)
  | selectionLimit (line : LineNo)
  | waitLimit (line : LineNo)
  | escapeLimit (line : LineNo)
  | closingLimit (line : LineNo)
  | guardTime (line : LineNo)
  | carrierHold (line : LineNo)
  | idleWarning (line : LineNo)
  | exhaustion (line : LineNo)
  | hours (line : LineNo)
  | callTimer (port : PortNo)
  deriving DecidableEq, Repr

/-- One moment between the latching and the band edge of a second event (R122, R123, R131, R138): the Meter's step of a line, an
expiry, or what the Account Store Controller does between two steps. -/
inductive SecondMoment where
  | step (line : LineNo)
  | expiry (x : Expiry)
  | rotationChoice
  | storeOperationComplete (writes : List WriteOutcome)
  deriving DecidableEq, Repr

/-- The order the book leaves open inside one second event: the expiries taken ahead of the latching and of the Meter's
steps (R123, R191), the order of the steps and what falls between them (R131, R138; lines not named are stepped after them in
ascending order), and the expiries taken between the last step and the band edge (R141). Every other expiry is a command of
its own. -/
structure SecondOrder where
  early : List Expiry := []
  moments : List SecondMoment := []
  beforeEdge : List Expiry := []
  deriving DecidableEq, Repr

/-- The parameters of ADD_ACCOUNT (R16); default group 0 stands for absent. -/
structure NewAccount where
  account : Nat
  cls : Nat
  sessionLimit : Nat
  permitted : Nat
  defaultGroup : Nat
  allotment : Nat
  lowThreshold : Nat
  deriving DecidableEq, Repr

/-- The fields of CHANGE_ACCOUNT, each present with a value or absent (R18); default group 0 stands for absent. -/
structure AccountChange where
  cls : Option Nat := none
  sessionLimit : Option Nat := none
  permitted : Option Nat := none
  defaultGroup : Option Nat := none
  lowThreshold : Option Nat := none
  status : Option Nat := none
  deriving DecidableEq, Repr

/-- The policy fields of WRITE_CLASS, each present with a value or absent (R114); bands as a set byte. -/
structure PolicyChange where
  allowedBands : Option Nat := none
  queuePriority : Option Nat := none
  grace : Option Nat := none
  idleLimit : Option Nat := none
  idleWarning : Option Nat := none
  exhaustionGrace : Option Nat := none
  hoursGrace : Option Nat := none
  deriving DecidableEq, Repr

/-- The settings of SET_GROUP, each present with a value or absent (R165). -/
structure GroupChange where
  queueLimit : Option Nat := none
  waitLimit : Option Nat := none
  failoverAllowance : Option Nat := none
  congestionMode : Option Nat := none
  congestionThreshold : Option Nat := none
  deriving DecidableEq, Repr

/-- The parameters of SET_LINE_PARAMETERS, each present with a value or absent, in the order of the table of R72. -/
structure LineParamChange where
  acceptingCalls : Option Nat := none
  busyOut : Option Nat := none
  answerLimit : Option Nat := none
  carrierHold : Option Nat := none
  signonLimit : Option Nat := none
  attemptsPerCall : Option Nat := none
  lockoutThreshold : Option Nat := none
  holdLimit : Option Nat := none
  selectionLimit : Option Nat := none
  callLimit : Option Nat := none
  escapeKey : Option Nat := none
  escapeMask : Option Nat := none
  deriving DecidableEq, Repr

/-- The supervisor requests that are store operations of the rotation (R9). -/
inductive StoreReq where
  | attach (sizeCode clear : Nat)
  | add (p : NewAccount)
  | setPassword (account : Nat) (chars : List Byte)
  | change (account : Nat) (f : AccountChange)
  | grant (account amount : Nat)
  | revoke (account amount : Nat)
  | forgive (account : Nat)
  | readAccount (account : Nat)
  | readSlots (first count : Nat)
  | readAndClear (account : Nat)
  | replace (slot : Nat) (image : List Byte)
  | retire (account : Nat)
  | flush
  | discard (account : Nat)
  | restart
  deriving DecidableEq, Repr

/-- The supervisor requests that complete at once (R200). -/
inductive QuickReq where
  | writeSchedule (first : Nat) (bands : List Nat)
  | writeRates (cls : Nat) (rates : List Nat) (waitRate : Nat)
  | writeClass (cls : Nat) (f : PolicyChange)
  | armTariff (action : Nat)
  | readSchedule (copy first count : Nat)
  | readRates (copy cls : Nat)
  | readClass (copy cls : Nat)
  | setClock (minute second : Nat)
  | readClock
  | setLineParams (f : LineParamChange)
  | lineService (line direction : Nat)
  | forceEnd (line : Nat)
  | readLine (line : Nat)
  | clearSummary (line : Nat)
  | writeMessage (message : Nat) (text : List Byte)
  | configurePort (port group role : Nat)
  | portService (port direction : Nat)
  | returnPort (port : Nat)
  | setGroup (group : Nat) (f : GroupChange)
  | readPort (port : Nat)
  | readGroup (group : Nat)
  | clearCounters (group : Nat)
  | setWatch (watch low high kinds action : Nat)
  | clearWatch (watch : Nat)
  | readWatch (watch : Nat)
  | verdict (line verdict : Nat)
  | takeAttention
  | describe
  deriving DecidableEq, Repr

/-- A request of the summary of requests (chapter 10), its parameters read from the frame. -/
inductive Request where
  | store (r : StoreReq)
  | quick (r : QuickReq)
  deriving DecidableEq, Repr

/-- The commands: one constructor per row of spec/opcode_table.json. -/
inductive Instr where
  -- the RESET pin and the clock
  | powerOnReset (done : Nat) (torn : List Bool)
  | secondEvent (order : SecondOrder)
  -- the timers
  | answerLimitExpiry (line : LineNo)
  | signonLimitExpiry (line : LineNo)
  | holdTimerExpiry (line : LineNo)
  | selectionLimitExpiry (line : LineNo)
  | waitLimitExpiry (line : LineNo)
  | escapeLimitExpiry (line : LineNo)
  | closingLimitExpiry (line : LineNo)
  | guardTimeExpiry (line : LineNo)
  | carrierHoldExpiry (line : LineNo)
  | idleWarningExpiry (line : LineNo)
  | exhaustionCountdownExpiry (line : LineNo)
  | hoursCountdownExpiry (line : LineNo)
  | callTimerExpiry (port : PortNo)
  | lineCommandTimeout
  | portCommandTimeout
  -- the line scanner bus; a line number of 7 bits
  | ring (line : Nat)
  | carrierOn (line : Nat)
  | carrierOff (line : Nat)
  | lineRxChar (line : Nat) (char : Byte)
  | rxBreak (line : Nat)
  | txDone (line : Nat)
  | lineCommandAccepted
  -- the host port bus
  | hostReadyOn (port : PortNo)
  | hostReadyOff (port : PortNo)
  | accept (port : PortNo)
  | portRxChar (port : PortNo) (char : Byte)
  | hostDisconnect (port : PortNo)
  | portCommandAccepted
  -- the Account Store Controller
  | rotationChoice
  | storeOperationComplete (writes : List WriteOutcome)
  -- the supervisor port
  | frameRejected (code : Byte) (params : List Byte)
  | unknownRequest (code : Byte) (params : List Byte)
  | responseRead
  -- requests that are store operations
  | attachStore (sizeCode clear : Nat)
  | addAccount (p : NewAccount)
  | setPassword (account : Nat) (chars : List Byte)
  | changeAccount (account : Nat) (f : AccountChange)
  | grant (account amount : Nat)
  | revoke (account amount : Nat)
  | forgive (account : Nat)
  | readAccount (account : Nat)
  | readSlots (first count : Nat)
  | readAndClearTotals (account : Nat)
  | replaceSlot (slot : Nat) (image : List Byte)
  | retire (account : Nat)
  | flush
  | discardOpen (account : Nat)
  -- requests that complete at once
  | writeSchedule (first : Nat) (bands : List Nat)
  | writeRates (cls : Nat) (rates : List Nat) (waitRate : Nat)
  | writeClass (cls : Nat) (f : PolicyChange)
  | arm
  | cancel
  | revert
  | readTariffSchedule (copy first count : Nat)
  | readTariffRates (copy cls : Nat)
  | readTariffClass (copy cls : Nat)
  | setClock (minute second : Nat)
  | readClock
  | setLineParameters (f : LineParamChange)
  | lineServiceOut (line : Nat)
  | lineServiceIn (line : Nat)
  | forceEnd (line : Nat)
  | readLine (line : Nat)
  | clearSummary (line : Nat)
  | writeMessage (message : Nat) (text : List Byte)
  | configurePort (port group role : Nat)
  | portServiceOut (port : Nat)
  | portServiceIn (port : Nat)
  | returnPort (port : Nat)
  | setGroup (group : Nat) (f : GroupChange)
  | readPort (port : Nat)
  | readGroup (group : Nat)
  | clearCounters (group : Nat)
  | setWatch (watch low high kinds action : Nat)
  | clearWatch (watch : Nat)
  | readWatch (watch : Nat)
  | verdictAdmit (line : Nat)
  | verdictRefuse (line : Nat)
  | takeAttention
  | describe
  | restart
  | supervisorWriteStrobe (byte : Byte)
  deriving DecidableEq, Repr

end Sys2Proof
end

