-- ==== Sys2Proof/Decode.lean ====
section
/-! DEFINITION. Reading a command from a word of the table's bits. The table of this block gives no row any bits, so no word
spells a command (log entry 2). -/
namespace Sys2Proof

/-- The command a word spells by the bits of the table: none, because no row of the table has bits. -/
def decodeTableWord (_nbits _w : Nat) : Option Instr := none

end Sys2Proof
end

