-- ==== Sys2Proof/Config.lean ====
section
/-! DEFINITION. What the part fixes (times and limits the book gives) and the one open value of the book. -/
namespace Sys2Proof.Config

/-- The guard time in seconds (R72, fixed). -/
def guardTime : Nat := 5

/-- The escape limit in seconds (R72, fixed). -/
def escapeLimit : Nat := 60

/-- The closing limit in seconds (R72, fixed). -/
def closingLimit : Nat := 10

/-- Sixtieths of a millicredit in one credit (R128). -/
def creditUnit : Nat := 60000

/-- The residue at or above which the closing of a meter posts one credit (R132). -/
def roundUp : Nat := 30000

/-- The most ACCOUNT items the attention set holds (R203). -/
def maxAccountItems : Nat := 16

/-- The most bytes of a frame the request buffer stores (R198). -/
def requestBufferBytes : Nat := 82

/-- The greatest parameter length a request may carry (R207). -/
def maxParameterLength : Nat := 80

/-- The most characters a message text holds (R66). -/
def maxMessageLength : Nat := 48

/-- The number of tariff slots of a week (R109). -/
def tariffSlots : Nat := 336

/-- The most bands one schedule request carries (R112, R116). -/
def maxScheduleRun : Nat := 78

/-- The number of minutes of a week (R105). -/
def weekMinutes : Nat := 10080

/-- FREE VALUE (log entry 12, DESIGN CHOICE). The book gives the in-use and the vacated count the range 0 to
capacity (chapter 1) and says they may differ from the store's contents (R4), but does not say what a count becomes
when a rule lowers it from 0 or raises it from the capacity. The value is this unknown function of the capacity and
the count, brought into the stated range where it is used. -/
opaque countOutside : Nat → Nat → Nat

end Sys2Proof.Config
end

