-- ==== Sys2Proof/Machine/Records.lean ====
section
/-! DEFINITION. The records the controller keeps, block by block (00_scope.md, Block overview), as plain data. -/
namespace Sys2Proof.Machine

/-! ## The account record (chapter 1) -/

/-- The status of an account (R6). -/
inductive Status where
  | live | locked | barred
  deriving DecidableEq, Repr

/-- What a charged credit is counted under: a band, or WAIT (R124). -/
inductive Category where
  | band (b : Band)
  | wait
  deriving DecidableEq, Repr

/-- The fields of an account record other than slot state, account number and check byte (R3, R27). -/
structure Account where
  status : Status
  cls : ClassNo
  sessionLimit : Nat
  permitted : BitVec 6
  defaultGroup : Option GroupNo
  password : Nat
  failedCount : Nat
  allotment : Nat
  overdraft : Nat
  lowThreshold : Nat
  bandTotals : Vector Nat 4
  waitTotal : Nat
  connectSeconds : Nat
  lastSignOn : Option (Nat × LineNo)
  deriving DecidableEq, Repr

/-- The three slot states (R5). -/
inductive SlotState where
  | empty | inUse | vacated
  deriving DecidableEq, Repr

/-- What reading a slot finds (R3): a sound slot of one of the three states, or a damaged one. -/
inductive SlotView where
  | empty
  | inUse (number : Nat) (acct : Account)
  | vacated (number : Nat) (acct : Account)
  | damaged
  deriving DecidableEq, Repr

/-! ## The Account Store Controller (chapter 1) -/

/-- The attachment state (R1). -/
inductive Attachment where
  | noStore | attaching | attached
  deriving DecidableEq, Repr

/-- The requester classes of the rotation (R9, R11). -/
inductive RotationClass where
  | signOn | writeBack | supervisor
  deriving DecidableEq, Repr

/-- What a sign-on operation is to do (R10). -/
inductive SignOnKind where
  | verify (password : Nat) (holdMarker : Bool)
  | admitOp
  deriving DecidableEq, Repr

/-- A sign-on operation (R10). -/
structure SignOnOp where
  line : LineNo
  attempt : BitVec 8
  kind : SignOnKind
  account : Nat
  deriving DecidableEq, Repr

/-- The store operation in progress (R12): a sign-on operation; a write-back with the account number, slot and copies
it captured (R37); a supervisor request; or RESTART with the number of calls it ended (R206). -/
inductive Operation where
  | signOn (op : SignOnOp)
  | writeBack (entry : EntryNo) (number : Nat) (slot : SlotNo) (acct : Account)
  | supervisor (r : StoreReq)
  | restart (callsEnded : Nat)
  deriving DecidableEq, Repr

/-- The state of the Account Store Controller (chapter 1, Attachment and capacity; R10, R11, R12). -/
structure StoreCtl where
  attachment : Attachment
  capacity : Nat
  inUse : Nat
  vacated : Nat
  uncertain : Bool
  rotation : RotationClass
  signOnQueue : List SignOnOp
  /-- The one supervisor request accepted and not yet begun (R9). -/
  waiting : Option StoreReq
  inProgress : Option Operation
  deriving DecidableEq, Repr

/-! ## The Open Account Table (chapter 2) -/

/-- The states of an entry that is not FREE (R28). -/
inductive EntryState where
  | opened | closing | stuck
  deriving DecidableEq, Repr

/-- An entry that holds an account (R27); FREE is the absence of one (log entry 28). -/
structure OatEntry where
  state : EntryState
  account : Nat
  slot : SlotNo
  count : Nat
  acct : Account
  dirty : Bool
  retirePending : Bool
  deriving DecidableEq, Repr

/-- The credit state of an entry, computed from its copies (R34). -/
inductive CreditState where
  | normal | low | exhausted
  deriving DecidableEq, Repr

/-- The Open Account Table and its write-back list (R27, R36). -/
structure OatCtl where
  entries : Vector (Option OatEntry) 112
  writeBackList : List EntryNo
  deriving DecidableEq, Repr

/-! ## The Line Controller (chapter 3) -/

/-- The stages of SIGNON (R79). -/
inductive SignOnStage where
  | accountEntry | passwordEntry | checking | held | admitting
  deriving DecidableEq, Repr

/-- The stages of ADMITTED (R49). -/
inductive AdmittedStage where
  | selecting | waiting | calling | connected | escaped | moving
  deriving DecidableEq, Repr

/-- The phase of a line, with the stage that is present in it (R49, R50). -/
inductive Phase where
  | down | idle | answering
  | signon (stage : SignOnStage)
  | admitted (stage : AdmittedStage)
  | closing | guard
  deriving DecidableEq, Repr

/-- Why a call or session ended (R184). -/
inductive EndCause where
  | signonFailed | carrierLost | userQuit | hostEnded | hostLost | idle | exhausted | hours | noHost | supervisor | restart
  deriving DecidableEq, Repr

/-- The message being sent on a line (R49, R67). -/
structure CurrentMsg where
  number : MsgNo
  inserted : Nat
  text : List Byte
  position : Nat
  deriving DecidableEq, Repr

/-- The message waiting behind it (R68). -/
structure PendingMsg where
  number : MsgNo
  inserted : Nat
  deriving DecidableEq, Repr

/-- The closing summary (R75). -/
structure Summary where
  account : Option Nat
  cause : EndCause
  admittedSeconds : Nat
  connectedSeconds : Nat
  credits : Nat
  minute : Nat
  deriving DecidableEq, Repr

/-- A line record (R49). -/
structure LineRec where
  phase : Phase
  attempt : BitVec 8
  attemptsUsed : Nat
  entryBuffer : List Byte
  account : Option Nat
  entryRef : Option EntryNo
  selectedGroup : Option GroupNo
  port : Option PortNo
  portFaults : Nat
  moveCount : Nat
  residue : Nat
  grace : Nat
  charged : Nat
  admittedSeconds : Nat
  connectedSeconds : Nat
  lastCategory : Option Category
  carrier : Bool
  txBusy : Bool
  stageTimer : Option Nat
  holdTimer : Option Nat
  carrierHold : Option Nat
  idleCount : Option Nat
  exhaustion : Option Nat
  hours : Option Nat
  idleWarning : Option Nat
  verdictGiven : Bool
  lowWarned : Bool
  echoSuppressed : Bool
  overrun : Bool
  outOfService : Bool
  lineToPort : Option Byte
  portToLine : Option Byte
  current : Option CurrentMsg
  pending : Option PendingMsg
  summary : Option Summary
  deriving DecidableEq, Repr

/-- A command to a line unit (R52). -/
inductive LineCmd where
  | answer (line : LineNo)
  | release (line : LineNo)
  | txChar (line : LineNo) (char : Byte)
  deriving DecidableEq, Repr

/-- The global line parameters (R72). -/
structure LineParams where
  acceptingCalls : Bool
  busyOut : Nat
  answerLimit : Nat
  carrierHold : Nat
  signonLimit : Nat
  attemptsPerCall : Nat
  lockoutThreshold : Nat
  holdLimit : Nat
  selectionLimit : Nat
  callLimit : Nat
  escapeKey : Nat
  escapeMask : Nat
  deriving DecidableEq, Repr

/-- The Line Controller: line records, parameters, message table, and the commands issued to the line scanner bus and
not yet complete, the one on the bus first (R52). -/
structure LineCtl where
  lines : Vector LineRec 96
  params : LineParams
  messages : Vector (List Byte) 16
  bus : List LineCmd
  deriving DecidableEq, Repr

/-! ## Watches (chapter 4) -/

/-- The event kinds of a watch (R102). -/
inductive WatchKind where
  | signonOk | signonFail | sessionEnd
  deriving DecidableEq, Repr

/-- The action of a watch (R102). -/
inductive WatchAction where
  | note | hold
  deriving DecidableEq, Repr

/-- A watch entry (R102); kinds as the set byte of R207: bit 0 SIGNON_OK, bit 1 SIGNON_FAIL, bit 2 SESSION_END. -/
structure Watch where
  inUse : Bool
  low : Nat
  high : Nat
  kinds : BitVec 3
  action : WatchAction
  hits : Nat
  lastHit : Option LineNo
  deriving DecidableEq, Repr

/-! ## The Calendar and Tariff Unit (chapter 5) -/

/-- A class policy (R110). -/
structure ClassPolicy where
  allowedBands : BitVec 4
  queuePriority : Nat
  grace : Nat
  idleLimit : Nat
  idleWarning : Nat
  exhaustionGrace : Nat
  hoursGrace : Nat
  deriving DecidableEq, Repr

/-- A tariff set (R109, R110); the rate table is indexed by band, then class. -/
structure TariffSet where
  schedule : Vector Band 336
  rates : Vector (Vector Nat 4) 4
  waitRates : Vector Nat 4
  policies : Vector ClassPolicy 4
  deriving DecidableEq, Repr

/-- A latched view (R117); the rates are indexed by class. -/
structure View where
  minute : Nat
  second : Nat
  band : Band
  generation : BitVec 8
  bandRates : Vector Nat 4
  waitRates : Vector Nat 4
  deriving DecidableEq, Repr

/-- The Calendar and Tariff Unit (R105, R111). -/
structure Calendar where
  minute : Nat
  second : Nat
  clockSet : Bool
  active : TariffSet
  pendingSet : TariffSet
  armed : Bool
  generation : BitVec 8
  view : View
  prevView : View
  deriving DecidableEq, Repr

/-! ## The Port Allocator (chapters 7 and 8) -/

/-- The role of a port (R144). -/
inductive PortRole where
  | ordinary | spare
  deriving DecidableEq, Repr

/-- The state of a port (R145). -/
inductive PortState where
  | outOfService | notReady | free | calling | inUse | faulted
  deriving DecidableEq, Repr

/-- Why a port is FAULTED (R144). -/
inductive FaultCause where
  | noAccept | readyLost
  deriving DecidableEq, Repr

/-- A port record (R144). -/
structure PortRec where
  group : Option GroupNo
  role : PortRole
  state : PortState
  hostReady : Bool
  line : Option LineNo
  callTimer : Option Nat
  faultCause : Option FaultCause
  deriving DecidableEq, Repr

/-- The congestion mode of a group (R146). -/
inductive CongestionMode where
  | level | edge
  deriving DecidableEq, Repr

/-- A queue place (R153). -/
structure Place where
  line : LineNo
  priority : Nat
  announced : Nat
  deriving DecidableEq, Repr

/-- A group record (R146). -/
structure GroupRec where
  queueLimit : Nat
  waitLimit : Nat
  failoverAllowance : Nat
  congestionMode : CongestionMode
  congestionThreshold : Nat
  queue : List Place
  congestionCount : Nat
  refusedCount : Nat
  deriving DecidableEq, Repr

/-- A command to a host port (R147). A TX_CHAR names the line whose line-to-port slot still holds its character. -/
inductive PortCmd where
  | call (port : PortNo) (line : LineNo) (account : Nat) (cls : ClassNo)
  | hangUp (port : PortNo)
  | txChar (port : PortNo) (char : Byte) (slotOf : Option LineNo)
  deriving DecidableEq, Repr

/-- The Port Allocator: port and group records, and the commands issued to the host port bus and not yet complete, the
one on the bus first (R147). -/
structure PortCtl where
  ports : Vector PortRec 64
  groups : Vector GroupRec 6
  bus : List PortCmd
  deriving DecidableEq, Repr

/-! ## The Supervisor Port (chapter 10) -/

/-- An ACCOUNT attention item (R203); causes as the set of R207: bit 0 LOCKED, bit 1 STORE_FAULT, bit 2 WRITEBACK_FAILED. -/
structure AccountItem where
  account : Nat
  causes : BitVec 3
  deriving DecidableEq, Repr

/-- The attention set (R203), one holder per kind and key: HOLD by line, PORT_FAULT by port with its cause, ACCOUNT items in
rising account order, FAILOVER_SPENT by group, NOTE by line with its set of watch numbers (no item where it is empty). -/
structure Attention where
  hold : Vector Bool 96
  portFault : Vector (Option FaultCause) 64
  accounts : List AccountItem
  failoverSpent : Vector Bool 6
  notes : Vector (BitVec 4) 96
  overflow : Bool
  deriving DecidableEq, Repr

/-- The completion codes (R202). -/
inductive Code where
  | ok | okClamped | unknownRequest | malformed | outOfRange | notFound | present | storeFull | storeFault | noStore
  | wrongState | tariffArmed
  deriving DecidableEq, Repr

/-- The Supervisor Port (R198): the request buffer and how many bytes of the frame have been written, the response buffer
with its read position, the flags, and the byte last driven onto SD0 to SD7 (R201). -/
structure SupPort where
  request : List Byte
  received : Nat
  response : List Byte
  readPos : Nat
  busy : Bool
  ready : Bool
  rejected : Bool
  sdOut : Byte
  deriving DecidableEq, Repr

end Sys2Proof.Machine
end

