-- ==== Sys2Proof/Machine/ResetValues.lean ====
section
/-! DEFINITION. The values the records take at power-on reset. -/
namespace Sys2Proof.Machine

/-- The characters of a text as bytes. -/
def textBytes (t : String) : List Byte :=
  t.toList.map (fun c => BitVec.ofNat 8 c.toNat)

/-- Carriage return and line feed, with which every default text begins (R66). -/
def crlf : List Byte := [13, 10]

/-- The default texts of the message table (R66). -/
def defaultMessages : Vector (List Byte) 16 :=
  #v[crlf ++ textBytes "LA-96 DIAL-IN SERVICE",
     crlf ++ textBytes "ACCOUNT: ",
     crlf ++ textBytes "PASSWORD: ",
     crlf ++ textBytes "SIGN-ON REFUSED, REASON #",
     crlf ++ textBytes "HOST A-F (# PERMITTED): ",
     crlf ++ textBytes "WAITING, POSITION #",
     crlf ++ textBytes "ALL PORTS BUSY",
     crlf ++ textBytes "CONNECTED",
     crlf ++ textBytes "HOST NOT AVAILABLE",
     crlf ++ textBytes "RECONNECTED",
     crlf ++ textBytes "LOW BALANCE: # CREDITS",
     crlf ++ textBytes "CREDIT EXHAUSTED, ENDING IN # S",
     crlf ++ textBytes "HOURS ENDING IN # S",
     crlf ++ textBytes "IDLE, ENDING IN # S",
     crlf ++ textBytes "ESCAPE: # CREDITS. R=RESUME Q=QUIT",
     crlf ++ textBytes "GOODBYE, # CREDITS CHARGED"]

/-- The line parameters after reset (R72). -/
def resetLineParams : LineParams :=
  { acceptingCalls := false, busyOut := 0, answerLimit := 30, carrierHold := 2, signonLimit := 90, attemptsPerCall := 3,
    lockoutThreshold := 5, holdLimit := 60, selectionLimit := 60, callLimit := 15, escapeKey := 0x1C, escapeMask := 0x7F }

/-- A line record after reset (R78). The entry buffer is empty: R78 does not name it (log entry 41, DESIGN CHOICE). -/
def resetLine : LineRec :=
  { phase := .idle, attempt := 0, attemptsUsed := 0, entryBuffer := [], account := none, entryRef := none,
    selectedGroup := none, port := none, portFaults := 0, moveCount := 0, residue := 0, grace := 0, charged := 0,
    admittedSeconds := 0, connectedSeconds := 0, lastCategory := none, carrier := false, txBusy := false,
    stageTimer := none, holdTimer := none, carrierHold := none, idleCount := none, exhaustion := none, hours := none,
    idleWarning := none, verdictGiven := false, lowWarned := false, echoSuppressed := false, overrun := false,
    outOfService := false, lineToPort := none, portToLine := none, current := none, pending := none, summary := none }

/-- The Line Controller after reset, with the RELEASE commands that follow the reset issued in line order (R78). -/
def resetLineCtl : LineCtl :=
  { lines := Vector.replicate 96 resetLine, params := resetLineParams, messages := defaultMessages,
    bus := (List.finRange 96).map LineCmd.release }

/-- A class policy after reset (R110). -/
def resetPolicy : ClassPolicy :=
  { allowedBands := 0xF, queuePriority := 0, grace := 0, idleLimit := 0, idleWarning := 60, exhaustionGrace := 60,
    hoursGrace := 300 }

/-- A tariff set after reset (R109, R110). -/
def resetTariff : TariffSet :=
  { schedule := Vector.replicate 336 0, rates := Vector.replicate 4 (Vector.replicate 4 0),
    waitRates := Vector.replicate 4 0, policies := Vector.replicate 4 resetPolicy }

/-- Both views after reset: minute 0, second 0, band 0, generation 0, all rates 0 (R111). -/
def resetView : View :=
  { minute := 0, second := 0, band := 0, generation := 0, bandRates := Vector.replicate 4 0,
    waitRates := Vector.replicate 4 0 }

/-- The Calendar and Tariff Unit after reset (R105, R111). -/
def resetCalendar : Calendar :=
  { minute := 0, second := 0, clockSet := false, active := resetTariff, pendingSet := resetTariff, armed := false,
    generation := 0, view := resetView, prevView := resetView }

/-- A port record after reset (R144). -/
def resetPort : PortRec :=
  { group := none, role := .ordinary, state := .outOfService, hostReady := false, line := none, callTimer := none,
    faultCause := none }

/-- A group record after reset (R146). -/
def resetGroup : GroupRec :=
  { queueLimit := 16, waitLimit := 10, failoverAllowance := 0, congestionMode := .level, congestionThreshold := 8,
    queue := [], congestionCount := 0, refusedCount := 0 }

/-- The Port Allocator after reset, with the HANG_UP commands that follow the reset issued in port order (R169). -/
def resetPortCtl : PortCtl :=
  { ports := Vector.replicate 64 resetPort, groups := Vector.replicate 6 resetGroup,
    bus := (List.finRange 64).map PortCmd.hangUp }

/-- A watch after reset: not in use, no hits (R102). The book gives no reset value for the range, the kinds and the
action: 0, 0, the empty set and NOTE are the model's (log entry 13, DESIGN CHOICE). -/
def resetWatch : Watch :=
  { inUse := false, low := 0, high := 0, kinds := 0, action := .note, hits := 0, lastHit := none }

/-- The empty attention set (R198). -/
def emptyAttention : Attention :=
  { hold := Vector.replicate 96 false, portFault := Vector.replicate 64 none, accounts := [],
    failoverSpent := Vector.replicate 6 false, notes := Vector.replicate 96 0, overflow := false }

/-- The Supervisor Port after reset (R198). The byte last driven onto SD0 to SD7 is 0: the book gives none
(log entry 14, DESIGN CHOICE). -/
def resetSupPort : SupPort :=
  { request := [], received := 0, response := [], readPos := 0, busy := false, ready := false, rejected := false,
    sdOut := 0 }

/-- The Account Store Controller after reset (R1, R10, R11). -/
def resetStoreCtl : StoreCtl :=
  { attachment := .noStore, capacity := 0, inUse := 0, vacated := 0, uncertain := false, rotation := .signOn,
    signOnQueue := [], waiting := none, inProgress := none }

/-- The Open Account Table after reset (R48). -/
def resetOat : OatCtl :=
  { entries := Vector.replicate 112 none, writeBackList := [] }

end Sys2Proof.Machine
end

