-- ==== Sys2Proof/Machine/State.lean ====
section
/-! DEFINITION. The state of the controller and of the account store on its store port, the reasons a command could stop,
and the state right after power-on reset. -/
namespace Sys2Proof.Machine

/-- Why a command would stop the machine. -/
inductive Fault where
  /-- An access to a store byte address beyond the 19 address lines. No meaning raises it: a slot number is below 8,192, so
  every address is below 327,680 (log entry 31). Safe. -/
  | noSuchStoreAddress (address : Nat)
  deriving DecidableEq, Repr

/-- Why a command would have no meaning. -/
inductive Refusal where
  /-- A row of the table without a meaning. No arm of exec raises it: every row is modelled. Safe. -/
  | notModelled (mnemonic : String)
  deriving DecidableEq, Repr

/-- The whole state: the account store (external memory on the store port, as the list of its bytes that are not zero, in
rising address order), the eight blocks, and the queue of the commands that wait, first in first out. -/
structure State where
  store : List Host.Cell
  ctl : StoreCtl
  oat : OatCtl
  lc : LineCtl
  watches : Vector Watch 4
  cal : Calendar
  pa : PortCtl
  sup : SupPort
  attn : Attention
  pending : List Instr
  deriving DecidableEq, Repr

/-- The state right after power-on reset (R1, R10, R11, R48, R78, R102, R105, R111, R144, R146, R169, R198), with an account
store whose bytes are all zero (log entry 7, DESIGN CHOICE: the store keeps its contents through a reset and the book gives
no first contents). -/
def State.reset : State :=
  { store := [], ctl := resetStoreCtl, oat := resetOat, lc := resetLineCtl, watches := Vector.replicate 4 resetWatch,
    cal := resetCalendar, pa := resetPortCtl, sup := resetSupPort, attn := emptyAttention, pending := [] }

end Sys2Proof.Machine
end

