-- ==== Sys2Proof/Machine/Memory.lean ====
section
/-! DEFINITION. The account store as memory: the bytes at its addresses, whole slots, and what a slot write leaves. -/
namespace Sys2Proof.Machine

/-- What an address that is not listed reads as (log entry 7). -/
def storeDefault : Byte := 0

/-- The byte at a store address. -/
def storeRead : List Host.Cell → Nat → Byte
  | [], _ => storeDefault
  | (k, b) :: m, a => if a = k then b else storeRead m a

/-- Store a byte, keeping the list in its canonical form. -/
def storeWrite : List Host.Cell → Nat → Byte → List Host.Cell
  | [], a, b => if b = storeDefault then [] else [(a, b)]
  | (k, c) :: m, a, b =>
    if a < k then if b = storeDefault then (k, c) :: m else (a, b) :: (k, c) :: m
    else if a = k then if b = storeDefault then m else (a, b) :: m
    else (k, c) :: storeWrite m a b

/-- Every listed address is above the given bound and the listed addresses strictly rise. -/
def storeRising : Option Nat → List Host.Cell → Bool
  | _, [] => true
  | bound, (k, _) :: m => (match bound with | none => true | some n => decide (n < k)) && storeRising (some k) m

/-- The canonical form: addresses strictly rising, no entry equal to what an unlisted address reads as. -/
def storeWf (m : List Host.Cell) : Bool := storeRising none m && m.all (fun c => decide (c.2 ≠ storeDefault))

/-- The bytes of a slot (chapter 1: slot × 40 to slot × 40 + 39). -/
def slotBytes (m : List Host.Cell) (slot : Nat) : List Byte :=
  (List.range 40).map (fun j => storeRead m (slot * 40 + j))

/-- Store the 40 bytes of a slot; a list that is too short is filled up with zeros. -/
def storeSlot (m : List Host.Cell) (slot : Nat) (bytes : List Byte) : List Host.Cell :=
  (List.range 40).foldl (fun m j => storeWrite m (slot * 40 + j) (bytes.getD j 0)) m

/-- The bytes a slot holds after a write (R4): the new ones, those the failed write left, or a mixture of new and old. -/
def bytesAfterWrite (o : WriteOutcome) (old new : List Byte) : List Byte :=
  match o with
  | .good => new
  | .left bytes => bytes
  | .mixed marks => (List.range 40).map (fun j => if marks.getD j false then new.getD j 0 else old.getD j 0)

/-- Whether the read-back matches (R4). -/
def writeMatches (o : WriteOutcome) : Bool :=
  match o with
  | .good => true
  | .left _ => false
  | .mixed _ => false

/-- One whole-slot write with its outcome (R4). -/
def slotWrite (m : List Host.Cell) (o : WriteOutcome) (slot : Nat) (new : List Byte) : List Host.Cell :=
  storeSlot m slot (bytesAfterWrite o (slotBytes m slot) new)

/-- Write zero bytes to the slots below a slot number (R2, the clear option). -/
def clearBelow (m : List Host.Cell) (slots : Nat) : List Host.Cell :=
  m.filter (fun c => decide (slots * 40 ≤ c.1))

end Sys2Proof.Machine
end

