-- ==== Sys2Proof/Machine/Operands.lean ====
section
/-! DEFINITION. Operand forms: identifiers, numbers and sets as frames carry them, clamping, the password fold, and the
byte images of slots, lines, ports and groups (R8, R207). -/
namespace Sys2Proof.Machine

/-! ## Identifiers -/

/-- The line a number names, if it is in range. -/
def lineNo? (n : Nat) : Option LineNo := if h : n < 96 then some ⟨n, h⟩ else none

/-- The port a number names, if it is in range. -/
def portNo? (n : Nat) : Option PortNo := if h : n < 64 then some ⟨n, h⟩ else none

/-- The group a number 1 to 6 names. -/
def groupNo? (n : Nat) : Option GroupNo := if h : 1 ≤ n ∧ n ≤ 6 then some ⟨n - 1, by omega⟩ else none

/-- The class or the band a number names, if it is in range. -/
def fin4? (n : Nat) : Option (Fin 4) := if h : n < 4 then some ⟨n, h⟩ else none

/-- The message a number names, if it is in range. -/
def msgNo? (n : Nat) : Option MsgNo := if h : n < 16 then some ⟨n, h⟩ else none

/-- The slot a number names, if it is in range of the largest store. -/
def slotNo? (n : Nat) : Option SlotNo := if h : n < 8192 then some ⟨n, h⟩ else none

/-- A group or its absence, from 0 or a number 1 to 6. -/
def optGroup? (n : Nat) : Option (Option GroupNo) :=
  if n = 0 then some none else (groupNo? n).map some

/-! ## Settings -/

/-- A setting brought to the nearer end of its range (00_scope.md, Out-of-range settings). -/
def clamp (lo hi n : Nat) : Nat := if n < lo then lo else if hi < n then hi else n

/-- Whether a setting lies outside its range. -/
def clamps (lo hi n : Nat) : Bool := decide (n < lo) || decide (hi < n)

/-- A count raised by 1, stopping at its ceiling (00_scope.md, Saturation). -/
def satSucc (ceiling n : Nat) : Nat := if n < ceiling then n + 1 else n

/-! ## Numbers and sets in frames (R207) -/

/-- A number in k bytes, most significant first. -/
def beBytes : Nat → Nat → List Byte
  | 0, _ => []
  | k + 1, n => BitVec.ofNat 8 (n / 256 ^ k) :: beBytes k n

/-- The number that bytes carry, most significant first. -/
def beNat (bytes : List Byte) : Nat := bytes.foldl (fun n b => n * 256 + b.toNat) 0

/-- A flag as a byte. -/
def flagByte (b : Bool) : Byte := if b then 1 else 0

/-- An absent number shown by 0 bytes. -/
def optBytes (k : Nat) (n : Option Nat) : List Byte := beBytes k (n.getD 0)

/-! ## The password fold (R8) -/

/-- One step of the fold. -/
def foldStep (v : Nat) (c : Byte) : Nat :=
  let x := (v * 131 + c.toNat) % 16777216
  if x = 0 then 1 else x

/-- The 24-bit fold of a password. -/
def passwordFold (chars : List Byte) : Nat := chars.foldl foldStep 7919

/-- Whether a character may stand in a password (R8). -/
def passwordChar (c : Byte) : Bool := decide (33 ≤ c.toNat) && decide (c.toNat ≤ 126)

/-! ## The account slot image (R3, R207) -/

/-- A category's name as an index: bands 0 to 3, then WAIT. -/
def Account.totals (a : Account) : List Nat := a.bandTotals.toList ++ [a.waitTotal]

/-- A status as its byte. -/
def statusByte (s : Status) : Byte :=
  match s with
  | .live => 0
  | .locked => 1
  | .barred => 2

/-- A group, or its absence, as a number 0 to 6. -/
def groupNumber (g : Option GroupNo) : Nat :=
  match g with
  | none => 0
  | some g => g.val + 1

/-- A slot state as its byte. -/
def slotStateByte (s : SlotState) : Byte :=
  match s with
  | .empty => 0
  | .inUse => 1
  | .vacated => 2

/-- Bytes 1 to 38 of the image less the account number: the byte before the number, and those after it. -/
def accountBytes (a : Account) : List Byte :=
  [BitVec.ofNat 8 (a.sessionLimit * 16 + a.cls.val),
   BitVec.ofNat 8 (groupNumber a.defaultGroup * 16 + a.failedCount),
   a.permitted.setWidth 8]
  ++ beBytes 3 a.password ++ beBytes 3 a.allotment ++ beBytes 2 a.overdraft ++ beBytes 2 a.lowThreshold
  ++ a.totals.flatMap (beBytes 3) ++ beBytes 3 a.connectSeconds
  ++ (match a.lastSignOn with
      | none => [0, 0, 0xFF]
      | some (m, l) => beBytes 2 m ++ [BitVec.ofNat 8 l.val])

/-- The sum of bytes modulo 256. -/
def byteSum (bytes : List Byte) : Byte := bytes.foldl (· + ·) 0

/-- 39 bytes followed by their check byte (R3). -/
def withCheck (bytes : List Byte) : List Byte := bytes ++ [-(byteSum bytes)]

/-- The 40-byte image with the given slot-state byte and account-number bytes and the account's fields. -/
def slotImage (state : Byte) (number : List Byte) (a : Account) : List Byte :=
  withCheck (state :: statusByte a.status :: number ++ accountBytes a)

/-- The 40-byte image of an account in a slot of a state (R3). -/
def encodeSlot (state : SlotState) (number : Nat) (a : Account) : List Byte :=
  slotImage (slotStateByte state) (beBytes 3 number) a

/-- Forty zero bytes: a sound EMPTY slot (R3). -/
def emptyImage : List Byte := List.replicate 40 0

/-- The number in the bytes of an image from one offset on. -/
def imageNat (bytes : List Byte) (offset k : Nat) : Nat := beNat ((bytes.drop offset).take k)

/-- One byte of an image as a number. -/
def imageByte (bytes : List Byte) (offset : Nat) : Nat := (bytes.getD offset 0).toNat

/-- The status a byte names. -/
def statusOf? (n : Nat) : Option Status :=
  match n with
  | 0 => some .live
  | 1 => some .locked
  | 2 => some .barred
  | _ => none

/-- The last sign-on of an image: present, absent, or outside the encoding (R207). -/
def lastSignOnOf? (minute line : Nat) : Option (Option (Nat × LineNo)) :=
  if line = 255 then if minute = 0 then some none else none
  else if minute < 10080 then (lineNo? line).map (fun l => some (minute, l)) else none

/-- The account number and fields of an IN_USE or VACATED image, if every one is within its range (R3, R207). -/
def imageFields? (b : List Byte) : Option (Nat × Account) :=
  match statusOf? (imageByte b 1), fin4? (imageByte b 5 % 16), optGroup? (imageByte b 6 / 16),
      lastSignOnOf? (imageNat b 36 2) (imageByte b 38) with
  | some status, some cls, some group, some last =>
    let number := imageNat b 2 3
    let limit := imageByte b 5 / 16
    if 1 ≤ number ∧ number ≤ maxAccount ∧ 1 ≤ limit ∧ limit ≤ 4 ∧ imageByte b 7 < 64 then
      some (number,
        { status := status, cls := cls, sessionLimit := limit, permitted := BitVec.ofNat 6 (imageByte b 7),
          defaultGroup := group, password := imageNat b 8 3, failedCount := imageByte b 6 % 16,
          allotment := imageNat b 11 3, overdraft := imageNat b 14 2, lowThreshold := imageNat b 16 2,
          bandTotals := #v[imageNat b 18 3, imageNat b 21 3, imageNat b 24 3, imageNat b 27 3],
          waitTotal := imageNat b 30 3, connectSeconds := imageNat b 33 3, lastSignOn := last })
    else none
  | _, _, _, _ => none

/-- What an image holds apart from its check byte: one of the three states, or nothing sound. -/
def imageView (b : List Byte) : SlotView :=
  match imageByte b 0 with
  | 0 => .empty
  | 1 => match imageFields? b with
    | some (n, a) => .inUse n a
    | none => .damaged
  | 2 => match imageFields? b with
    | some (n, a) => .vacated n a
    | none => .damaged
  | _ => .damaged

/-- What reading a slot finds (R3): of a slot whose bytes do not sum to 0, only that it is damaged. -/
def decodeSlot (b : List Byte) : SlotView := if byteSum b = 0 then imageView b else .damaged

/-- What reading a slot of a store finds. -/
def slotView (m : List Host.Cell) (slot : Nat) : SlotView := decodeSlot (slotBytes m slot)

/-- A slot image as read with every copied field replaced by an entry's copy and the check byte computed anew (R21). -/
def mergeImage (read : List Byte) (a : Account) : List Byte :=
  slotImage (read.getD 0 0) ((read.drop 2).take 3) a

/-! ## The line image (R207) -/

/-- The phase byte and the stage byte. -/
def phaseBytes (p : Phase) : List Byte :=
  match p with
  | .down => [0, 0xFF]
  | .idle => [1, 0xFF]
  | .answering => [2, 0xFF]
  | .signon st => [3, match st with
      | .accountEntry => 0
      | .passwordEntry => 1
      | .checking => 2
      | .held => 3
      | .admitting => 4]
  | .admitted st => [4, match st with
      | .selecting => 0
      | .waiting => 1
      | .calling => 2
      | .connected => 3
      | .escaped => 4
      | .moving => 5]
  | .closing => [5, 0xFF]
  | .guard => [6, 0xFF]

/-- An end cause as its byte. -/
def causeByte (c : EndCause) : Byte :=
  match c with
  | .signonFailed => 0
  | .carrierLost => 1
  | .userQuit => 2
  | .hostEnded => 3
  | .hostLost => 4
  | .idle => 5
  | .exhausted => 6
  | .hours => 7
  | .noHost => 8
  | .supervisor => 9
  | .restart => 10

/-- An identifier in one byte, FF hex for absent. -/
def optByteFF {n : Nat} (x : Option (Fin n)) : Byte :=
  match x with
  | none => 0xFF
  | some i => BitVec.ofNat 8 i.val

/-- A count in k bytes, every bit set for absent. -/
def optFF (k : Nat) (n : Option Nat) : List Byte :=
  match n with
  | none => List.replicate k 0xFF
  | some n => beBytes k n

/-- Eight flags as a byte, bit 0 first. -/
def flagsByte (flags : List Bool) : Byte :=
  BitVec.ofNat 8 (flags.foldr (fun b n => 2 * n + b.toNat) 0)

/-- A category as its byte, FF hex for absent. -/
def categoryByte (c : Option Category) : Byte :=
  match c with
  | none => 0xFF
  | some (.band b) => BitVec.ofNat 8 b.val
  | some .wait => 4

/-- The bytes of a closing summary, zeros where it is absent. -/
def summaryBytes (s : Option Summary) : List Byte :=
  match s with
  | none => List.replicate 15 0
  | some s => optBytes 3 s.account ++ [causeByte s.cause] ++ beBytes 3 s.admittedSeconds ++ beBytes 3 s.connectedSeconds
      ++ beBytes 3 s.credits ++ beBytes 2 s.minute

/-- The 58-byte line image. -/
def lineImage (r : LineRec) : List Byte :=
  phaseBytes r.phase ++ [r.attempt, BitVec.ofNat 8 r.attemptsUsed, BitVec.ofNat 8 r.entryBuffer.length]
  ++ optBytes 3 r.account
  ++ [optByteFF r.entryRef, BitVec.ofNat 8 (groupNumber r.selectedGroup), optByteFF r.port,
      BitVec.ofNat 8 (r.portFaults * 16 + r.moveCount)]
  ++ beBytes 2 r.residue ++ beBytes 1 r.grace
  ++ beBytes 3 r.charged ++ beBytes 3 r.admittedSeconds ++ beBytes 3 r.connectedSeconds
  ++ [categoryByte r.lastCategory,
      flagsByte [r.carrier, r.txBusy, r.verdictGiven, r.lowWarned, r.echoSuppressed, r.overrun, r.outOfService]]
  ++ optFF 2 r.stageTimer ++ optFF 1 r.carrierHold
  ++ [flagsByte [r.idleCount.isSome, r.idleWarning.isSome, r.exhaustion.isSome, r.hours.isSome, r.holdTimer.isSome,
      r.lineToPort.isSome, r.portToLine.isSome, r.summary.isSome]]
  ++ optBytes 2 r.idleCount ++ optBytes 1 r.idleWarning
  ++ optBytes 2 r.exhaustion ++ optBytes 2 r.hours ++ optBytes 1 r.holdTimer
  ++ [r.lineToPort.getD 0, r.portToLine.getD 0]
  ++ [optByteFF (r.current.map (·.number)), (r.current.map (fun m => BitVec.ofNat 8 m.position)).getD 0xFF,
      optByteFF (r.pending.map (·.number))]
  ++ summaryBytes r.summary

/-! ## Port, group, policy and watch images (R207) -/

/-- A fault cause as its byte. -/
def faultByte (c : FaultCause) : Byte :=
  match c with
  | .noAccept => 0
  | .readyLost => 1

/-- The 7-byte port image. -/
def portImage (p : PortRec) : List Byte :=
  [BitVec.ofNat 8 (groupNumber p.group),
   match p.role with
   | .ordinary => 0
   | .spare => 1,
   match p.state with
   | .outOfService => 0
   | .notReady => 1
   | .free => 2
   | .calling => 3
   | .inUse => 4
   | .faulted => 5,
   flagByte p.hostReady, optByteFF p.line, (p.callTimer.map (BitVec.ofNat 8)).getD 0xFF,
   (p.faultCause.map faultByte).getD 0xFF]

/-- Bytes 0 to 4 of the group image: the settings. -/
def groupSettings (g : GroupRec) : List Byte :=
  [BitVec.ofNat 8 g.queueLimit, BitVec.ofNat 8 g.waitLimit, BitVec.ofNat 8 g.failoverAllowance,
   match g.congestionMode with
   | .level => 0
   | .edge => 1,
   BitVec.ofNat 8 g.congestionThreshold]

/-- The two counters of a group, 3 bytes each. -/
def groupCounters (g : GroupRec) : List Byte := beBytes 3 g.congestionCount ++ beBytes 3 g.refusedCount

/-- The group image: settings, counters, queue length and places. -/
def groupImage (g : GroupRec) : List Byte :=
  groupSettings g ++ groupCounters g ++ [BitVec.ofNat 8 g.queue.length]
  ++ g.queue.flatMap (fun p => [BitVec.ofNat 8 p.line.val, BitVec.ofNat 8 p.priority, BitVec.ofNat 8 p.announced])

/-- The 12 bytes of a class policy. -/
def policyBytes (p : ClassPolicy) : List Byte :=
  [p.allowedBands.setWidth 8, BitVec.ofNat 8 p.queuePriority] ++ beBytes 2 p.grace ++ beBytes 2 p.idleLimit
  ++ beBytes 2 p.idleWarning ++ beBytes 2 p.exhaustionGrace ++ beBytes 2 p.hoursGrace

/-- The bytes of a watch (READ_WATCH). -/
def watchBytes (w : Watch) : List Byte :=
  [flagByte w.inUse] ++ beBytes 3 w.low ++ beBytes 3 w.high
  ++ [w.kinds.setWidth 8, (match w.action with
      | .note => 0
      | .hold => 1), BitVec.ofNat 8 w.hits, optByteFF w.lastHit]

/-- The 12 line parameters, one byte each, in the order of the table of R72. -/
def paramBytes (p : LineParams) : List Byte :=
  [flagByte p.acceptingCalls] ++ [p.busyOut, p.answerLimit, p.carrierHold, p.signonLimit, p.attemptsPerCall,
    p.lockoutThreshold, p.holdLimit, p.selectionLimit, p.callLimit, p.escapeKey, p.escapeMask].map (BitVec.ofNat 8)

end Sys2Proof.Machine
end

