-- ==== Sys2Proof/Machine/Flags.lean ====
section
/-! DEFINITION. The conditions the rules compute from the records: credit state, watch matching, band edge, escape match,
timers that run, and the outputs of the supervisor port. -/
namespace Sys2Proof.Machine

/-- The credit state of an allotment and low threshold (R34). -/
def creditState (a : Account) : CreditState :=
  if a.allotment = 0 then .exhausted else if a.allotment ≤ a.lowThreshold then .low else .normal

/-- Whether a phase is in call (R50). -/
def Phase.inCall (p : Phase) : Bool :=
  match p with
  | .answering => true
  | .signon _ => true
  | .admitted _ => true
  | .down => false
  | .idle => false
  | .closing => false
  | .guard => false

/-- Whether a phase is ADMITTED. -/
def Phase.isAdmitted (p : Phase) : Bool :=
  match p with
  | .admitted _ => true
  | .signon _ => false
  | .answering => false
  | .down => false
  | .idle => false
  | .closing => false
  | .guard => false

/-- Whether messages are sent in a phase (R68). -/
def Phase.speaks (p : Phase) : Bool :=
  match p with
  | .signon _ => true
  | .admitted _ => true
  | .closing => true
  | .answering => false
  | .down => false
  | .idle => false
  | .guard => false

/-- Whether the stage timer is counted down in a phase (R51, R85): not in CHECKING, HELD and ADMITTING, where it is paused. -/
def Phase.stageTimerRuns (p : Phase) : Bool :=
  match p with
  | .answering => true
  | .signon .accountEntry => true
  | .signon .passwordEntry => true
  | .signon .checking => false
  | .signon .held => false
  | .signon .admitting => false
  | .admitted .selecting => true
  | .admitted .waiting => true
  | .admitted .escaped => true
  | .admitted .calling => false
  | .admitted .connected => false
  | .admitted .moving => false
  | .closing => true
  | .guard => true
  | .down => false
  | .idle => false

/-- The bit of an event kind in a watch's set of kinds (R207). -/
def WatchKind.bit (k : WatchKind) : Nat :=
  match k with
  | .signonOk => 0
  | .signonFail => 1
  | .sessionEnd => 2

/-- Whether a watch covers an account number (R102). -/
def Watch.covers (w : Watch) (account : Nat) : Bool :=
  w.inUse && decide (w.low ≤ account) && decide (account ≤ w.high)

/-- Whether a watch matches an event of a kind for an account (R102). -/
def Watch.matchesEvent (w : Watch) (k : WatchKind) (account : Nat) : Bool :=
  w.covers account && w.kinds.getLsbD k.bit

/-- The hold marker condition on the watches (R86). -/
def holdsSignOn (watches : Vector Watch 4) (account : Nat) : Bool :=
  watches.toList.any (fun w => w.matchesEvent .signonOk account && decide (w.action = .hold))

/-- Whether a latching takes a band edge (R119). -/
def bandEdge (prev cur : View) : Bool :=
  decide (prev.band ≠ cur.band) || decide (prev.generation ≠ cur.generation)

/-- Whether a class's policy allows a band (R110). -/
def ClassPolicy.allows (p : ClassPolicy) (b : Band) : Bool := p.allowedBands.getLsbD b.val

/-- Whether an account may select a group (R149). -/
def Account.permits (a : Account) (g : GroupNo) : Bool := a.permitted.getLsbD g.val

/-- The number of permitted groups (R94). -/
def Account.permittedCount (a : Account) : Nat := ((List.range 6).filter (fun i => a.permitted.getLsbD i)).length

/-- The low 7 bits of a character (00_scope.md, Characters). -/
def low7 (c : Byte) : Nat := c.toNat % 128

/-- Whether a character escapes under the escape key and mask (R63). -/
def escapes (p : LineParams) (c : Byte) : Bool :=
  decide (low7 c &&& p.escapeMask = p.escapeKey &&& p.escapeMask)

/-- Whether a port is in service (R145). -/
def PortState.inService (p : PortState) : Bool := decide (p ≠ .outOfService)

/-- The ATTENTION output (R203): asserted while the set holds at least one item. -/
def Attention.asserted (a : Attention) : Bool :=
  a.hold.toList.any id || a.portFault.toList.any Option.isSome || !a.accounts.isEmpty || a.failoverSpent.toList.any id
    || a.notes.toList.any (fun n => decide (n ≠ 0))

/-- The command offered on the line scanner bus (R52). -/
def State.lineCommand (s : State) : Option LineCmd := s.lc.bus.head?

/-- The command offered on the host port bus (R147). -/
def State.portCommand (s : State) : Option PortCmd := s.pa.bus.head?

end Sys2Proof.Machine
end

