-- ==== Sys2Proof/Machine/Ops.lean ====
section
/-! DEFINITION. Named operations over the records: reading and writing them, messages and characters of a line (R66 to R71),
release (R58), and raising and removing attention items (R203). -/
namespace Sys2Proof.Machine

/-! ## Reading and writing records -/

/-- Every line number in ascending order. -/
def allLines : List LineNo := List.finRange 96

/-- Every port number in ascending order. -/
def allPorts : List PortNo := List.finRange 64

/-- Every entry number in ascending order. -/
def allEntries : List EntryNo := List.finRange 112

/-- Every group in ascending order. -/
def allGroups : List GroupNo := List.finRange 6

/-- Every watch number in ascending order. -/
def allWatches : List WatchNo := List.finRange 4

/-- A line record. -/
def LineCtl.line (c : LineCtl) (l : LineNo) : LineRec := c.lines.get l

/-- Replace a line record. -/
def LineCtl.setLine (c : LineCtl) (l : LineNo) (r : LineRec) : LineCtl := { c with lines := c.lines.set l r }

/-- Change a line record. -/
def LineCtl.modLine (c : LineCtl) (l : LineNo) (f : LineRec → LineRec) : LineCtl := c.setLine l (f (c.line l))

/-- Issue a command to the line scanner bus, behind those issued before it (R52). -/
def LineCtl.issue (c : LineCtl) (cmd : LineCmd) : LineCtl := { c with bus := c.bus ++ [cmd] }

/-- A line record of the machine. -/
def State.line (s : State) (l : LineNo) : LineRec := s.lc.line l

/-- Act on the Line Controller. -/
def State.onLines (s : State) (f : LineCtl → LineCtl) : State := { s with lc := f s.lc }

/-- Change a line record of the machine. -/
def State.modLine (s : State) (l : LineNo) (f : LineRec → LineRec) : State := s.onLines (fun c => c.modLine l f)

/-- A port record. -/
def State.port (s : State) (p : PortNo) : PortRec := s.pa.ports.get p

/-- Change a port record. -/
def State.modPort (s : State) (p : PortNo) (f : PortRec → PortRec) : State :=
  { s with pa := { s.pa with ports := s.pa.ports.set p (f (s.port p)) } }

/-- Issue a command to the host port bus, behind those issued before it (R147). -/
def State.issuePort (s : State) (cmd : PortCmd) : State := { s with pa := { s.pa with bus := s.pa.bus ++ [cmd] } }

/-- A group record. -/
def State.group (s : State) (g : GroupNo) : GroupRec := s.pa.groups.get g

/-- Change a group record. -/
def State.modGroup (s : State) (g : GroupNo) (f : GroupRec → GroupRec) : State :=
  { s with pa := { s.pa with groups := s.pa.groups.set g (f (s.group g)) } }

/-- An entry of the Open Account Table, absent where it is FREE. -/
def State.entry (s : State) (e : EntryNo) : Option OatEntry := s.oat.entries.get e

/-- Replace an entry. -/
def State.setEntry (s : State) (e : EntryNo) (x : Option OatEntry) : State :=
  { s with oat := { s.oat with entries := s.oat.entries.set e x } }

/-- Change an entry that is not FREE. -/
def State.modEntry (s : State) (e : EntryNo) (f : OatEntry → OatEntry) : State := s.setEntry e ((s.entry e).map f)

/-- Change a watch. -/
def State.modWatch (s : State) (w : WatchNo) (f : Watch → Watch) : State :=
  { s with watches := s.watches.set w (f (s.watches.get w)) }

/-- Act on the attention set. -/
def State.onAttention (s : State) (f : Attention → Attention) : State := { s with attn := f s.attn }

/-- A class policy of ACTIVE (R120). -/
def State.policy (s : State) (c : ClassNo) : ClassPolicy := s.cal.active.policies.get c

/-- The open account entry a line references. -/
def State.lineEntry (s : State) (l : LineNo) : Option OatEntry :=
  match (s.line l).entryRef with
  | none => none
  | some e => s.entry e

/-- The line's class: the one its entry holds (R49). A line that references no entry has none; 0 then stands for it, in
states no run reaches (log entry 26). -/
def State.lineClass (s : State) (l : LineNo) : ClassNo :=
  match s.lineEntry l with
  | none => 0
  | some e => e.acct.cls

/-- The allotment of the line's entry, 0 where it references none. -/
def State.lineAllotment (s : State) (l : LineNo) : Nat :=
  match s.lineEntry l with
  | none => 0
  | some e => e.acct.allotment

/-- The entry that holds an account number; its account is then open (R5). -/
def State.findOpen (s : State) (account : Nat) : Option EntryNo :=
  allEntries.find? (fun e => match s.entry e with
    | none => false
    | some x => decide (x.account = account))

/-- The lowest-numbered FREE entry (R30). -/
def State.freeEntry (s : State) : Option EntryNo := allEntries.find? (fun e => (s.entry e).isNone)

/-- The sessions of the account of an entry (R133). -/
def State.sessions (s : State) (e : EntryNo) : List LineNo :=
  allLines.filter (fun l => (s.line l).phase.isAdmitted && decide ((s.line l).entryRef = some e))

/-! ## Characters and messages of a line -/

/-- Send one character to a line: the flag is set when the TX_CHAR is issued (R52, R69). -/
def LineCtl.transmit (c : LineCtl) (l : LineNo) (ch : Byte) : LineCtl :=
  (c.modLine l (fun r => { r with txBusy := true })).issue (.txChar l ch)

/-- The decimal digits of a number as characters. -/
def decimal (n : Nat) : List Byte := (Nat.toDigits 10 n).map (fun c => BitVec.ofNat 8 c.toNat)

/-- Replace the first "#" of a text by a number in decimal (R67). A character is a "#" on all 8 bits, 23 hex and not A3 hex (log
entry 40, DESIGN CHOICE). -/
def expandText : List Byte → Nat → List Byte
  | [], _ => []
  | c :: cs, n => if c = 0x23 then decimal n ++ cs else c :: expandText cs n

/-- Send the next character of the current message if one is left (R69). -/
def LineCtl.sendNext (c : LineCtl) (l : LineNo) : LineCtl :=
  match (c.line l).current with
  | none => c
  | some m =>
    match m.text[m.position]? with
    | none => c
    | some ch => (c.modLine l (fun r => { r with current := some { m with position := m.position + 1 } })).transmit l ch

/-- RELEASE: the command is sent, the messages are removed, and the line rests in GUARD (R58, R59). -/
def LineCtl.release (c : LineCtl) (l : LineNo) : LineCtl :=
  (c.issue (.release l)).modLine l (fun r =>
    { r with phase := .guard, stageTimer := some Config.guardTime, current := none, pending := none })

/-- Make a message current and expand it; with the transmitter free its first character is sent at once. A text of no
characters ends at once (R67, R68). -/
def LineCtl.beginMessage (c : LineCtl) (l : LineNo) (n : MsgNo) (inserted : Nat) : LineCtl :=
  let text := expandText (c.messages.get n) inserted
  if text = [] then c.modLine l (fun r => { r with current := none })
  else
    let c' := c.modLine l (fun r => { r with current := some { number := n, inserted := inserted, text := text, position := 0 } })
    if (c.line l).txBusy then c' else c'.sendNext l

/-- The character in the port-to-line slot is sent if the line is CONNECTED (R62, R69). -/
def LineCtl.sendSlot (c : LineCtl) (l : LineNo) : LineCtl :=
  match (c.line l).phase, (c.line l).portToLine with
  | .admitted .connected, some ch => (c.modLine l (fun r => { r with portToLine := none })).transmit l ch
  | _, _ => c

/-- A message request other than the goodbye (R68). -/
def LineCtl.request (c : LineCtl) (l : LineNo) (n : MsgNo) (inserted : Nat) : LineCtl :=
  match (c.line l).current with
  | none => c.beginMessage l n inserted
  | some _ => c.modLine l (fun r => { r with pending := some { number := n, inserted := inserted } })

/-- The goodbye takes over: the current and pending messages are removed and it becomes current, and a goodbye of no
characters releases the line at once (R58, R70). -/
def LineCtl.beginGoodbye (c : LineCtl) (l : LineNo) (inserted : Nat) : LineCtl :=
  if expandText (c.messages.get 15) inserted = [] then c.release l
  else (c.modLine l (fun r => { r with pending := none })).beginMessage l 15 inserted

/-- What a character boundary sends, the transmitter being free (R69, R70). -/
def LineCtl.boundary (c : LineCtl) (l : LineNo) : LineCtl :=
  let r := c.line l
  match r.phase, r.pending with
  | .closing, some p => c.beginGoodbye l p.inserted
  | _, _ =>
    match r.current with
    | some m =>
      if m.position < m.text.length then c.sendNext l
      else if r.phase = .closing then c.release l
      else
        match r.pending with
        | some p =>
          let c' := (c.modLine l (fun r => { r with current := none, pending := none })).beginMessage l p.number p.inserted
          if (c'.line l).current = none then c'.sendSlot l else c'
        | none => (c.modLine l (fun r => { r with current := none })).sendSlot l
    | none => c.sendSlot l

/-- The goodbye is requested: it stands in the pending place until the next character boundary, which is now if the
transmitter is free (R70). -/
def LineCtl.requestGoodbye (c : LineCtl) (l : LineNo) (credits : Nat) : LineCtl :=
  let c' := c.modLine l (fun r => { r with pending := some { number := 15, inserted := credits } })
  if (c.line l).txBusy then c' else c'.boundary l

/-- An echo: sent if the transmitter is free, dropped and noted otherwise (R71). -/
def LineCtl.echo (c : LineCtl) (l : LineNo) (ch : Byte) : LineCtl :=
  if (c.line l).txBusy then c.modLine l (fun r => { r with echoSuppressed := true }) else c.transmit l ch

/-- TX_DONE (R69): the flag is cleared and, in the phases that speak, the boundary sends what comes next. A TX_DONE with
the flag already clear changes nothing. -/
def LineCtl.txDone (c : LineCtl) (l : LineNo) : LineCtl :=
  if (c.line l).txBusy then
    let c' := c.modLine l (fun r => { r with txBusy := false })
    if (c.line l).phase.speaks then c'.boundary l else c'
  else c

/-- A message request on a line of the machine (R68). -/
def requestMessage (s : State) (l : LineNo) (n : MsgNo) (inserted : Nat) : State :=
  s.onLines (fun c => c.request l n inserted)

/-! ## Attention items (R203) -/

/-- Insert or merge an ACCOUNT item, keeping rising account order. -/
def mergeAccountItem (account : Nat) (cause : BitVec 3) : List AccountItem → List AccountItem
  | [] => [{ account := account, causes := cause }]
  | i :: is =>
    if account = i.account then { i with causes := i.causes ||| cause } :: is
    else if account < i.account then { account := account, causes := cause } :: i :: is
    else i :: mergeAccountItem account cause is

/-- Raise an ACCOUNT item with one cause: it merges into a held item, or is dropped and sets the overflow flag when 16 are
held already. -/
def Attention.raiseAccount (a : Attention) (account : Nat) (cause : BitVec 3) : Attention :=
  if a.accounts.any (fun i => decide (i.account = account)) || decide (a.accounts.length < Config.maxAccountItems) then
    { a with accounts := mergeAccountItem account cause a.accounts }
  else { a with overflow := true }

/-- The cause LOCKED. -/
def causeLocked : BitVec 3 := 1

/-- The cause STORE_FAULT. -/
def causeStoreFault : BitVec 3 := 2

/-- The cause WRITEBACK_FAILED. -/
def causeWriteBackFailed : BitVec 3 := 4

/-- Raise an ACCOUNT item. -/
def raiseAccount (s : State) (account : Nat) (cause : BitVec 3) : State := s.onAttention (·.raiseAccount account cause)

/-- Raise a PORT_FAULT item; a held one takes the new cause. -/
def raisePortFault (s : State) (p : PortNo) (cause : FaultCause) : State :=
  s.onAttention (fun a => { a with portFault := a.portFault.set p (some cause) })

/-- Raise the HOLD item of a line. -/
def raiseHold (s : State) (l : LineNo) : State := s.onAttention (fun a => { a with hold := a.hold.set l true })

/-- Remove the HOLD item of a line if it has not been taken (R97). -/
def dropHold (s : State) (l : LineNo) : State := s.onAttention (fun a => { a with hold := a.hold.set l false })

/-- Raise a FAILOVER_SPENT item. -/
def raiseFailoverSpent (s : State) (g : GroupNo) : State :=
  s.onAttention (fun a => { a with failoverSpent := a.failoverSpent.set g true })

/-- Raise a NOTE item for a line; the watch number joins the set of a held one. -/
def raiseNote (s : State) (l : LineNo) (w : WatchNo) : State :=
  s.onAttention (fun a => { a with notes := a.notes.set l (a.notes.get l ||| (1 <<< w.val)) })

/-- The counts-uncertain flag and the STORE_FAULT item of the account an operation names, if it names one (R4). -/
def storeFault (s : State) (account : Option Nat) : State :=
  let s' : State := { s with ctl := { s.ctl with uncertain := true } }
  match account with
  | none => s'
  | some n => raiseAccount s' n causeStoreFault

/-- A watch that matched: the hit is counted (R103, R190). -/
def hitWatch (s : State) (w : WatchNo) (l : LineNo) : State :=
  s.modWatch w (fun x => { x with hits := satSucc 255 x.hits, lastHit := some l })

/-- Examine the watches for an event of a kind, in watch-number order; `held` is set for a CREDENTIALS_OK result, for which
a HOLD watch raises no NOTE item (R103, R190). -/
def examineWatches (s : State) (k : WatchKind) (account : Nat) (l : LineNo) (held : Bool) : State :=
  allWatches.foldl (fun s w =>
    let x := s.watches.get w
    if x.matchesEvent k account then
      let s' := hitWatch s w l
      if held && decide (x.action = .hold) then s' else raiseNote s' l w
    else s) s

end Sys2Proof.Machine
end

