-- ==== Sys2Proof/Machine/Table.lean ====
section
/-! DEFINITION. Operations of the Open Account Table and the Meter's postings (chapters 2 and 6). -/
namespace Sys2Proof.Machine

/-! ## The write-back list (R36) -/

/-- Whether an entry's write-back is in progress (R37). -/
def State.writingBack (s : State) (e : EntryNo) : Bool :=
  match s.ctl.inProgress with
  | some (.writeBack x _ _ _) => decide (x = e)
  | some (.signOn _) => false
  | some (.supervisor _) => false
  | some (.restart _) => false
  | none => false

/-- The write-back queued mark: set exactly while the entry stands in the list (R36). -/
def State.queued (s : State) (e : EntryNo) : Bool := s.oat.writeBackList.contains e

/-- Queue an entry for write-back (R36): nothing if it is queued already; a STUCK entry becomes CLOSING. -/
def queueEntry (s : State) (e : EntryNo) : State :=
  if s.queued e then s
  else
    let s' : State := { s with oat := { s.oat with writeBackList := s.oat.writeBackList ++ [e] } }
    s'.modEntry e (fun x => { x with state := if x.state = .stuck then .closing else x.state })

/-- Queue every dirty and every STUCK entry, in entry-number order (R40, R41). -/
def flushEntries (s : State) : State :=
  allEntries.foldl (fun s e =>
    match s.entry e with
    | none => s
    | some x => if x.dirty || decide (x.state = .stuck) then queueEntry s e else s) s

/-- Free an entry; it leaves the write-back list if it stands there (R36, R38). -/
def freeEntry (s : State) (e : EntryNo) : State :=
  let s' := s.setEntry e none
  { s' with oat := { s'.oat with writeBackList := s'.oat.writeBackList.filter (fun x => decide (x ≠ e)) } }

/-- A session leaves an entry (R32): at count 0 the entry becomes CLOSING and is queued unless its own write-back is in
progress. -/
def leaveEntry (s : State) (e : EntryNo) : State :=
  match s.entry e with
  | none => s
  | some x =>
    if x.count ≤ 1 then
      let s' := s.setEntry e (some { x with count := 0, state := .closing })
      if s.writingBack e then s' else queueEntry s' e
    else s.setEntry e (some { x with count := x.count - 1 })

/-! ## Posting (R129) -/

/-- The total of a category raised by 1 up to its ceiling. -/
def Account.countCredit (a : Account) (c : Category) : Account :=
  match c with
  | .band b => { a with bandTotals := a.bandTotals.set b (satSucc max24 (a.bandTotals.get b)) }
  | .wait => { a with waitTotal := satSucc max24 a.waitTotal }

/-- One credit debited from an account's copies: allotment first, then overdraft up to its ceiling, and the total of its
category (R129). -/
def Account.debit (a : Account) (c : Category) : Account :=
  let a' := a.countCredit c
  if 0 < a.allotment then { a' with allotment := a.allotment - 1 }
  else { a' with overdraft := satSucc 65535 a.overdraft }

/-- One credit posted to an entry for a line (R129). -/
def postCredit (s : State) (e : EntryNo) (l : LineNo) (c : Category) : State :=
  (s.modEntry e (fun x => { x with acct := x.acct.debit c, dirty := true })).modLine l
    (fun r => { r with charged := satSucc max24 r.charged })

/-- A number of credits posted one after another (R129). -/
def postCredits (s : State) (e : EntryNo) (l : LineNo) (c : Category) : Nat → State
  | 0 => s
  | n + 1 => postCredits (postCredit s e l c) e l c n

/-- How a stage is charged (R124): its category, or none for MOVING. -/
def stageCategory (st : AdmittedStage) (v : View) : Option Category :=
  match st with
  | .selecting => some .wait
  | .waiting => some .wait
  | .calling => some .wait
  | .connected => some (.band v.band)
  | .escaped => some (.band v.band)
  | .moving => none

/-- Whether the second of a stage is a connected second (R124). -/
def stageConnected (st : AdmittedStage) : Bool :=
  match st with
  | .connected => true
  | .escaped => true
  | .selecting => false
  | .waiting => false
  | .calling => false
  | .moving => false

/-- The rate of a charged second under a view (R127). -/
def View.rate (v : View) (c : Category) (cls : ClassNo) : Nat :=
  match c with
  | .band _ => v.bandRates.get cls
  | .wait => v.waitRates.get cls

/-- The second is counted (R125). -/
def countSecond (s : State) (l : LineNo) (e : EntryNo) (st : AdmittedStage) : State :=
  let s1 := s.modLine l (fun r => { r with admittedSeconds := satSucc max24 r.admittedSeconds })
  if stageConnected st then
    (s1.modLine l (fun r => { r with connectedSeconds := satSucc max24 r.connectedSeconds })).modEntry e
      (fun x => { x with acct := { x.acct with connectSeconds := satSucc max24 x.acct.connectSeconds }, dirty := true })
  else s1

/-- A charged second in a category (R127, R128). -/
def chargeCategory (s : State) (v : View) (l : LineNo) (e : EntryNo) (c : Category) : State :=
  let r := s.line l
  let sum := r.residue + v.rate c (s.lineClass l)
  postCredits (s.modLine l (fun r => { r with residue := sum % Config.creditUnit, lastCategory := some c })) e l c
    (sum / Config.creditUnit)

/-- One second of a session counted and, when its grace is used up, charged, by the stage it held (R124 to R128). -/
def chargeSecond (s : State) (v : View) (l : LineNo) (e : EntryNo) (st : AdmittedStage) : State :=
  let s1 := countSecond s l e st
  if 0 < (s.line l).grace then s1.modLine l (fun r => { r with grace := r.grace - 1 })
  else
    match stageCategory st v with
    | none => s1
    | some c => chargeCategory s1 v l e c

/-! ## Changes of credit state (R133 to R135) -/

/-- The low-balance warning (R134). -/
def warnLow (s : State) (e : EntryNo) : State :=
  (s.sessions e).foldl (fun s l =>
    if (s.line l).lowWarned then s
    else
      (requestMessage s l 10 (s.lineAllotment l)).modLine l (fun r => { r with lowWarned := true })) s

/-- Every exhaustion countdown of the sessions of an entry is cancelled (R133). -/
def cancelExhaustion (s : State) (e : EntryNo) : State :=
  (s.sessions e).foldl (fun s l => s.modLine l (fun r => { r with exhaustion := none })) s

/-- Exhaustion begins (R135). A countdown loaded with 0 expires at once: `endNow` then ends the session. -/
def beginExhaustion (endNow : State → LineNo → State) (s : State) (e : EntryNo) : State :=
  (s.sessions e).foldl (fun s l =>
    match (s.line l).exhaustion with
    | some _ => s
    | none =>
      let grace := (s.policy (s.lineClass l)).exhaustionGrace
      let s' := requestMessage (s.modLine l (fun r => { r with exhaustion := some grace })) l 11 grace
      if grace = 0 then endNow s' l else s') s

/-- The Meter's action on a change of an entry's credit state from the state it had (R133). -/
def creditAction (endNow : State → LineNo → State) (s : State) (e : EntryNo) (old : CreditState) : State :=
  match s.entry e with
  | none => s
  | some x =>
    match old, creditState x.acct with
    | .normal, .low => warnLow s e
    | .normal, .exhausted => beginExhaustion endNow s e
    | .low, .exhausted => beginExhaustion endNow s e
    | .exhausted, .normal => cancelExhaustion s e
    | .exhausted, .low => warnLow (cancelExhaustion s e) e
    | .low, .normal => s
    | .normal, .normal => s
    | .low, .low => s
    | .exhausted, .exhausted => s

/-- The credit state of an entry now; NORMAL stands for a FREE one, which has none. -/
def State.creditOf (s : State) (e : EntryNo) : CreditState :=
  match s.entry e with
  | none => .normal
  | some x => creditState x.acct

end Sys2Proof.Machine
end

