-- ==== Sys2Proof/Machine/Ports.lean ====
section
/-! DEFINITION. Operations of the Port Allocator: calling a port, the wait queues, releasing a port, and the holding slots
(chapters 7 and 8). -/
namespace Sys2Proof.Machine

/-! ## Finding ports -/

/-- Whether a port of a group has a role and a state. -/
def State.portIs (s : State) (g : GroupNo) (role : PortRole) (state : PortState) (p : PortNo) : Bool :=
  decide ((s.port p).group = some g) && decide ((s.port p).role = role) && decide ((s.port p).state = state)

/-- The lowest-numbered FREE port of a role in a group. -/
def State.freePort (s : State) (g : GroupNo) (role : PortRole) : Option PortNo :=
  allPorts.find? (s.portIs g role .free)

/-- Whether a group is available for selection: an ORDINARY port of it is in service (R145). -/
def State.groupAvailable (s : State) (g : GroupNo) : Bool :=
  allPorts.any (fun p => decide ((s.port p).group = some g) && decide ((s.port p).role = .ordinary)
    && (s.port p).state.inService)

/-! ## Holding slots -/

/-- The host port bus when a line gives up its line-to-port character: the command on the bus is completed, one that still
waits is not offered (R58, R160). -/
def dropSlotCommands (l : LineNo) : List PortCmd → List PortCmd
  | [] => []
  | h :: t =>
    (match h with
      | .txChar p ch (some k) => .txChar p ch (if k = l then none else some k)
      | .txChar p ch none => .txChar p ch none
      | .call p k a c => .call p k a c
      | .hangUp p => .hangUp p)
    :: t.filter (fun c => match c with
      | .txChar _ _ (some k) => decide (k ≠ l)
      | .txChar _ _ none => true
      | .call _ _ _ _ => true
      | .hangUp _ => true)

/-- Both holding slots of a line are emptied and their characters discarded (R58, R171). -/
def emptySlots (s : State) (l : LineNo) : State :=
  let s' := s.modLine l (fun r => { r with lineToPort := none, portToLine := none })
  { s' with pa := { s'.pa with bus := dropSlotCommands l s'.pa.bus } }

/-! ## Calling (R150) -/

/-- The port is offered the line: both name each other, the call timer is loaded and a CALL is issued. The line's stage is
CALLING, or MOVING for a move (R150, R173). -/
def offerPort (s : State) (p : PortNo) (l : LineNo) (st : AdmittedStage) : State :=
  let s1 := s.modPort p (fun x => { x with state := .calling, line := some l, callTimer := some s.lc.params.callLimit })
  let s2 := s1.modLine l (fun r => { r with phase := .admitted st, port := some p, stageTimer := none })
  s2.issuePort (.call p l ((s.line l).account.getD 0) (s.lineClass l))

/-- Call a port for a line (R150). -/
def callPort (s : State) (p : PortNo) (l : LineNo) : State := offerPort s p l .calling

/-! ## The wait queue (R153, R154) -/

/-- Remove a line's place from a group's queue; those behind move up. -/
def removePlace (s : State) (g : GroupNo) (l : LineNo) : State :=
  s.modGroup g (fun x => { x with queue := x.queue.filter (fun q => decide (q.line ≠ l)) })

/-- Insert directly behind the last place of priority p or higher (R154, join). -/
def insertJoin (q : Place) (queue : List Place) : List Place :=
  let behind := (queue.reverse.takeWhile (fun x => decide (q.priority < x.priority))).reverse
  queue.take (queue.length - behind.length) ++ q :: behind

/-- Insert directly ahead of the first place of priority p or lower (R154, rejoin). -/
def insertRejoin (q : Place) (queue : List Place) : List Place :=
  queue.takeWhile (fun x => decide (x.priority < q.priority)) ++ q ::
    queue.dropWhile (fun x => decide (x.priority < q.priority))

/-- The position of a line in a queue: 1 plus the places ahead of it (R153). -/
def positionOf (l : LineNo) (queue : List Place) : Nat := (queue.takeWhile (fun x => decide (x.line ≠ l))).length + 1

/-- The place of a line takes an announced position. -/
def announce (l : LineNo) (n : Nat) (queue : List Place) : List Place :=
  queue.map (fun x => if x.line = l then { x with announced := n } else x)

/-- A join that raises the queue's length to the threshold counts in EDGE mode (R166). -/
def countEdge (x : GroupRec) : GroupRec :=
  if x.congestionMode = .edge ∧ x.queue.length = x.congestionThreshold then
    { x with congestionCount := satSucc max24 x.congestionCount }
  else x

/-- A line takes a place in a group's queue and waits: the stage, the wait limit and message 5 (R154). -/
def waitInQueue (s : State) (g : GroupNo) (l : LineNo) (insert : Place → List Place → List Place) : State :=
  let place : Place := { line := l, priority := (s.policy (s.lineClass l)).queuePriority, announced := 0 }
  let queue := insert place (s.group g).queue
  let position := positionOf l queue
  let s1 := s.modGroup g (fun x => countEdge { x with queue := announce l position queue })
  let s2 := s1.modLine l (fun r =>
    { r with
      phase := .admitted .waiting, port := none,
      stageTimer := if (s.group g).waitLimit = 0 then none else some ((s.group g).waitLimit * 60) })
  requestMessage s2 l 5 position

/-- An ORDINARY port that is FREE is handed to the head of its group's queue (R157). -/
def serveQueue (s : State) (p : PortNo) : State :=
  match (s.port p).group with
  | none => s
  | some g =>
    if (s.port p).role = .ordinary ∧ (s.port p).state = .free then
      match (s.group g).queue with
      | [] => s
      | q :: rest => callPort (s.modGroup g (fun x => { x with queue := rest })) p q.line
    else s

/-- A port takes the state its host ready flag gives: FREE, serving its queue, or NOT_READY (R161, R163, R164). -/
def portByReady (s : State) (p : PortNo) : State :=
  if (s.port p).hostReady then serveQueue (s.modPort p (fun x => { x with state := .free })) p
  else s.modPort p (fun x => { x with state := .notReady })

/-- HANG_UP is sent to a port, and it gives up its line and its call timer. -/
def hangUp (s : State) (p : PortNo) : State :=
  (s.modPort p (fun x => { x with line := none, callTimer := none })).issuePort (.hangUp p)

/-- Settlement releases the port a line names (R161, R186); `out` is set when PORT_SERVICE out for this port ended the
session. -/
def releasePort (s : State) (p : PortNo) (l : LineNo) (out : Bool) : State :=
  let s' := (hangUp s p).modLine l (fun r => { r with port := none })
  if out then s'.modPort p (fun x => { x with state := .outOfService }) else portByReady s' p

/-- What every entry to SELECTING does (R148). -/
def enterSelecting (s : State) (l : LineNo) : State :=
  s.modLine l (fun r =>
    { r with phase := .admitted .selecting, stageTimer := some s.lc.params.selectionLimit, portFaults := 0, port := none })

end Sys2Proof.Machine
end

