-- ==== Sys2Proof/Machine/Settlement.lean ====
section
/-! DEFINITION. Settlement and the entry to CLOSING (chapter 9), with the closing of the meter (R132). -/
namespace Sys2Proof.Machine

/-- The second that a session's settlement has to count and charge first: the view it is charged under, where the session
ends at a second event at which the line's step has not been taken (R123, R132), and nothing otherwise. -/
abbrev EndedSecond := LineNo → Option View

/-- An end between second events, or after the line's step: no part second is charged (R51, R123). -/
def noSecond : EndedSecond := fun _ => none

/-- The closing of the meter (R132). `act` is what the Meter does on a change of the entry's credit state. -/
def closeMeter (act : State → EntryNo → CreditState → State) (s : State) (l : LineNo) (e : EntryNo) (st : AdmittedStage)
    (ended : Option View) : State :=
  let s1 := match ended with
    | none => s
    | some v => act (chargeSecond s v l e st) e (s.creditOf e)
  let s2 :=
    if Config.roundUp ≤ (s1.line l).residue then
      match (s1.line l).lastCategory with
      | none => s1
      | some c => act (postCredit s1 e l c) e (s1.creditOf e)
    else s1
  s2.modLine l (fun r => { r with residue := 0 })

/-- Parts 3 to 6 of settlement, for a line that was ADMITTED: the meter is closed, the session leaves its entry and the
SESSION_END watches are examined (R188 to R190). -/
def settleSession (act : State → EntryNo → CreditState → State) (s : State) (l : LineNo) (st : AdmittedStage)
    (ended : Option View) : State :=
  let s1 := match (s.line l).entryRef with
    | none => s
    | some e => leaveEntry ((closeMeter act s l e st ended).modLine l (fun r => { r with entryRef := none })) e
  match (s.line l).account with
  | none => s1
  | some n => examineWatches s1 .sessionEnd n l false

/-- The closing summary of a line (R191); a call that was never ADMITTED records no seconds and no credits. -/
def writeSummary (s : State) (l : LineNo) (cause : EndCause) (admitted : Bool) : State :=
  s.modLine l (fun r =>
    { r with
      summary := some
        { account := r.account, cause := cause,
          admittedSeconds := if admitted then r.admittedSeconds else 0,
          connectedSeconds := if admitted then r.connectedSeconds else 0,
          credits := if admitted then r.charged else 0,
          minute := s.cal.view.minute } })

/-- A sign-on operation of a line that still waits in the sign-on queue is withdrawn (R10). -/
def withdraw (s : State) (l : LineNo) : State :=
  { s with ctl := { s.ctl with signOnQueue := s.ctl.signOnQueue.filter (fun o => decide (o.line ≠ l)) } }

/-- What settlement drops of the line's waiting and counting state (R192); it leaves the line in CLOSING, naming no port and
referencing no entry (R185). -/
def dropCounts (s : State) (l : LineNo) : State :=
  (emptySlots (withdraw (dropHold s l) l) l).modLine l (fun r =>
    { r with
      phase := .closing, port := none, entryRef := none, entryBuffer := [], stageTimer := none, holdTimer := none,
      carrierHold := none, idleCount := none,
      exhaustion := none, hours := none, idleWarning := none })

/-- Parts 1 and 2 of settlement (R186, R187): a line that leaves its phase releases the port it names and gives up its queue
place. -/
def settleClaims (s : State) (l : LineNo) (out : Bool) : State :=
  let s0 := s.modLine l (fun r => { r with phase := .closing })
  let s1 := match (s.line l).port with
    | none => s0
    | some p => releasePort s0 p l out
  match (s.line l).phase, (s.line l).selectedGroup with
  | .admitted .waiting, some g => removePlace s1 g l
  | _, _ => s1

/-- What settlement does ahead of the closing summary: the port and the queue place and, for a line that was ADMITTED, parts 3 to 6
(R186 to R190). -/
def settleWork (act : State → EntryNo → CreditState → State) (s : State) (l : LineNo) (out : Bool) (ended : Option View) :
    State :=
  match (s.line l).phase with
  | .admitted st => settleSession act (settleClaims s l out) l st ended
  | _ => settleClaims s l out

/-- Settlement (R185), one whole step. `out` is set when PORT_SERVICE out for the line's port ended the session. -/
def settle (act : State → EntryNo → CreditState → State) (s : State) (l : LineNo) (cause : EndCause) (out : Bool)
    (ended : Option View) : State :=
  dropCounts (writeSummary (settleWork act s l out ended) l cause (s.line l).phase.isAdmitted) l

/-- The life in CLOSING begins (R58): the closing limit, then the goodbye, or RELEASE where carrier is absent. For a call ended in
ANSWERING, R55, R74 and R194 say that carrier is absent; the flag may still stand set from before the ring (R54), and the model
goes by the flag there too (log entry 45, DESIGN CHOICE, unsafe). -/
def enterClosing (s : State) (l : LineNo) (credits : Nat) : State :=
  let s' := s.modLine l (fun r => { r with stageTimer := some Config.closingLimit })
  if (s.line l).carrier then s'.onLines (fun c => c.requestGoodbye l credits) else s'.onLines (fun c => c.release l)

/-- End a call or session with a cause, if the line is in call (R184); anything later finds it in CLOSING or GUARD. -/
def endCallWith (act : State → EntryNo → CreditState → State) (s : State) (l : LineNo) (cause : EndCause) (out : Bool)
    (ended : Option View) : State :=
  if (s.line l).phase.inCall then
    let s' := settle act s l cause out ended
    enterClosing s' l (if (s.line l).phase.isAdmitted then (s'.line l).charged else 0)
  else s

/-- The Meter's action on a change of credit state. A session whose exhaustion countdown is loaded with 0 ends at once
(R135); the credits its closing posts find the entry EXHAUSTED already, so they change no credit state (log entry 24). -/
def meterAction (co : EndedSecond) : State → EntryNo → CreditState → State :=
  creditAction (fun s l => endCallWith (fun s _ _ => s) s l .exhausted false (co l))

/-- End a call or session (R184). -/
def endCall (co : EndedSecond) (s : State) (l : LineNo) (cause : EndCause) (out : Bool) : State :=
  endCallWith (meterAction co) s l cause out (co l)

end Sys2Proof.Machine
end

