-- ==== Sys2Proof/Machine/SignOn.lean ====
section
/-! DEFINITION. Operations of the Sign-On Unit: attempts, hand-over, the hold and the entry stages (chapter 4). -/
namespace Sys2Proof.Machine

/-- The line enters ACCOUNT_ENTRY with an empty buffer (R80). -/
def enterAccountEntry (s : State) (l : LineNo) : State :=
  s.modLine l (fun r => { r with phase := .signon .accountEntry, entryBuffer := [] })

/-- An attempt failed with a reason (R95). Message 1 has no number in the table of R66: 0 stands for it, should WRITE_MESSAGE have
put a "#" in its text (log entry 39, DESIGN CHOICE). -/
def attemptFailed (co : EndedSecond) (s : State) (l : LineNo) (reason : Nat) : State :=
  let s' := requestMessage (s.modLine l (fun r => { r with attemptsUsed := r.attemptsUsed + 1 })) l 3 reason
  if (s.line l).attemptsUsed + 1 < s.lc.params.attemptsPerCall then requestMessage (enterAccountEntry s' l) l 1 0
  else endCall co s' l .signonFailed false

/-- A line leaves HELD: the hold timer and the HOLD item go (R97). -/
def leaveHeld (s : State) (l : LineNo) : State := (dropHold s l).modLine l (fun r => { r with holdTimer := none })

/-- A sign-on operation is handed over (R86): queued while the store is ATTACHED, failed at once with reason 5
otherwise (R10). -/
def handOver (s : State) (l : LineNo) (st : SignOnStage) (account : Nat) (kind : SignOnKind) : State :=
  let s1 := s.modLine l (fun r => { r with phase := .signon st, attempt := r.attempt + 1 })
  if s.ctl.attachment = .attached then
    let op : SignOnOp := { line := l, attempt := (s.line l).attempt + 1, kind := kind, account := account }
    { s1 with ctl := { s1.ctl with signOnQueue := s1.ctl.signOnQueue ++ [op] } }
  else attemptFailed noSecond s1 l 5

/-- The number typed in ACCOUNT_ENTRY, leading zeros included in the digits (R82). -/
def decimalValue (digits : List Byte) : Nat := digits.foldl (fun n c => n * 10 + (c.toNat - 48)) 0

/-- A carriage return in ACCOUNT_ENTRY (R82). Messages 1 and 2 have no number: 0 stands for it (log entry 39, DESIGN CHOICE). -/
def endAccountEntry (s : State) (l : LineNo) : State :=
  let buffer := (s.line l).entryBuffer
  if buffer = [] then requestMessage s l 1 0
  else if decimalValue buffer = 0 then attemptFailed noSecond s l 1
  else
    requestMessage (s.modLine l (fun r =>
      { r with account := some (decimalValue buffer), entryBuffer := [], phase := .signon .passwordEntry })) l 2 0

/-- Whether a character is a backspace (R81, R83). -/
def isBackspace (c : Byte) : Bool := decide (low7 c = 8) || decide (low7 c = 127)

/-- A character in ACCOUNT_ENTRY (R81). -/
def accountChar (s : State) (l : LineNo) (c : Byte) : State :=
  let buffer := (s.line l).entryBuffer
  if low7 c = 13 then endAccountEntry s l
  else if 48 ≤ low7 c ∧ low7 c ≤ 57 then
    if buffer.length < 7 then
      (s.modLine l (fun r => { r with entryBuffer := buffer ++ [BitVec.ofNat 8 (low7 c)] })).onLines (fun x => x.echo l c)
    else s
  else if isBackspace c then
    if buffer = [] then s
    else (s.modLine l (fun r => { r with entryBuffer := buffer.dropLast })).onLines (fun x => x.echo l c)
  else s

/-- A carriage return in PASSWORD_ENTRY (R83). The hold marker is fixed here (R86). -/
def endPasswordEntry (s : State) (l : LineNo) : State :=
  let buffer := (s.line l).entryBuffer
  let s1 := s.modLine l (fun r => { r with entryBuffer := [] })
  if buffer.length < 4 then attemptFailed noSecond s1 l 1
  else
    let account := (s.line l).account.getD 0
    handOver s1 l .checking account
      (.verify (passwordFold buffer) (holdsSignOn s.watches account && !(s.line l).verdictGiven))

/-- A character in PASSWORD_ENTRY (R83); nothing is echoed. -/
def passwordEntryChar (s : State) (l : LineNo) (c : Byte) : State :=
  let buffer := (s.line l).entryBuffer
  if low7 c = 13 then endPasswordEntry s l
  else if 33 ≤ low7 c ∧ low7 c ≤ 126 then
    if buffer.length < 8 then s.modLine l (fun r => { r with entryBuffer := buffer ++ [BitVec.ofNat 8 (low7 c)] }) else s
  else if isBackspace c then s.modLine l (fun r => { r with entryBuffer := buffer.dropLast })
  else s

/-- A character from a line in SIGNON (R81, R83, R84). -/
def signOnChar (s : State) (l : LineNo) (st : SignOnStage) (c : Byte) : State :=
  match st with
  | .accountEntry => accountChar s l c
  | .passwordEntry => passwordEntryChar s l c
  | .checking => s
  | .held => s
  | .admitting => s

/-- A break abandons an entry without counting an attempt (R84). Message 1 has no number: 0 stands for it (log entry 39, DESIGN
CHOICE). -/
def signOnBreak (s : State) (l : LineNo) (st : SignOnStage) : State :=
  match st with
  | .accountEntry => requestMessage (enterAccountEntry s l) l 1 0
  | .passwordEntry => requestMessage (enterAccountEntry s l) l 1 0
  | .checking => s
  | .held => s
  | .admitting => s

/-- The result of a sign-on operation (R91): a failure or refusal with its reason, good credentials with the hold marker, or
an admission with its entry and grace. -/
inductive SignOnResult where
  | failed (reason : Nat)
  | credentialsOk
  | admission (entry : EntryNo) (grace : Nat)
  deriving DecidableEq, Repr

/-- The watch kind a VERIFY result counts as (R103). -/
def resultKind (r : SignOnResult) : Option WatchKind :=
  match r with
  | .admission _ _ => some .signonOk
  | .credentialsOk => some .signonOk
  | .failed n => if n = 1 then some .signonFail else none

/-- A result is current when its line still waits for it (R93). -/
def isCurrent (s : State) (op : SignOnOp) : Bool :=
  decide ((s.line op.line).attempt = op.attempt) &&
    match op.kind with
    | .verify _ _ => decide ((s.line op.line).phase = .signon .checking)
    | .admitOp => decide ((s.line op.line).phase = .signon .admitting)

/-- A current admission (R94). -/
def admitLine (s : State) (l : LineNo) (e : EntryNo) (grace : Nat) : State :=
  let s1 := enterSelecting (s.modLine l (fun r => { r with entryRef := some e, grace := grace, residue := 0 })) l
  requestMessage s1 l 4 (match s.entry e with
    | none => 0
    | some x => x.acct.permittedCount)

/-- A current CREDENTIALS_OK (R96). -/
def enterHeld (s : State) (l : LineNo) : State :=
  (raiseHold s l).modLine l (fun r => { r with phase := .signon .held, holdTimer := some s.lc.params.holdLimit })

/-- The watches examined at a current VERIFY result (R103). -/
def watchResult (s : State) (op : SignOnOp) (r : SignOnResult) : State :=
  match op.kind, resultKind r with
  | .verify _ _, some k => examineWatches s k op.account op.line (decide (r = .credentialsOk))
  | _, _ => s

/-- The Sign-On Unit takes a result (R93 to R96, R101). -/
def takeResult (s : State) (op : SignOnOp) (r : SignOnResult) : State :=
  if isCurrent s op then
    let s' := watchResult s op r
    match r with
    | .failed n => attemptFailed noSecond s' op.line n
    | .credentialsOk => enterHeld s' op.line
    | .admission e grace => admitLine s' op.line e grace
  else
    match r with
    | .admission e _ => leaveEntry s e
    | .failed _ => s
    | .credentialsOk => s

end Sys2Proof.Machine
end

