-- ==== Sys2Proof/Machine/PortCalls.lean ====
section
/-! DEFINITION. Failed calls, port losses, moves and connections (R151, R152, R171 to R178). -/
namespace Sys2Proof.Machine

/-- HANG_UP is sent to a port, which becomes FAULTED with a cause, and a PORT_FAULT item is raised (R152, R171, R178). -/
def faultPort (s : State) (p : PortNo) (cause : FaultCause) : State :=
  raisePortFault ((hangUp s p).modPort p (fun x => { x with state := .faulted, faultCause := some cause })) p cause

/-- HANG_UP is sent to a port, which becomes OUT_OF_SERVICE without a fault (R152, R163). -/
def withdrawPort (s : State) (p : PortNo) : State :=
  (hangUp s p).modPort p (fun x => { x with state := .outOfService })

/-- The line's part of a failed call from SELECTING or the queue (R152): its port faults rise by 1, and it is called on
another port, rejoins its queue, or at the second failure returns to SELECTING with message 8. A line without a selected
group keeps its stage, in states no run reaches (log entry 26). Message 8 has no number: 0 stands for it (log entry 39, DESIGN
CHOICE). -/
def retryCall (s : State) (l : LineNo) : State :=
  let s1 := s.modLine l (fun r => { r with port := none, portFaults := r.portFaults + 1 })
  if (s.line l).portFaults + 1 < 2 then
    match (s.line l).selectedGroup with
    | none => s1
    | some g =>
      match s1.freePort g .ordinary with
      | some q => callPort s1 q l
      | none => waitInQueue s1 g l insertRejoin
  else requestMessage (enterSelecting s1 l) l 8 0

/-- The line's part of a failed call (R152) or a failed move (R178). -/
def callFailed (co : EndedSecond) (s : State) (l : LineNo) : State :=
  if (s.line l).phase = .admitted .moving then
    endCall co (s.modLine l (fun r => { r with port := none })) l .hostLost false
  else retryCall s l

/-- A call or a move fails (R152, R178): with a fault cause the port becomes FAULTED, without one OUT_OF_SERVICE. -/
def failCall (co : EndedSecond) (s : State) (p : PortNo) (cause : Option FaultCause) : State :=
  let s1 := match cause with
    | some c => faultPort s p c
    | none => withdrawPort s p
  match (s.port p).line with
  | none => s1
  | some l => callFailed co s1 l

/-- The spare a lost line may move to (R172): its move count is below 2, the allowance of the group is above 0, and a SPARE
port of the group is FREE. -/
def moveTarget (s : State) (g : GroupNo) (l : LineNo) : Option PortNo :=
  if (s.line l).moveCount < 2 ∧ 0 < (s.group g).failoverAllowance then s.freePort g .spare else none

/-- A move begins on a spare (R173). -/
def beginMove (s : State) (g : GroupNo) (l : LineNo) (spare : PortNo) : State :=
  let s1 := s.modGroup g (fun x => { x with failoverAllowance := x.failoverAllowance - 1 })
  let s2 := if (s.group g).failoverAllowance = 1 then raiseFailoverSpent s1 g else s1
  offerPort (s2.modLine l (fun r => { r with moveCount := r.moveCount + 1 })) spare l .moving

/-- The line's part of a port loss (R171, R172): the port field and the slots go, then a move or the end with HOST_LOST. -/
def lineLosesPort (s : State) (g : Option GroupNo) (l : LineNo) : State :=
  let s1 := emptySlots (s.modLine l (fun r => { r with port := none })) l
  match g.bind (fun g => (moveTarget s1 g l).map (fun q => (g, q))) with
  | some (g, q) => beginMove s1 g l q
  | none => endCall noSecond s1 l .hostLost false

/-- A port loss (R171): HOST_READY_OFF for an IN_USE port. -/
def losePort (s : State) (p : PortNo) : State :=
  let s1 := faultPort s p .readyLost
  match (s.port p).line with
  | none => s1
  | some l => lineLosesPort s1 (s.port p).group l

/-- The connection is made (R151). Message 7 has no number: 0 stands for it (log entry 39, DESIGN CHOICE). -/
def connect (s : State) (p : PortNo) (l : LineNo) : State :=
  let s1 := s.modPort p (fun x => { x with state := .inUse, callTimer := none })
  let s2 := s1.modLine l (fun r => { r with phase := .admitted .connected, portFaults := 0, idleCount := some 0 })
  requestMessage s2 l 7 0

/-- A move completes (R177): the idle count and a paused idle-warning countdown resume. Message 9 has no number: 0 stands for it
(log entry 39, DESIGN CHOICE). -/
def completeMove (s : State) (p : PortNo) (l : LineNo) : State :=
  let s1 := s.modPort p (fun x => { x with state := .inUse, callTimer := none })
  requestMessage (s1.modLine l (fun r => { r with phase := .admitted .connected })) l 9 0

end Sys2Proof.Machine
end

