-- ==== Sys2Proof/Machine/Expiries.lean ====
section
/-! DEFINITION. The expiries of the timers (R51): when one is due, what it does, and the meanings of the expiry commands. -/
namespace Sys2Proof.Machine

/-- The stage timer of a line while it is in a phase; absent otherwise. -/
def stageTimerIn (s : State) (l : LineNo) (p : Phase) : Option Nat :=
  if (s.line l).phase = p then (s.line l).stageTimer else none

/-- The timer an expiry names, in the phase or stage in which it can expire; absent outside it. -/
def timerOf (s : State) (x : Expiry) : Option Nat :=
  match x with
  | .answerLimit l => stageTimerIn s l .answering
  | .signonLimit l =>
    if (s.line l).phase = .signon .accountEntry then (s.line l).stageTimer else stageTimerIn s l (.signon .passwordEntry)
  | .holdTimer l => if (s.line l).phase = .signon .held then (s.line l).holdTimer else none
  | .selectionLimit l => stageTimerIn s l (.admitted .selecting)
  | .waitLimit l => stageTimerIn s l (.admitted .waiting)
  | .escapeLimit l => stageTimerIn s l (.admitted .escaped)
  | .closingLimit l => stageTimerIn s l .closing
  | .guardTime l => stageTimerIn s l .guard
  | .carrierHold l => if (s.line l).phase.inCall then (s.line l).carrierHold else none
  | .idleWarning l => if (s.line l).phase = .admitted .connected then (s.line l).idleWarning else none
  | .exhaustion l => if (s.line l).phase.isAdmitted then (s.line l).exhaustion else none
  | .hours l => if (s.line l).phase.isAdmitted then (s.line l).hours else none
  | .callTimer p => if (s.port p).state = .calling then (s.port p).callTimer else none

/-- A timer has reached 0 and its expiry has not been taken (R51; log entry 4). -/
def expiryDue (s : State) (x : Expiry) : Bool := decide (timerOf s x = some 0)

/-- A line in WAITING gives up its place and enters SELECTING with a message (R156). -/
def leaveQueue (s : State) (l : LineNo) : State :=
  match (s.line l).selectedGroup with
  | none => enterSelecting s l
  | some g => enterSelecting (removePlace s g l) l

/-- An ESCAPED line returns to CONNECTED (R64). -/
def resume (s : State) (l : LineNo) : State :=
  s.modLine l (fun r => { r with phase := .admitted .connected, stageTimer := none, idleCount := some 0 })

/-- The guard time ends (R59). -/
def endGuard (s : State) (l : LineNo) : State :=
  s.modLine l (fun r =>
    { r with
      phase := if r.outOfService then .down else .idle, outOfService := false, stageTimer := none })

/-- What an expiry that is due does. Message 6 has no number: 0 stands for it (log entry 39, DESIGN CHOICE). -/
def expire (co : EndedSecond) (s : State) (x : Expiry) : State :=
  match x with
  | .answerLimit l => endCall co s l .carrierLost false
  | .signonLimit l => endCall co s l .signonFailed false
  | .holdTimer l => attemptFailed co (leaveHeld s l) l 5
  | .selectionLimit l => endCall co s l .noHost false
  | .waitLimit l => requestMessage (leaveQueue s l) l 6 0
  | .escapeLimit l => resume s l
  | .closingLimit l => s.onLines (fun c => c.release l)
  | .guardTime l => endGuard s l
  | .carrierHold l => endCall co s l .carrierLost false
  | .idleWarning l => endCall co s l .idle false
  | .exhaustion l => endCall co s l .exhausted false
  | .hours l => endCall co s l (if (s.line l).exhaustion = some 0 then .exhausted else .hours) false
  | .callTimer p => failCall co s p (some .noAccept)

/-- Take an expiry: nothing if it is not due (log entry 4). -/
def takeExpiry (co : EndedSecond) (s : State) (x : Expiry) : State := if expiryDue s x then expire co s x else s

/-! ## The commands -/

/-- ANSWER_LIMIT_EXPIRY (R55). -/
def execAnswerLimitExpiry (l : LineNo) (s : State) : Host.Outcome State Fault Refusal :=
  .next (takeExpiry noSecond s (.answerLimit l))

/-- SIGNON_LIMIT_EXPIRY (R85). -/
def execSignonLimitExpiry (l : LineNo) (s : State) : Host.Outcome State Fault Refusal :=
  .next (takeExpiry noSecond s (.signonLimit l))

/-- HOLD_TIMER_EXPIRY (R97). -/
def execHoldTimerExpiry (l : LineNo) (s : State) : Host.Outcome State Fault Refusal :=
  .next (takeExpiry noSecond s (.holdTimer l))

/-- SELECTION_LIMIT_EXPIRY (R148). -/
def execSelectionLimitExpiry (l : LineNo) (s : State) : Host.Outcome State Fault Refusal :=
  .next (takeExpiry noSecond s (.selectionLimit l))

/-- WAIT_LIMIT_EXPIRY (R156). -/
def execWaitLimitExpiry (l : LineNo) (s : State) : Host.Outcome State Fault Refusal :=
  .next (takeExpiry noSecond s (.waitLimit l))

/-- ESCAPE_LIMIT_EXPIRY (R64). -/
def execEscapeLimitExpiry (l : LineNo) (s : State) : Host.Outcome State Fault Refusal :=
  .next (takeExpiry noSecond s (.escapeLimit l))

/-- CLOSING_LIMIT_EXPIRY (R58). -/
def execClosingLimitExpiry (l : LineNo) (s : State) : Host.Outcome State Fault Refusal :=
  .next (takeExpiry noSecond s (.closingLimit l))

/-- GUARD_TIME_EXPIRY (R59). -/
def execGuardTimeExpiry (l : LineNo) (s : State) : Host.Outcome State Fault Refusal :=
  .next (takeExpiry noSecond s (.guardTime l))

/-- CARRIER_HOLD_EXPIRY (R57). -/
def execCarrierHoldExpiry (l : LineNo) (s : State) : Host.Outcome State Fault Refusal :=
  .next (takeExpiry noSecond s (.carrierHold l))

/-- IDLE_WARNING_EXPIRY (R65). -/
def execIdleWarningExpiry (l : LineNo) (s : State) : Host.Outcome State Fault Refusal :=
  .next (takeExpiry noSecond s (.idleWarning l))

/-- EXHAUSTION_COUNTDOWN_EXPIRY (R136). -/
def execExhaustionCountdownExpiry (l : LineNo) (s : State) : Host.Outcome State Fault Refusal :=
  .next (takeExpiry noSecond s (.exhaustion l))

/-- HOURS_COUNTDOWN_EXPIRY (R141). -/
def execHoursCountdownExpiry (l : LineNo) (s : State) : Host.Outcome State Fault Refusal :=
  .next (takeExpiry noSecond s (.hours l))

/-- CALL_TIMER_EXPIRY (R152, R178). -/
def execCallTimerExpiry (p : PortNo) (s : State) : Host.Outcome State Fault Refusal :=
  .next (takeExpiry noSecond s (.callTimer p))

end Sys2Proof.Machine
end

