-- ==== Sys2Proof/Machine/LineEvents.lean ====
section
/-! DEFINITION. The events of the line scanner bus and its command handshake (R52 to R64, R69, R149). -/
namespace Sys2Proof.Machine

/-- An event for a line number of 7 bits: numbers 96 to 127 are taken and discarded (R52). -/
def lineEvent (n : Nat) (s : State) (f : State → LineNo → State) : State :=
  match lineNo? n with
  | none => s
  | some l => f s l

/-! ## RING (R53, R54) -/

/-- The number of lines in stage WAITING (R53, R153). -/
def State.waitingCount (s : State) : Nat :=
  (allLines.filter (fun l => decide ((s.line l).phase = .admitted .waiting))).length

/-- The answering condition (R53). -/
def State.answers (s : State) : Bool :=
  s.lc.params.acceptingCalls && (decide (s.lc.params.busyOut = 0) || decide (s.waitingCount < s.lc.params.busyOut))
    && decide (s.ctl.attachment = .attached)

/-- The record prepared for a new call (R54). -/
def answeredLine (answerLimit : Nat) (r : LineRec) : LineRec :=
  { phase := .answering, attempt := r.attempt, attemptsUsed := 0, entryBuffer := [], account := none, entryRef := none,
    selectedGroup := none, port := none, portFaults := 0, moveCount := 0, residue := 0, grace := 0, charged := 0,
    admittedSeconds := 0, connectedSeconds := 0, lastCategory := none, carrier := r.carrier, txBusy := false,
    stageTimer := some answerLimit, holdTimer := none, carrierHold := none, idleCount := none, exhaustion := none,
    hours := none, idleWarning := none, verdictGiven := false, lowWarned := false, echoSuppressed := r.echoSuppressed,
    overrun := r.overrun, outOfService := r.outOfService, lineToPort := none, portToLine := none, current := none,
    pending := none, summary := none }

/-- RING (R53): answered in IDLE when the condition holds, discarded otherwise. -/
def ring (s : State) (l : LineNo) : State :=
  if (s.line l).phase = .idle ∧ s.answers = true then
    s.onLines (fun c => (c.issue (.answer l)).modLine l (answeredLine c.params.answerLimit))
  else s

/-! ## Carrier (R52, R55 to R58) -/

/-- Carrier comes up on an answered line (R55, R80). Messages 0 and 1 have no number in the table of R66: 0 stands for it, should
WRITE_MESSAGE have put a "#" in their text (log entry 39, DESIGN CHOICE). -/
def beginSignOn (s : State) (l : LineNo) : State :=
  let s1 := s.modLine l (fun r =>
    { r with
      phase := .signon .accountEntry, entryBuffer := [], stageTimer := some s.lc.params.signonLimit })
  requestMessage (requestMessage s1 l 0 0) l 1 0

/-- CARRIER_ON: the flag is set, and the phase decides the rest (R52, R55, R57, R58). -/
def carrierOn (s : State) (l : LineNo) : State :=
  let s1 := s.modLine l (fun r => { r with carrier := true })
  match (s.line l).phase with
  | .down => s1.onLines (fun c => c.issue (.release l))
  | .idle => s1.onLines (fun c => c.issue (.release l))
  | .guard => s1.onLines (fun c => c.issue (.release l))
  | .answering => beginSignOn s1 l
  | .signon _ => s1.modLine l (fun r => { r with carrierHold := none })
  | .admitted _ => s1.modLine l (fun r => { r with carrierHold := none })
  | .closing => s1

/-- The carrier hold starts unless it runs already; with a parameter of 0 the call ends at once (R56). -/
def startCarrierHold (s : State) (l : LineNo) : State :=
  match (s.line l).carrierHold with
  | some _ => s
  | none =>
    let s1 := s.modLine l (fun r => { r with carrierHold := some s.lc.params.carrierHold })
    if s.lc.params.carrierHold = 0 then endCall noSecond s1 l .carrierLost false else s1

/-- CARRIER_OFF: the flag is cleared, and the phase decides the rest (R52, R55, R56, R58). -/
def carrierOff (s : State) (l : LineNo) : State :=
  let s1 := s.modLine l (fun r => { r with carrier := false })
  match (s.line l).phase with
  | .down => s1
  | .idle => s1
  | .guard => s1
  | .answering => s1
  | .signon _ => startCarrierHold s1 l
  | .admitted _ => startCarrierHold s1 l
  | .closing => s1.onLines (fun c => c.release l)

/-! ## Selection (R149) -/

/-- Message 4 with the number of permitted groups of the line's entry (R148). -/
def promptSelection (s : State) (l : LineNo) : State :=
  requestMessage s l 4 (match s.lineEntry l with
    | none => 0
    | some x => x.acct.permittedCount)

/-- What a character asks for in SELECTING: a group letter's group, or for a carriage return the default group, which may be
absent; nothing for any other character (R149). -/
def choiceOf (c : Byte) (defaultGroup : Option GroupNo) : Option (Option GroupNo) :=
  if 65 ≤ low7 c ∧ low7 c ≤ 70 then some (groupNo? (low7 c - 64))
  else if 97 ≤ low7 c ∧ low7 c ≤ 102 then some (groupNo? (low7 c - 96))
  else if low7 c = 13 then some defaultGroup
  else none

/-- A choice of a permitted group is judged (R149, cases 2 to 5). Messages 6 and 8 have no number: 0 stands for it (log entry 39,
DESIGN CHOICE). -/
def chooseGroup (s : State) (l : LineNo) (g : GroupNo) : State :=
  if s.groupAvailable g then
    match s.freePort g .ordinary with
    | some p => callPort (s.modLine l (fun r => { r with selectedGroup := some g })) p l
    | none =>
      if (s.group g).queue.length < (s.group g).queueLimit then
        waitInQueue (s.modLine l (fun r => { r with selectedGroup := some g })) g l insertJoin
      else
        (requestMessage s l 6 0).modGroup g (fun x => { x with refusedCount := satSucc max24 x.refusedCount })
  else requestMessage s l 8 0

/-- A character in SELECTING (R149). -/
def selectingChar (s : State) (l : LineNo) (c : Byte) : State :=
  match s.lineEntry l with
  | none => promptSelection s l
  | some x =>
    match choiceOf c x.acct.defaultGroup with
    | none => s
    | some none => promptSelection s l
    | some (some g) => if x.acct.permits g then chooseGroup s l g else promptSelection s l

/-! ## Pass-through and escape (R61, R63, R64) -/

/-- Activity in CONNECTED (R65). -/
def activity (s : State) (l : LineNo) : State :=
  s.modLine l (fun r => { r with idleCount := some 0, idleWarning := none })

/-- The line enters ESCAPED (R63). -/
def enterEscaped (s : State) (l : LineNo) : State :=
  let s1 := (activity s l).modLine l (fun r =>
    { r with phase := .admitted .escaped, portToLine := none, stageTimer := some Config.escapeLimit })
  requestMessage s1 l 14 (s.lineAllotment l)

/-- A character for the line-to-port slot: placed and offered to the port as a TX_CHAR, or dropped (R61). -/
def forwardChar (s : State) (l : LineNo) (c : Byte) : State :=
  match (s.line l).lineToPort with
  | some _ => s.modLine l (fun r => { r with overrun := true })
  | none =>
    let s1 := s.modLine l (fun r => { r with lineToPort := some c })
    match (s.line l).port with
    | none => s1
    | some p => s1.issuePort (.txChar p c (some l))

/-- A character in CONNECTED (R61, R63). -/
def connectedChar (s : State) (l : LineNo) (c : Byte) : State :=
  if escapes s.lc.params c then enterEscaped s l else forwardChar (activity s l) l c

/-- A character in ESCAPED (R64). -/
def escapedChar (s : State) (l : LineNo) (c : Byte) : State :=
  if low7 c = 82 ∨ low7 c = 114 then resume s l
  else if low7 c = 81 ∨ low7 c = 113 then endCall noSecond s l .userQuit false
  else s

/-- A character in ADMITTED, by stage (R60). -/
def admittedChar (s : State) (l : LineNo) (st : AdmittedStage) (c : Byte) : State :=
  match st with
  | .selecting => selectingChar s l c
  | .waiting => s
  | .calling => s
  | .connected => connectedChar s l c
  | .escaped => escapedChar s l c
  | .moving => s

/-- RX_CHAR from a line (R60). -/
def lineRxChar (s : State) (l : LineNo) (c : Byte) : State :=
  match (s.line l).phase with
  | .signon st => signOnChar s l st c
  | .admitted st => admittedChar s l st c
  | .down => s
  | .idle => s
  | .answering => s
  | .closing => s
  | .guard => s

/-- A break in ADMITTED, by stage (R60, R63, R149, R156). -/
def admittedBreak (s : State) (l : LineNo) (st : AdmittedStage) : State :=
  match st with
  | .selecting => promptSelection s l
  | .waiting => promptSelection (leaveQueue s l) l
  | .calling => s
  | .connected => enterEscaped s l
  | .escaped => s
  | .moving => s

/-- RX_BREAK from a line (R60). -/
def rxBreak (s : State) (l : LineNo) : State :=
  match (s.line l).phase with
  | .signon st => signOnBreak s l st
  | .admitted st => admittedBreak s l st
  | .down => s
  | .idle => s
  | .answering => s
  | .closing => s
  | .guard => s

/-- TX_DONE from a line (R69). -/
def txDone (s : State) (l : LineNo) : State := s.onLines (fun c => c.txDone l)

/-! ## The command handshake (R52) -/

/-- The command on the bus is complete and the next one is offered. -/
def lineCommandDone (s : State) : State := s.onLines (fun c => { c with bus := c.bus.tail })

/-- The command on the bus is withdrawn after 10 ms and counts as complete; a withdrawn TX_CHAR is taken as though its TX_DONE
had been taken. -/
def lineCommandWithdrawn (s : State) : State :=
  match s.lineCommand with
  | some (.txChar l _) => txDone (lineCommandDone s) l
  | some (.answer _) => lineCommandDone s
  | some (.release _) => lineCommandDone s
  | none => s

/-! ## The commands -/

/-- RING (R53). -/
def execRing (line : Nat) (s : State) : Host.Outcome State Fault Refusal := .next (lineEvent line s ring)

/-- CARRIER_ON (R52, R55, R57). -/
def execCarrierOn (line : Nat) (s : State) : Host.Outcome State Fault Refusal := .next (lineEvent line s carrierOn)

/-- CARRIER_OFF (R52, R56, R58). -/
def execCarrierOff (line : Nat) (s : State) : Host.Outcome State Fault Refusal := .next (lineEvent line s carrierOff)

/-- LINE_RX_CHAR (R60). -/
def execLineRxChar (line : Nat) (char : Byte) (s : State) : Host.Outcome State Fault Refusal :=
  .next (lineEvent line s (fun s l => lineRxChar s l char))

/-- RX_BREAK (R60). -/
def execRxBreak (line : Nat) (s : State) : Host.Outcome State Fault Refusal := .next (lineEvent line s rxBreak)

/-- TX_DONE (R69). -/
def execTxDone (line : Nat) (s : State) : Host.Outcome State Fault Refusal := .next (lineEvent line s txDone)

/-- LINE_COMMAND_ACCEPTED (R52). -/
def execLineCommandAccepted (s : State) : Host.Outcome State Fault Refusal := .next (lineCommandDone s)

/-- LINE_COMMAND_TIMEOUT (R52). -/
def execLineCommandTimeout (s : State) : Host.Outcome State Fault Refusal := .next (lineCommandWithdrawn s)

end Sys2Proof.Machine
end

