-- ==== Sys2Proof/Machine/PortEvents.lean ====
section
/-! DEFINITION. The events of the host port bus and its command handshake (R62, R147, R151, R158 to R160). -/
namespace Sys2Proof.Machine

/-- HOST_READY_ON (R158): the flag is set, and a NOT_READY port becomes FREE and serves its queue. -/
def hostReadyOn (s : State) (p : PortNo) : State :=
  let s1 := s.modPort p (fun x => { x with hostReady := true })
  match (s.port p).state with
  | .notReady => portByReady s1 p
  | .outOfService => s1
  | .free => s1
  | .calling => s1
  | .inUse => s1
  | .faulted => s1

/-- HOST_READY_OFF (R158, R171): the flag is cleared; a FREE port becomes NOT_READY, a call or a move fails, an IN_USE port is
lost. -/
def hostReadyOff (s : State) (p : PortNo) : State :=
  let s1 := s.modPort p (fun x => { x with hostReady := false })
  match (s.port p).state with
  | .free => portByReady s1 p
  | .calling => failCall noSecond s1 p (some .readyLost)
  | .inUse => losePort s1 p
  | .outOfService => s1
  | .notReady => s1
  | .faulted => s1

/-- An ACCEPT for a port that is CALLING, by the stage of its line (R151, R177). -/
def acceptLine (s : State) (p : PortNo) (l : LineNo) : State :=
  match (s.line l).phase with
  | .admitted .calling => connect s p l
  | .admitted .moving => completeMove s p l
  | _ => s.issuePort (.hangUp p)

/-- ACCEPT (R151): any other port is sent HANG_UP. -/
def acceptPort (s : State) (p : PortNo) : State :=
  match (s.port p).state, (s.port p).line with
  | .calling, some l => acceptLine s p l
  | _, _ => s.issuePort (.hangUp p)

/-- A host character for a line (R62): in CONNECTED it is activity and goes to the port-to-line slot, from which it is sent as
soon as the transmitter is free with no message to send (R69). -/
def hostChar (s : State) (l : LineNo) (c : Byte) : State :=
  match (s.line l).phase with
  | .admitted .connected =>
    let s1 := activity s l
    match (s.line l).portToLine with
    | some _ => s1.modLine l (fun r => { r with overrun := true })
    | none =>
      let s2 := s1.modLine l (fun r => { r with portToLine := some c })
      if (s.line l).txBusy then s2 else s2.onLines (fun x => x.boundary l)
  | _ => s

/-- RX_CHAR from a port (R159). -/
def portRxChar (s : State) (p : PortNo) (c : Byte) : State :=
  match (s.port p).state, (s.port p).line with
  | .inUse, some l => hostChar s l c
  | _, _ => s

/-- HOST_DISCONNECT (R159). -/
def hostDisconnect (s : State) (p : PortNo) : State :=
  match (s.port p).state, (s.port p).line with
  | .inUse, some l => endCall noSecond s l .hostEnded false
  | _, _ => s

/-- The command on the bus is complete and the next one is offered; the slot whose character it carried is emptied (R61). -/
def portCommandDone (s : State) : State :=
  let s1 : State := { s with pa := { s.pa with bus := s.pa.bus.tail } }
  match s.portCommand with
  | some (.txChar _ _ (some l)) => s1.modLine l (fun r => { r with lineToPort := none })
  | _ => s1

/-! ## The commands -/

/-- HOST_READY_ON (R158). -/
def execHostReadyOn (p : PortNo) (s : State) : Host.Outcome State Fault Refusal := .next (hostReadyOn s p)

/-- HOST_READY_OFF (R158, R171). -/
def execHostReadyOff (p : PortNo) (s : State) : Host.Outcome State Fault Refusal := .next (hostReadyOff s p)

/-- ACCEPT (R151, R177). -/
def execAccept (p : PortNo) (s : State) : Host.Outcome State Fault Refusal := .next (acceptPort s p)

/-- PORT_RX_CHAR (R159). -/
def execPortRxChar (p : PortNo) (char : Byte) (s : State) : Host.Outcome State Fault Refusal := .next (portRxChar s p char)

/-- HOST_DISCONNECT (R159). -/
def execHostDisconnect (p : PortNo) (s : State) : Host.Outcome State Fault Refusal := .next (hostDisconnect s p)

/-- PORT_COMMAND_ACCEPTED (R147). -/
def execPortCommandAccepted (s : State) : Host.Outcome State Fault Refusal := .next (portCommandDone s)

/-- PORT_COMMAND_TIMEOUT (R147): the command is withdrawn and counts as complete, so the slot of a withdrawn TX_CHAR is emptied
as well (log entry 21). -/
def execPortCommandTimeout (s : State) : Host.Outcome State Fault Refusal := .next (portCommandDone s)

end Sys2Proof.Machine
end

