-- ==== Sys2Proof/Machine/Responses.lean ====
section
/-! DEFINITION. The response buffer of the supervisor port, completion codes and the reading of responses (R201, R202). -/
namespace Sys2Proof.Machine

/-- A completion code as its byte (R202). -/
def Code.byte (c : Code) : Byte :=
  match c with
  | .ok => 0
  | .okClamped => 1
  | .unknownRequest => 2
  | .malformed => 3
  | .outOfRange => 4
  | .notFound => 5
  | .present => 6
  | .storeFull => 7
  | .storeFault => 8
  | .noStore => 9
  | .wrongState => 10
  | .tariffArmed => 11

/-- The code a request completes with: OK_CLAMPED in place of OK where it clamped a value (R202). -/
def Code.clampedBy (c : Code) (clamped : Bool) : Code := if clamped && decide (c = .ok) then .okClamped else c

/-- The response frame (R201). -/
def responseFrame (code : Code) (clamped : Bool) (result : List Byte) : List Byte :=
  (code.clampedBy clamped).byte :: flagByte clamped :: (beBytes 2 result.length ++ result)

/-- The response is offered: the read position is 0, BUSY is cleared and RESPONSE_READY is set in one step (R201). -/
def respond (s : State) (code : Code) (clamped : Bool) (result : List Byte) : State :=
  { s with sup := { s.sup with response := responseFrame code clamped result, readPos := 0, busy := false, ready := true } }

/-- A read strobe on SRS (R201). -/
def readStrobe (p : SupPort) : SupPort :=
  if p.ready then
    { p with
      sdOut := p.response.getD p.readPos 0, readPos := p.readPos + 1,
      ready := decide (p.readPos + 1 < p.response.length) }
  else { p with sdOut := 0 }

/-- RESPONSE_READ (R201). -/
def execResponseRead (s : State) : Host.Outcome State Fault Refusal := .next { s with sup := readStrobe s.sup }

end Sys2Proof.Machine
end

