-- ==== Sys2Proof/Machine/StoreLookup.lean ====
section
/-! DEFINITION. Finding records in the account store, the counts, and slot writes of operations (R4, R5, R7, R14). -/
namespace Sys2Proof.Machine

/-- How a lookup ends (R7): found at a slot; not found, with the slot where a new record would be placed, if there is one
(R16); or at a damaged slot. -/
inductive Lookup where
  | found (slot : Nat) (acct : Account)
  | notFound (place : Option Nat)
  | damaged
  deriving DecidableEq, Repr

/-- A probe (R7): examine up to `fuel` slots from one on. A slot that `pass` names is passed over as another account's. The
first VACATED slot passed is remembered. -/
def probe (view : Nat → SlotView) (pass : Nat → SlotView → Bool) (capacity number : Nat) : Nat → Nat → Option Nat → Lookup
  | 0, _, place => .notFound place
  | fuel + 1, slot, place =>
    let next := if slot + 1 < capacity then slot + 1 else 0
    if pass slot (view slot) then probe view pass capacity number fuel next place
    else
      match view slot with
      | .inUse n a => if n = number then .found slot a else probe view pass capacity number fuel next place
      | .vacated _ _ => probe view pass capacity number fuel next (place.or (some slot))
      | .empty => .notFound (place.or (some slot))
      | .damaged => .damaged

/-- A lookup with slots to pass over. -/
def State.lookupPassing (s : State) (pass : Nat → SlotView → Bool) (number : Nat) : Lookup :=
  probe (slotView s.store) pass s.ctl.capacity number s.ctl.capacity (number % s.ctl.capacity) none

/-- A lookup of an account number in the store (R7). -/
def State.lookup (s : State) (number : Nat) : Lookup := s.lookupPassing (fun _ _ => false) number

/-- Whether an entry that is not FREE names a slot (R16, R24). -/
def State.slotNamed (s : State) (slot : Nat) : Bool :=
  s.oat.entries.toList.any (fun e => match e with
    | none => false
    | some x => decide (x.slot.val = slot))

/-- A count raised by 1; beyond the capacity its value is free (log entry 12). -/
def raiseCount (capacity n : Nat) : Nat := if n < capacity then n + 1 else Config.countOutside capacity n % (capacity + 1)

/-- A count lowered by 1; below 0 its value is free (log entry 12). -/
def lowerCount (capacity n : Nat) : Nat := if 0 < n then n - 1 else Config.countOutside capacity n % (capacity + 1)

/-- What a slot of a state adds to the counts when it is written (R16, R24). -/
def StoreCtl.countIn (c : StoreCtl) (state : SlotState) : StoreCtl :=
  match state with
  | .inUse => { c with inUse := raiseCount c.capacity c.inUse }
  | .vacated => { c with vacated := raiseCount c.capacity c.vacated }
  | .empty => c

/-- What the contents a slot had before take from the counts (R16, R24). -/
def StoreCtl.countOut (c : StoreCtl) (before : SlotView) : StoreCtl :=
  match before with
  | .inUse _ _ => { c with inUse := lowerCount c.capacity c.inUse }
  | .vacated _ _ => { c with vacated := lowerCount c.capacity c.vacated }
  | .empty => c
  | .damaged => c

/-- A retirement of a slot counts: in-use falls and vacated rises (R14, R25). -/
def StoreCtl.countRetired (c : StoreCtl) : StoreCtl :=
  { c with inUse := lowerCount c.capacity c.inUse, vacated := raiseCount c.capacity c.vacated }

/-- Act on the Account Store Controller's records. -/
def State.onCtl (s : State) (f : StoreCtl → StoreCtl) : State := { s with ctl := f s.ctl }

/-- The store after a slot write with its outcome (R4). -/
def State.writeSlot (s : State) (o : WriteOutcome) (slot : Nat) (bytes : List Byte) : State :=
  { s with store := slotWrite s.store o slot bytes }

/-- The outcome of the first write of an operation; a write the command does not name matches (log entry 8). -/
def firstOutcome (writes : List WriteOutcome) : WriteOutcome := writes.headD .good

/-- The outcome of the second write of an operation. -/
def secondOutcome (writes : List WriteOutcome) : WriteOutcome := writes.getD 1 .good

/-- A slot number of an entry; a probe only finds slots below 8,192 (log entry 26). -/
def slotIndex (n : Nat) : SlotNo := (slotNo? n).getD 0

end Sys2Proof.Machine
end

