-- ==== Sys2Proof/Machine/SignOnOps.lean ====
section
/-! DEFINITION. The two sign-on operations: VERIFY and ADMIT (R13, R30, R31, R87 to R92). -/
namespace Sys2Proof.Machine

/-- The credential tests after the account is found (R87), in order. -/
inductive Credentials where
  | refused | mismatch | good
  deriving DecidableEq, Repr

/-- Test the credentials of an account against a password code (R87). -/
def testCredentials (a : Account) (password : Nat) : Credentials :=
  if a.password = 0 then .refused
  else if a.status ≠ .live then .refused
  else if a.password ≠ password then .mismatch
  else .good

/-- An account after a password mismatch: the failed count rises, and the lockout threshold may lock it (R88). -/
def afterMismatch (threshold : Nat) (a : Account) : Account :=
  let n := satSucc 15 a.failedCount
  { a with failedCount := n, status := if threshold ≠ 0 ∧ threshold ≤ n then .locked else a.status }

/-- Whether a mismatch locks the account (R88). -/
def locks (threshold : Nat) (a : Account) : Bool := decide ((afterMismatch threshold a).status = .locked)

/-- The LOCKED item of a mismatch that locks (R88). -/
def raiseLocked (s : State) (number : Nat) (a : Account) : State :=
  if locks s.lc.params.lockoutThreshold a then raiseAccount s number causeLocked else s

/-- The admission checks on the account's own fields: credit, then hours (R90, checks 2 and 3). -/
def accountChecks (s : State) (a : Account) : Option Nat :=
  if a.allotment = 0 then some 4
  else if (s.policy a.cls).allows s.cal.view.band then none
  else some 2

/-- The admission checks for an open account (R90). -/
def openChecks (s : State) (x : OatEntry) : Option Nat :=
  if x.retirePending then some 5
  else
    match accountChecks s x.acct with
    | some n => some n
    | none => if x.acct.sessionLimit ≤ x.count then some 3 else none

/-- The admission checks for an account that is not open (R90). -/
def closedChecks (s : State) (a : Account) : Option Nat :=
  match accountChecks s a with
  | some n => some n
  | none => if s.freeEntry = none then some 5 else none

/-- The account as an admission leaves it: failed count 0 and the last sign-on (R31, R91). -/
def admittedAccount (s : State) (l : LineNo) (a : Account) : Account :=
  { a with failedCount := 0, lastSignOn := some (s.cal.view.minute, l) }

/-- A session joins an entry (R31). -/
def joinEntry (s : State) (e : EntryNo) (l : LineNo) : State :=
  s.modEntry e (fun x =>
    { x with state := .opened, count := x.count + 1, acct := admittedAccount s l x.acct, dirty := true })

/-- An entry is created from the slot as written (R30). -/
def createEntry (s : State) (e : EntryNo) (number slot : Nat) (a : Account) : State :=
  s.setEntry e (some
    { state := .opened, account := number, slot := slotIndex slot, count := 1, acct := a, dirty := false,
      retirePending := false })

/-- The grace an admission carries (R91). -/
def admissionGrace (s : State) (a : Account) : Nat := (s.policy a.cls).grace

/-- An admission to an open account, or its refusal (R90, R91). -/
def admitOpen (s : State) (l : LineNo) (e : EntryNo) (x : OatEntry) : State × SignOnResult :=
  match openChecks s x with
  | some n => (s, .failed n)
  | none => (joinEntry s e l, .admission e (admissionGrace s x.acct))

/-- An admission of an account that is not open, or its refusal (R90, R91): the admission write and, when it matches, the new
entry. -/
def admitClosed (s : State) (o : WriteOutcome) (l : LineNo) (number slot : Nat) (a : Account) : State × SignOnResult :=
  match closedChecks s a, s.freeEntry with
  | some n, _ => (s, .failed n)
  | none, none => (s, .failed 5)
  | none, some e =>
    let a' := admittedAccount s l a
    let s1 := s.writeSlot o slot (encodeSlot .inUse number a')
    if writeMatches o then (createEntry s1 e number slot a', .admission e (admissionGrace s a))
    else (storeFault s1 (some number), .failed 5)

/-- VERIFY of an open account (R87 to R91). -/
def verifyOpen (s : State) (op : SignOnOp) (password : Nat) (marker : Bool) (e : EntryNo) (x : OatEntry) :
    State × SignOnResult :=
  match testCredentials x.acct password with
  | .refused => (s, .failed 1)
  | .mismatch =>
    let s1 := s.modEntry e (fun x => { x with acct := afterMismatch s.lc.params.lockoutThreshold x.acct, dirty := true })
    (raiseLocked s1 op.account x.acct, .failed 1)
  | .good => if marker then (s, .credentialsOk) else admitOpen s op.line e x

/-- The slot write of a mismatch on an account that is not open (R13, R88): nothing is written where nothing changes
(log entry 32). -/
def writeMismatch (s : State) (o : WriteOutcome) (number slot : Nat) (a : Account) : State :=
  let a' := afterMismatch s.lc.params.lockoutThreshold a
  if a' = a then s
  else
    let s1 := s.writeSlot o slot (encodeSlot .inUse number a')
    if writeMatches o then raiseLocked s1 number a else storeFault s1 (some number)

/-- VERIFY of an account found in the store (R87 to R91). -/
def verifyClosed (s : State) (o : WriteOutcome) (op : SignOnOp) (password : Nat) (marker : Bool) (slot : Nat) (a : Account) :
    State × SignOnResult :=
  match testCredentials a password with
  | .refused => (s, .failed 1)
  | .mismatch => (writeMismatch s o op.account slot a, .failed 1)
  | .good => if marker then (s, .credentialsOk) else admitClosed s o op.line op.account slot a

/-- A sign-on operation on an open account (R13). -/
def signOnOpen (s : State) (op : SignOnOp) (e : EntryNo) (x : OatEntry) : State × SignOnResult :=
  match op.kind with
  | .verify password marker => verifyOpen s op password marker e x
  | .admitOp => admitOpen s op.line e x

/-- A sign-on operation on an account that is not open (R13, R87, R92). -/
def signOnClosed (s : State) (o : WriteOutcome) (op : SignOnOp) : State × SignOnResult :=
  match s.lookup op.account, op.kind with
  | .damaged, _ => (storeFault s (some op.account), .failed 5)
  | .notFound _, .verify _ _ => (s, .failed 1)
  | .notFound _, .admitOp => (s, .failed 5)
  | .found slot a, .verify password marker => verifyClosed s o op password marker slot a
  | .found slot a, .admitOp => admitClosed s o op.line op.account slot a

/-- The open entry of an account, with its contents. -/
def State.openAccount (s : State) (number : Nat) : Option (EntryNo × OatEntry) :=
  match s.findOpen number with
  | none => none
  | some e => (s.entry e).map (fun x => (e, x))

/-- A sign-on operation as a whole (R13): the records it changes and its result. -/
def performSignOn (s : State) (o : WriteOutcome) (op : SignOnOp) : State × SignOnResult :=
  match s.openAccount op.account with
  | some (e, x) => signOnOpen s op e x
  | none => signOnClosed s o op

/-- A sign-on operation completes, and the Sign-On Unit takes its result (R12, R93). -/
def finishSignOn (s : State) (o : WriteOutcome) (op : SignOnOp) : State :=
  let x := performSignOn s o op
  takeResult x.1 op x.2

end Sys2Proof.Machine
end

