-- ==== Sys2Proof/Machine/WriteBack.lean ====
section
/-! DEFINITION. The write-back of one entry (R14, R37 to R39). -/
namespace Sys2Proof.Machine

/-- A write-back begins (R37): the head of the list is removed, its copies are captured and dirty is cleared. A head that names
a FREE entry is only removed, in states no run reaches (log entry 26). -/
def beginWriteBack (s : State) (e : EntryNo) (rest : List EntryNo) : State :=
  let s1 : State := { s with oat := { s.oat with writeBackList := rest } }
  match s.entry e with
  | none => s1
  | some x =>
    (s1.setEntry e (some { x with dirty := false })).onCtl
      (fun c => { c with inProgress := some (.writeBack e x.account x.slot x.acct) })

/-- The counts-uncertain flag is set. -/
def markUncertain (s : State) : State := s.onCtl (fun c => { c with uncertain := true })

/-- A mismatched write-back (R39). -/
def writeBackFailed (s : State) (e : EntryNo) (number : Nat) : State :=
  let s1 := markUncertain (raiseAccount s number causeWriteBackFailed)
  s1.modEntry e (fun x =>
    if 1 ≤ x.count then { x with dirty := true }
    else
      { x with
        dirty := true, retirePending := false, state := if s.queued e then .closing else .stuck })

/-- The last write-back of a retiring entry writes the slot VACATED (R14, R38). -/
def vacateSlot (s : State) (o : WriteOutcome) (e : EntryNo) (number : Nat) (slot : SlotNo) (a : Account) : State :=
  let s1 := s.writeSlot o slot.val (encodeSlot .vacated number a)
  if writeMatches o then freeEntry (s1.onCtl StoreCtl.countRetired) e else writeBackFailed s1 e number

/-- A matched write-back (R38). -/
def writeBackMatched (s : State) (o : WriteOutcome) (e : EntryNo) (number : Nat) (slot : SlotNo) (a : Account) : State :=
  match s.entry e with
  | none => s
  | some x =>
    if 1 ≤ x.count then s
    else if x.dirty then queueEntry s e
    else if x.retirePending then vacateSlot s o e number slot a
    else freeEntry s e

/-- A write-back completes (R14, R37). -/
def finishWriteBack (s : State) (writes : List WriteOutcome) (e : EntryNo) (number : Nat) (slot : SlotNo) (a : Account) :
    State :=
  let s1 := s.writeSlot (firstOutcome writes) slot.val (encodeSlot .inUse number a)
  if writeMatches (firstOutcome writes) then writeBackMatched s1 (secondOutcome writes) e number slot a
  else writeBackFailed s1 e number

end Sys2Proof.Machine
end

