-- ==== Sys2Proof/Machine/AccountRequests.lean ====
section
/-! DEFINITION. The supervisor requests on accounts, as the operation carries them out (R16 to R25, R41, R43, R44). -/
namespace Sys2Proof.Machine

/-! ## Edits of an account record: SET_PASSWORD, CHANGE_ACCOUNT, GRANT, REVOKE, FORGIVE -/

/-- What an edit makes of an account: its new fields, whether it clamped a value, the result bytes, and whether it writes at
all (a GRANT of 0 changes nothing, R19). -/
structure Edit where
  acct : Account
  clamped : Bool := false
  result : List Byte := []
  writes : Bool := true
  deriving DecidableEq, Repr

/-- The allotment and overdraft that GRANT, REVOKE and FORGIVE carry in their response. -/
def balanceBytes (a : Account) : List Byte := beBytes 3 a.allotment ++ beBytes 2 a.overdraft

/-- SET_PASSWORD (R17): no characters remove the password. -/
def editPassword (chars : List Byte) (a : Account) : Edit :=
  { acct := { a with password := if chars = [] then 0 else passwordFold chars } }

/-- A session limit brought into 1 to 4 (R16, R18). -/
def clampSessionLimit (n : Nat) : Nat := clamp 1 4 n

/-- CHANGE_ACCOUNT (R18): present fields replace the record's, and LIVE clears the failed count. -/
def editChange (f : AccountChange) (a : Account) : Edit :=
  { acct :=
      { a with
        cls := (f.cls.bind fin4?).getD a.cls
        sessionLimit := (f.sessionLimit.map clampSessionLimit).getD a.sessionLimit
        permitted := (f.permitted.map (BitVec.ofNat 6)).getD a.permitted
        defaultGroup := (f.defaultGroup.bind optGroup?).getD a.defaultGroup
        lowThreshold := f.lowThreshold.getD a.lowThreshold
        status := (f.status.bind statusOf?).getD a.status
        failedCount := if f.status = some 0 then 0 else a.failedCount }
    clamped := (f.sessionLimit.map (clamps 1 4)).getD false }

/-- An account after a grant (R19): the overdraft is repaid first, and the rest is added up to the ceiling. -/
def grantTo (amount : Nat) (a : Account) : Account :=
  { a with
    overdraft := a.overdraft - min amount a.overdraft
    allotment := min max24 (a.allotment + (amount - min amount a.overdraft)) }

/-- GRANT (R19). -/
def editGrant (amount : Nat) (a : Account) : Edit :=
  { acct := grantTo amount a, clamped := decide (max24 < a.allotment + (amount - min amount a.overdraft)),
    result := balanceBytes (grantTo amount a), writes := decide (amount ≠ 0) }

/-- REVOKE (R20). -/
def editRevoke (amount : Nat) (a : Account) : Edit :=
  let a' := { a with allotment := a.allotment - amount }
  { acct := a', clamped := decide (a.allotment < amount), result := balanceBytes a' }

/-- FORGIVE (R20). -/
def editForgive (a : Account) : Edit :=
  let a' := { a with overdraft := 0 }
  { acct := a', result := balanceBytes a' }

/-- An edit of an open account (R45): the working copies change, dirty is set, and the Meter acts on a change of credit
state (R133). -/
def editOpen (s : State) (e : EntryNo) (x : OatEntry) (d : Edit) : State :=
  let s1 :=
    if d.writes then
      meterAction noSecond (s.setEntry e (some { x with acct := d.acct, dirty := true })) e (creditState x.acct)
    else s
  respond s1 .ok d.clamped d.result

/-- An edit of an account found in the store: one slot write with read-back (R4, R15). -/
def editSlot (s : State) (o : WriteOutcome) (number slot : Nat) (d : Edit) : State :=
  if d.writes then
    let s1 := s.writeSlot o slot (encodeSlot .inUse number d.acct)
    if writeMatches o then respond s1 .ok d.clamped d.result
    else respond (storeFault s1 (some number)) .storeFault d.clamped []
  else respond s .ok d.clamped d.result

/-- A lookup that ended at a damaged slot (R15). -/
def lookupFault (s : State) (number : Nat) (clamped : Bool) : State :=
  respond (storeFault s (some number)) .storeFault clamped []

/-- Whether an edit clamps a setting whatever the account holds: the session limit of CHANGE_ACCOUNT. -/
def changeClamps (f : AccountChange) : Bool := (f.sessionLimit.map (clamps 1 4)).getD false

/-- A request that edits an account (R15). `clamped` is what the request clamps before the account is found. -/
def editAccount (s : State) (o : WriteOutcome) (number : Nat) (clamped : Bool) (f : Account → Edit) : State :=
  match s.openAccount number with
  | some (e, x) => editOpen s e x (f x.acct)
  | none =>
    match s.lookup number with
    | .found slot a => editSlot s o number slot (f a)
    | .notFound _ => respond s .notFound clamped []
    | .damaged => lookupFault s number clamped

/-! ## ATTACH_STORE (R2) -/

/-- The capacity of a size code (R2). -/
def capacityOf (code : Nat) : Nat := 1024 * 2 ^ (min code 3)

/-- ATTACH_STORE begins (R2): the controller's records. -/
def beginAttach (s : State) (code : Nat) : State :=
  s.onCtl (fun c =>
    { c with attachment := .attaching, capacity := capacityOf code, inUse := 0, vacated := 0, uncertain := false })

/-- Write zeros to the slots named by a list of outcomes, from slot 0 upward (R2). -/
def clearNamed (old : List Host.Cell) (capacity : Nat) : Nat → List WriteOutcome → List Host.Cell → List Host.Cell
  | _, [], m => m
  | slot, o :: os, m =>
    clearNamed old capacity (slot + 1) os
      (if slot < capacity then storeSlot m slot (bytesAfterWrite o (slotBytes old slot) emptyImage) else m)

/-- The clear option: 40 zero bytes are written to every slot, without a read-back (R2). A write the command names may have
left something else (log entry 8). -/
def clearStore (m : List Host.Cell) (capacity : Nat) (writes : List WriteOutcome) : List Host.Cell :=
  clearNamed m capacity 0 writes (clearBelow m capacity)

/-- The number of slots below a bound whose contents pass a test (R2). -/
def countSlots (m : List Host.Cell) (test : SlotView → Bool) (capacity : Nat) : Nat :=
  ((List.range capacity).filter (fun i => test (slotView m i))).length

/-- Whether a slot is sound and IN_USE. -/
def SlotView.isInUse (v : SlotView) : Bool :=
  match v with
  | .inUse _ _ => true
  | .vacated _ _ => false
  | .empty => false
  | .damaged => false

/-- Whether a slot is sound and VACATED. -/
def SlotView.isVacated (v : SlotView) : Bool :=
  match v with
  | .vacated _ _ => true
  | .inUse _ _ => false
  | .empty => false
  | .damaged => false

/-- ATTACH_STORE completes (R2): the clear, the scan, ATTACHED. -/
def finishAttach (s : State) (writes : List WriteOutcome) (code clear : Nat) : State :=
  let store := if clear = 1 then clearStore s.store s.ctl.capacity writes else s.store
  let inUse := countSlots store SlotView.isInUse s.ctl.capacity
  let vacated := countSlots store SlotView.isVacated s.ctl.capacity
  let damaged := countSlots store (fun v => decide (v = .damaged)) s.ctl.capacity
  let s1 : State :=
    { s with
      store := store
      ctl := { s.ctl with attachment := .attached, inUse := inUse, vacated := vacated } }
  respond s1 .ok (decide (3 < code))
    (beBytes 2 s.ctl.capacity ++ beBytes 2 inUse ++ beBytes 2 vacated ++ beBytes 2 damaged)

/-! ## ADD_ACCOUNT (R16) -/

/-- The fill limit (R16). -/
def fillLimit (capacity : Nat) : Nat := capacity - capacity / 8

/-- The new record (R16). -/
def newAccount (p : NewAccount) : Account :=
  { status := .live, cls := (fin4? p.cls).getD 0, sessionLimit := clampSessionLimit p.sessionLimit,
    permitted := BitVec.ofNat 6 p.permitted, defaultGroup := (optGroup? p.defaultGroup).getD none, password := 0,
    failedCount := 0, allotment := p.allotment, overdraft := 0, lowThreshold := p.lowThreshold,
    bandTotals := Vector.replicate 4 0, waitTotal := 0, connectSeconds := 0, lastSignOn := none }

/-- The lookup of ADD_ACCOUNT: a sound slot that an entry names is passed over (R16). -/
def State.lookupForAdd (s : State) (number : Nat) : Lookup :=
  s.lookupPassing (fun slot v => s.slotNamed slot && decide (v ≠ .damaged)) number

/-- The record is placed (R16). -/
def placeAccount (s : State) (o : WriteOutcome) (p : NewAccount) (slot : Nat) : State :=
  let clamped := clamps 1 4 p.sessionLimit
  let s1 := s.writeSlot o slot (encodeSlot .inUse p.account (newAccount p))
  if writeMatches o then
    let s2 := if (slotView s.store slot).isVacated then
        s1.onCtl (fun c => { c with vacated := lowerCount c.capacity c.vacated }) else s1
    respond (s2.onCtl (fun c => c.countIn .inUse)) .ok clamped (beBytes 2 slot)
  else respond (storeFault s1 (some p.account)) .storeFault clamped []

/-- ADD_ACCOUNT (R16). -/
def addAccount (s : State) (o : WriteOutcome) (p : NewAccount) : State :=
  let clamped := clamps 1 4 p.sessionLimit
  if fillLimit s.ctl.capacity ≤ s.ctl.inUse then respond s .storeFull clamped []
  else
    match s.findOpen p.account with
    | some _ => respond s .present clamped []
    | none =>
      match s.lookupForAdd p.account with
      | .found _ _ => respond s .present clamped []
      | .damaged => lookupFault s p.account clamped
      | .notFound none => respond s .storeFull clamped []
      | .notFound (some slot) => placeAccount s o p slot

/-! ## Reading (R21 to R23) -/

/-- The result of READ_ACCOUNT. -/
def accountResult (slot : Nat) (isOpen : Bool) (count : Nat) (image : List Byte) : List Byte :=
  beBytes 2 slot ++ [flagByte isOpen] ++ beBytes 1 count ++ image

/-- READ_ACCOUNT (R21). -/
def readAccount (s : State) (number : Nat) : State :=
  match s.openAccount number with
  | some (_, x) =>
    let bytes := slotBytes s.store x.slot.val
    if decodeSlot bytes = .damaged then lookupFault s number false
    else respond s .ok false (accountResult x.slot.val true x.count (mergeImage bytes x.acct))
  | none =>
    match s.lookup number with
    | .found slot _ => respond s .ok false (accountResult slot false 0 (slotBytes s.store slot))
    | .notFound _ => respond s .notFound false []
    | .damaged => lookupFault s number false

/-- The flags and the image of one slot of READ_SLOTS (R22). -/
def slotReport (s : State) (slot : Nat) : Byte × List Byte :=
  let bytes := slotBytes s.store slot
  match decodeSlot bytes with
  | .damaged => (1, bytes)
  | .inUse number _ =>
    match s.openAccount number with
    | some (_, x) => if x.slot.val = slot then (2, mergeImage bytes x.acct) else (0, bytes)
    | none => (0, bytes)
  | .vacated _ _ => (0, bytes)
  | .empty => (0, bytes)

/-- One record of READ_SLOTS. -/
def slotRecord (s : State) (slot : Nat) : List Byte :=
  beBytes 2 slot ++ (slotReport s slot).1 :: (slotReport s slot).2

/-- The number of slots READ_SLOTS returns (R22). -/
def slotsRead (capacity first count : Nat) : Nat := min (if count = 0 then 8 else min count 8) (capacity - first)

/-- READ_SLOTS (R22). -/
def readSlots (s : State) (first count : Nat) : State :=
  respond s .ok (decide (8 < count))
    ((List.range (slotsRead s.ctl.capacity first count)).flatMap (fun i => slotRecord s (first + i)))

/-- The values READ_AND_CLEAR_TOTALS returns (R23). -/
def totalsBytes (a : Account) : List Byte := a.totals.flatMap (beBytes 3) ++ beBytes 3 a.connectSeconds

/-- The six values at 0 (R23). -/
def clearTotals (a : Account) : Account :=
  { a with bandTotals := Vector.replicate 4 0, waitTotal := 0, connectSeconds := 0 }

/-- READ_AND_CLEAR_TOTALS (R23): a failed write still carries the values read. -/
def readAndClear (s : State) (o : WriteOutcome) (number : Nat) : State :=
  match s.openAccount number with
  | some (e, x) =>
    respond (s.setEntry e (some { x with acct := clearTotals x.acct, dirty := true })) .ok false (totalsBytes x.acct)
  | none =>
    match s.lookup number with
    | .found slot a =>
      let s1 := s.writeSlot o slot (encodeSlot .inUse number (clearTotals a))
      if writeMatches o then respond s1 .ok false (totalsBytes a)
      else respond (storeFault s1 (some number)) .storeFault false (totalsBytes a)
    | .notFound _ => respond s .notFound false []
    | .damaged => lookupFault s number false

/-! ## REPLACE_SLOT (R24) -/

/-- The account number of an IN_USE image. -/
def imageAccount (image : List Byte) : Option Nat :=
  match imageView image with
  | .inUse n _ => some n
  | .vacated _ _ => none
  | .empty => none
  | .damaged => none

/-- The slot state of an image whose state is one of the three. -/
def imageState (image : List Byte) : SlotState :=
  match imageView image with
  | .inUse _ _ => .inUse
  | .vacated _ _ => .vacated
  | .empty => .empty
  | .damaged => .empty

/-- The bytes REPLACE_SLOT writes: zeros for an EMPTY image, otherwise the image with a check byte of its own (R24). -/
def replaceBytes (image : List Byte) : List Byte :=
  if imageState image = .empty then emptyImage else withCheck (image.take 39)

/-- Whether the target or the image forbids the replacement (R24). -/
def replaceForbidden (s : State) (slot : Nat) (image : List Byte) : Bool :=
  s.slotNamed slot
    || (match slotView s.store slot with
        | .inUse n _ => (s.findOpen n).isSome
        | .vacated _ _ => false
        | .empty => false
        | .damaged => false)
    || (match imageAccount image with
        | some n => (s.findOpen n).isSome
        | none => false)

/-- The image is written (R24). -/
def writeReplacement (s : State) (o : WriteOutcome) (slot : Nat) (image : List Byte) : State :=
  let s1 := s.writeSlot o slot (replaceBytes image)
  if writeMatches o then
    respond (s1.onCtl (fun c => (c.countOut (slotView s.store slot)).countIn (imageState image))) .ok false []
  else respond (storeFault s1 (imageAccount image)) .storeFault false []

/-- REPLACE_SLOT (R24). -/
def replaceSlot (s : State) (o : WriteOutcome) (slot : Nat) (image : List Byte) : State :=
  if replaceForbidden s slot image then respond s .wrongState false []
  else
    match imageAccount image with
    | none => writeReplacement s o slot image
    | some n =>
      match s.lookupPassing (fun i _ => decide (i = slot)) n with
      | .found _ _ => respond s .present false []
      | .damaged => lookupFault s n false
      | .notFound _ => writeReplacement s o slot image

/-! ## RETIRE, FLUSH, DISCARD_OPEN (R25, R41, R43, R44) -/

/-- RETIRE of an open account (R25, R44). -/
def retireOpen (s : State) (e : EntryNo) (x : OatEntry) : State :=
  if x.retirePending then s
  else
    let s1 := s.setEntry e (some { x with retirePending := true })
    if x.state = .stuck then queueEntry s1 e else s1

/-- RETIRE (R25). -/
def retire (s : State) (o : WriteOutcome) (number : Nat) : State :=
  match s.openAccount number with
  | some (e, x) => respond (retireOpen s e x) .ok false [1]
  | none =>
    match s.lookup number with
    | .found slot a =>
      let s1 := s.writeSlot o slot (encodeSlot .vacated number a)
      if writeMatches o then respond (s1.onCtl StoreCtl.countRetired) .ok false [0]
      else respond (storeFault s1 (some number)) .storeFault false []
    | .notFound _ => respond s .notFound false []
    | .damaged => lookupFault s number false

/-- FLUSH (R41). -/
def flush (s : State) : State :=
  let s1 := flushEntries s
  respond s1 .ok false (beBytes 1 (s1.oat.writeBackList.length - s.oat.writeBackList.length))

/-- DISCARD_OPEN (R43). -/
def discardOpen (s : State) (number : Nat) : State :=
  match s.openAccount number with
  | none => respond s .notFound false []
  | some (e, x) => if x.state = .stuck then respond (freeEntry s e) .ok false [] else respond s .wrongState false []

end Sys2Proof.Machine
end

