-- ==== Sys2Proof/Machine/Restart.lean ====
section
/-! DEFINITION. RESTART (R26, R47, R77, R168, R196, R197, R206). -/
namespace Sys2Proof.Machine

/-- The Meter's action while RESTART settles: every session still live is about to be ended with cause RESTART, so a countdown
loaded with 0 ends none of them with another cause (R196; log entry 22). -/
def restartAction : State → EntryNo → CreditState → State := creditAction (fun s _ => s)

/-- One call is ended with cause RESTART, with full settlement (R196). -/
def settleForRestart (s : State) (l : LineNo) : State :=
  if (s.line l).phase.inCall then settle restartAction s l .restart false none else s

/-- The lines in WAITING. -/
def State.linesWaiting (s : State) : List LineNo := allLines.filter (fun l => decide ((s.line l).phase = .admitted .waiting))

/-- The lines that name ports. -/
def State.linesWithPorts (s : State) : List LineNo := allLines.filter (fun l => (s.line l).port.isSome)

/-- The lines in call. -/
def State.linesInCall (s : State) : List LineNo := allLines.filter (fun l => (s.line l).phase.inCall)

/-- Every call is ended, in the three groups of R196, each in ascending line number. -/
def endCallsForRestart (s : State) : State :=
  let s1 := s.linesWaiting.foldl settleForRestart s
  let s2 := s1.linesWithPorts.foldl settleForRestart s1
  allLines.foldl settleForRestart s2

/-- A line after its release by RESTART (R77, R197). -/
def restartLine (r : LineRec) : LineRec :=
  { r with phase := .idle, outOfService := false, stageTimer := none, current := none, pending := none }

/-- A line takes its phase after the calls were settled: in CLOSING it is sent RELEASE, and every line but a DOWN one enters
IDLE (R77). -/
def releaseForRestart (c : LineCtl) (l : LineNo) : LineCtl :=
  match (c.line l).phase with
  | .down => c
  | .closing => (c.issue (.release l)).modLine l restartLine
  | _ => c.modLine l restartLine

/-- RESTART begins (R206, steps 1 and 2, and the queueing of R47). R40 and R41 queue in entry-number order; R47 and R206 name no
order for the STUCK and the dirty entries that RESTART queues, and the model takes ascending entry number here too (log entry 6,
DESIGN CHOICE, unsafe). -/
def beginRestart (s : State) : State :=
  let s1 := s.onLines (fun c => { c with params := { c.params with acceptingCalls := false } })
  let s2 := (endCallsForRestart s1).onLines (fun c => allLines.foldl releaseForRestart c)
  flushEntries s2

/-- What the flush of RESTART has done so far: the state, the outcomes of the writes still to come, and the two counts. -/
structure Flush where
  state : State
  writes : List WriteOutcome
  written : Nat
  lost : Nat

/-- The entry is freed after its write-back matched. -/
def Flush.keep (f : Flush) (s : State) (writes : List WriteOutcome) (e : EntryNo) : Flush :=
  { state := freeEntry s e, writes := writes, written := f.written + 1, lost := f.lost }

/-- The entry is freed after a write of it failed (R47; log entry 38). -/
def Flush.lose (f : Flush) (s : State) (writes : List WriteOutcome) (e : EntryNo) : Flush :=
  { state := freeEntry (markUncertain s) e, writes := writes, written := f.written, lost := f.lost + 1 }

/-- The VACATED write of an entry with retire pending (R47). -/
def flushVacated (f : Flush) (s : State) (writes : List WriteOutcome) (e : EntryNo) (x : OatEntry) : Flush :=
  let s1 := s.writeSlot (firstOutcome writes) x.slot.val (encodeSlot .vacated x.account x.acct)
  if writeMatches (firstOutcome writes) then f.keep (s1.onCtl StoreCtl.countRetired) writes.tail e
  else f.lose s1 writes.tail e

/-- One write-back within RESTART (R47). -/
def flushOne (f : Flush) (e : EntryNo) : Flush :=
  match f.state.entry e with
  | none => f
  | some x =>
    let s1 := f.state.writeSlot (firstOutcome f.writes) x.slot.val (encodeSlot .inUse x.account x.acct)
    if writeMatches (firstOutcome f.writes) then
      if x.retirePending then flushVacated f s1 f.writes.tail e x else f.keep s1 f.writes.tail e
    else f.lose s1 f.writes.tail e

/-- RESTART completes (R206, steps 3 to 5): the list is written back in order and every entry in it is freed, the attention set
is cleared, and the response carries the three counts. -/
def finishRestart (s : State) (writes : List WriteOutcome) (callsEnded : Nat) : State :=
  let f := s.oat.writeBackList.foldl flushOne { state := s, writes := writes, written := 0, lost := 0 }
  let s1 : State := { f.state with oat := { f.state.oat with writeBackList := [] }, attn := emptyAttention }
  respond s1 (if f.lost = 0 then .ok else .storeFault) false
    (beBytes 1 callsEnded ++ beBytes 1 f.written ++ beBytes 1 f.lost)

end Sys2Proof.Machine
end

