-- ==== Sys2Proof/Machine/Rotation.lean ====
section
/-! DEFINITION. The store request rotation: choosing the next operation, beginning it and completing it (R9 to R12), and the
power-on reset that may abandon one (R1, R12, R48, R78, R169). -/
namespace Sys2Proof.Machine

/-! ## The supervisor operations -/

/-- A supervisor operation is carried out to its response (R12). ATTACH_STORE and RESTART have a part of their own at their
beginning; this is the rest. -/
def performRequest (s : State) (writes : List WriteOutcome) (r : StoreReq) : State :=
  let o := firstOutcome writes
  match r with
  | .attach code clear => finishAttach s writes code clear
  | .add p => addAccount s o p
  | .setPassword n chars => editAccount s o n false (editPassword chars)
  | .change n f => editAccount s o n (changeClamps f) (editChange f)
  | .grant n amount => editAccount s o n false (editGrant amount)
  | .revoke n amount => editAccount s o n false (editRevoke amount)
  | .forgive n => editAccount s o n false editForgive
  | .readAccount n => readAccount s n
  | .readSlots first count => readSlots s first count
  | .readAndClear n => readAndClear s o n
  | .replace slot image => replaceSlot s o slot image
  | .retire n => retire s o n
  | .flush => flush s
  | .discard n => discardOpen s n
  | .restart => finishRestart s writes 0

/-- Whether the store is read or written by a request that acts on an account's record (R15): only where the account is not
open. -/
def recordNeedsStore (s : State) (number : Nat) : Bool := (s.findOpen number).isNone

/-- Whether a supervisor operation needs a store access (R12); one that needs none completes at once (log entry 11). -/
def requestNeedsStore (s : State) (r : StoreReq) : Bool :=
  match r with
  | .attach _ _ => true
  | .add p => decide (s.ctl.inUse < fillLimit s.ctl.capacity) && recordNeedsStore s p.account
  | .setPassword n _ => recordNeedsStore s n
  | .change n _ => recordNeedsStore s n
  | .grant n _ => recordNeedsStore s n
  | .revoke n _ => recordNeedsStore s n
  | .forgive n => recordNeedsStore s n
  | .readAccount _ => true
  | .readSlots _ _ => true
  | .readAndClear n => recordNeedsStore s n
  | .replace _ _ => true
  | .retire n => recordNeedsStore s n
  | .flush => false
  | .discard _ => false
  | .restart => true

/-! ## Beginning (R11, R12) -/

/-- An operation is in progress. -/
def State.inProgress (s : State) (op : Operation) : State := s.onCtl (fun c => { c with inProgress := some op })

/-- ATTACH_STORE begins (R2): WRONG_STATE while any entry is not FREE. -/
def startAttach (s : State) (code clear : Nat) : State :=
  if s.oat.entries.toList.any Option.isSome then respond s .wrongState (decide (3 < code)) []
  else (beginAttach s code).inProgress (.supervisor (.attach code clear))

/-- RESTART begins; with no entry to write back it completes at once (R206). -/
def startRestart (s : State) : State :=
  let s1 := beginRestart s
  let ended := s.linesInCall.length
  if s1.oat.writeBackList = [] then finishRestart s1 [] ended else s1.inProgress (.restart ended)

/-- A supervisor operation begins. -/
def startRequest (s : State) (r : StoreReq) : State :=
  match r with
  | .attach code clear => startAttach s code clear
  | .restart => startRestart s
  | r => if requestNeedsStore s r then s.inProgress (.supervisor r) else performRequest s [] r

/-- A sign-on operation begins; on an open account it needs no store access and completes at once (R13; log entry 11). -/
def startSignOn (s : State) (op : SignOnOp) : State :=
  if recordNeedsStore s op.account then s.inProgress (.signOn op) else finishSignOn s .good op

/-- The class that follows a class in the rotation (R11). -/
def RotationClass.following (c : RotationClass) : RotationClass :=
  match c with
  | .signOn => .writeBack
  | .writeBack => .supervisor
  | .supervisor => .signOn

/-- The pointer is set (R11). -/
def setPointer (s : State) (c : RotationClass) : State := s.onCtl (fun x => { x with rotation := c })

/-- Begin the first operation of a class if it has waiting work (R11). -/
def beginClass (s : State) (c : RotationClass) : Option State :=
  match c with
  | .signOn =>
    match s.ctl.signOnQueue with
    | [] => none
    | op :: rest =>
      some (startSignOn ((setPointer s c.following).onCtl (fun x => { x with signOnQueue := rest })) op)
  | .writeBack =>
    match s.oat.writeBackList with
    | [] => none
    | e :: rest => some (beginWriteBack (setPointer s c.following) e rest)
  | .supervisor =>
    match s.ctl.waiting with
    | none => none
    | some r => some (startRequest ((setPointer s c.following).onCtl (fun x => { x with waiting := none })) r)

/-- The choice (R11): the classes are examined from the one the pointer names. Nothing is chosen while an operation is in
progress or no class has work. -/
def rotationChoice (s : State) : State :=
  match s.ctl.inProgress with
  | some _ => s
  | none =>
    let c := s.ctl.rotation
    (((beginClass s c).or (beginClass s c.following)).or (beginClass s c.following.following)).getD s

/-! ## Completing (R12) -/

/-- The operation completes, its result going to its requester (R12). -/
def completeOperation (s : State) (op : Operation) (writes : List WriteOutcome) : State :=
  match op with
  | .signOn op => finishSignOn s (firstOutcome writes) op
  | .writeBack e number slot a => finishWriteBack s writes e number slot a
  | .supervisor r => performRequest s writes r
  | .restart ended => finishRestart s writes ended

/-- The operation in progress completes; nothing where there is none. -/
def storeOperationComplete (s : State) (writes : List WriteOutcome) : State :=
  match s.ctl.inProgress with
  | none => s
  | some op => completeOperation (s.onCtl (fun c => { c with inProgress := none })) op writes

/-! ## Power-on reset (R1, R12) -/

/-- The outcomes of an abandoned operation's writes: some were whole, one may have been cut short, and the rest were not begun.
The spec does not say how the writes made whole before the reset came out: all of them are taken to have matched, so that one
whose read-back had failed already, leaving other bytes in its slot (R4), cannot be given (log entry 9, DESIGN CHOICE,
unsafe). -/
def abandonedWrites (done : Nat) (torn : List Bool) : List WriteOutcome :=
  List.replicate done .good ++ WriteOutcome.mixed torn :: List.replicate 8192 (.mixed [])

/-- The store a reset leaves: the writes of the operation in progress stand as far as they had gone (R12). -/
def abandonedStore (s : State) (done : Nat) (torn : List Bool) : List Host.Cell :=
  match s.ctl.inProgress with
  | none => s.store
  | some op => (completeOperation (s.onCtl (fun c => { c with inProgress := none })) op (abandonedWrites done torn)).store

/-- Power-on reset: every on-chip record takes its reset value, the store keeps its contents, and RELEASE and HANG_UP are issued
to each line and port (R1, R48, R78, R169). The queue of waiting commands is the model's, not the controller's, and stays. -/
def powerOnReset (s : State) (done : Nat) (torn : List Bool) : State :=
  { State.reset with store := abandonedStore s done torn, pending := s.pending }

/-! ## The commands -/

/-- POWER_ON_RESET (R78, R169). -/
def execPowerOnReset (done : Nat) (torn : List Bool) (s : State) : Host.Outcome State Fault Refusal :=
  .next (powerOnReset s done torn)

/-- ROTATION_CHOICE (R11). -/
def execRotationChoice (s : State) : Host.Outcome State Fault Refusal := .next (rotationChoice s)

/-- STORE_OPERATION_COMPLETE (R12). -/
def execStoreOperationComplete (writes : List WriteOutcome) (s : State) : Host.Outcome State Fault Refusal :=
  .next (storeOperationComplete s writes)

end Sys2Proof.Machine
end

