-- ==== Sys2Proof/Machine/SecondEvent.lean ====
section
/-! DEFINITION. The second event (R51, R65, R106, R117 to R119, R122 to R128, R140, R155, R166). Its parts run in one fixed
order; the order the book leaves open is the operand of the command (log entry 5). -/
namespace Sys2Proof.Machine

/-! ## Timers (R51) -/

/-- One second off a timer. -/
def tick (t : Option Nat) : Option Nat := t.map (fun n => n - 1)

/-- A timer that runs only under a condition. -/
def tickIf (runs : Bool) (t : Option Nat) : Option Nat := if runs then tick t else t

/-- The timers of a line at a second event: the stage timer where it runs (R51, R85), the hold timer in HELD (R97), the carrier
hold in SIGNON and ADMITTED (R56), the idle warning in CONNECTED (R65), and the Meter's countdowns in ADMITTED (R136, R141). -/
def tickLine (r : LineRec) : LineRec :=
  { r with
    stageTimer := tickIf r.phase.stageTimerRuns r.stageTimer
    holdTimer := tickIf (decide (r.phase = .signon .held)) r.holdTimer
    carrierHold := tickIf r.phase.inCall r.carrierHold
    idleWarning := tickIf (decide (r.phase = .admitted .connected)) r.idleWarning
    exhaustion := tickIf r.phase.isAdmitted r.exhaustion
    hours := tickIf r.phase.isAdmitted r.hours }

/-- The call timer of a port at a second event (R144). -/
def tickPort (p : PortRec) : PortRec := { p with callTimer := tickIf (decide (p.state = .calling)) p.callTimer }

/-- Every timer takes its second. -/
def tickTimers (s : State) : State :=
  { s with
    lc := { s.lc with lines := s.lc.lines.map tickLine }
    pa := { s.pa with ports := s.pa.ports.map tickPort } }

/-! ## The calendar and the latching (R106, R117, R118) -/

/-- Whether the next advance is a minute event: it carries the second from 59 to 0 (R106). -/
def Calendar.minuteNext (c : Calendar) : Bool := decide (59 ≤ c.second)

/-- The calendar advances by one second (R106). -/
def Calendar.advance (c : Calendar) : Calendar :=
  if c.second < 59 then { c with second := c.second + 1 }
  else { c with second := 0, minute := if c.minute + 1 < Config.weekMinutes then c.minute + 1 else 0 }

/-- The tariff swap (R118). -/
def Calendar.swap (c : Calendar) : Calendar :=
  { c with active := c.pendingSet, generation := c.generation + 1, armed := false }

/-- The band a tariff set names for a minute-of-week (R109, R117). The minute-of-week is below 10,080, so its slot is below 336. -/
def TariffSet.bandAt (t : TariffSet) (minute : Nat) : Band := t.schedule.toList.getD (minute / 30) 0

/-- The view of the second now beginning (R117). -/
def Calendar.newView (c : Calendar) : View :=
  { minute := c.minute, second := c.second, band := c.active.bandAt c.minute, generation := c.generation,
    bandRates := c.active.rates.get (c.active.bandAt c.minute), waitRates := c.active.waitRates }

/-- The latching: the current view becomes the previous one (R117). -/
def Calendar.latch (c : Calendar) : Calendar := { c with prevView := c.view, view := c.newView }

/-- The calendar's part of a second event: advance, swap at a minute event if armed, latch (R106, R117, R118). -/
def Calendar.secondEvent (c : Calendar) : Calendar :=
  if c.minuteNext && c.armed then c.advance.swap.latch else c.advance.latch

/-! ## Idle counting (R65) -/

/-- The idle count of a CONNECTED line rises and is compared with the idle limit. R65 compares it at each second event at which it
rises and does not say whether a count that stands at its ceiling of 65,535, and rises no more, is still compared: the model goes on
comparing it (log entry 44, DESIGN CHOICE, unsafe). -/
def countIdle (s : State) (l : LineNo) : State :=
  let r := s.line l
  if r.phase = .admitted .connected then
    let n := satSucc 65535 (r.idleCount.getD 0)
    let s1 := s.modLine l (fun r => { r with idleCount := some n })
    let p := s.policy (s.lineClass l)
    if p.idleLimit ≠ 0 ∧ p.idleLimit * 30 ≤ n ∧ r.idleWarning = none then
      requestMessage (s1.modLine l (fun r => { r with idleWarning := some p.idleWarning })) l 13 p.idleWarning
    else s1
  else s

/-! ## Congestion (R166) -/

/-- The congestion count in LEVEL mode. -/
def countLevel (g : GroupRec) : GroupRec :=
  if g.congestionMode = .level ∧ g.congestionThreshold ≤ g.queue.length then
    { g with congestionCount := satSucc max24 g.congestionCount }
  else g

/-- Every group counts. -/
def countCongestion (s : State) : State := { s with pa := { s.pa with groups := s.pa.groups.map countLevel } }

/-! ## The Meter's steps (R122 to R128) -/

/-- The step of one line under the view of the second just ended. `co` says which lines have a step still to come. -/
def meterStep (co : EndedSecond) (v : View) (s : State) (l : LineNo) : State :=
  match (s.line l).phase, (s.line l).entryRef with
  | .admitted st, some e => meterAction co (chargeSecond s v l e st) e (s.creditOf e)
  | _, _ => s

/-- The closing of the meter charges the ended second of a line whose step is still owed (R123, R132). -/
def owedUnder (v : View) (owed : List LineNo) : EndedSecond := fun l => if owed.contains l then some v else none

/-- The steps of a list of lines, in order; a session that ends at once during another line's step has its second charged by
its own closing unless its step was taken (R123). -/
def meterSteps (v : View) : List LineNo → State → State
  | [], s => s
  | l :: ls, s => meterSteps v ls (meterStep (owedUnder v ls) v s l)

/-- The lines that are owed a step: those in phase ADMITTED when the event is taken (R122). -/
def State.owedSteps (s : State) : List LineNo := allLines.filter (fun l => (s.line l).phase.isAdmitted)

/-- Whether an expiry may be taken while some lines are owed their steps: the Meter takes its own countdowns of a line after the
line's step (R123, R136, R141). -/
def mayExpire (owed : List LineNo) (x : Expiry) : Bool :=
  match x with
  | .exhaustion l => !owed.contains l
  | .hours l => !owed.contains l
  | .answerLimit _ => true
  | .signonLimit _ => true
  | .holdTimer _ => true
  | .selectionLimit _ => true
  | .waitLimit _ => true
  | .escapeLimit _ => true
  | .closingLimit _ => true
  | .guardTime _ => true
  | .carrierHold _ => true
  | .idleWarning _ => true
  | .callTimer _ => true

/-- The lines still owed a step after a moment. -/
def owedAfter (owed : List LineNo) (m : SecondMoment) : List LineNo :=
  match m with
  | .step l => owed.filter (fun k => decide (k ≠ l))
  | .expiry _ => owed
  | .rotationChoice => owed
  | .storeOperationComplete _ => owed

/-- One moment between the latching and the band edge. What the Account Store Controller does there is what its commands do
(R138); a session it ends is not charged for the second of a step it has not taken (R123; log entry 36). -/
def takeMoment (v : View) (owed : List LineNo) (s : State) (m : SecondMoment) : State :=
  match m with
  | .step l => if owed.contains l then meterStep (owedUnder v (owedAfter owed m)) v s l else s
  | .expiry x => if mayExpire owed x then takeExpiry (owedUnder v owed) s x else s
  | .rotationChoice => rotationChoice s
  | .storeOperationComplete writes => storeOperationComplete s writes

/-- The moments a command names, then the steps still owed in ascending order (R131). -/
def takeMoments (v : View) : List LineNo → List SecondMoment → State → State
  | owed, [], s => meterSteps v owed s
  | owed, m :: ms, s => takeMoments v (owedAfter owed m) ms (takeMoment v owed s m)

/-! ## Hours enforcement (R140) -/

/-- One line is judged at a band edge. -/
def judgeHours (b : Band) (s : State) (l : LineNo) : State :=
  if (s.line l).phase.isAdmitted then
    let p := s.policy (s.lineClass l)
    if p.allows b then s.modLine l (fun r => { r with hours := none })
    else
      match (s.line l).hours with
      | some _ => s
      | none =>
        let s1 := requestMessage (s.modLine l (fun r => { r with hours := some p.hoursGrace })) l 12 p.hoursGrace
        if p.hoursGrace = 0 then endCall noSecond s1 l .hours false else s1
  else s

/-- The band edge is handed to the Meter (R119, R140). -/
def takeBandEdge (s : State) : State :=
  if bandEdge s.cal.prevView s.cal.view then allLines.foldl (judgeHours s.cal.view.band) s else s

/-! ## The minute event (R40, R155) -/

/-- Message 5 on one line of a group's queue whose position differs from the announced one (R155). -/
def announcePlace (g : GroupNo) (s : State) (l : LineNo) : State :=
  let queue := (s.group g).queue
  let n := positionOf l queue
  if queue.any (fun q => decide (q.line = l) && decide (q.announced ≠ n)) then
    requestMessage (s.modGroup g (fun x => { x with queue := announce l n x.queue })) l 5 n
  else s

/-- The pass over one group's queue from the head (R155). -/
def announceQueue (s : State) (g : GroupNo) : State :=
  ((s.group g).queue.map (fun q => q.line)).foldl (announcePlace g) s

/-- The work of a minute event: queue positions, and the quarter-hour flush (R40, R155). -/
def minuteEvent (s : State) : State :=
  let s1 := allGroups.foldl announceQueue s
  if s1.cal.view.minute % 15 = 0 then flushEntries s1 else s1

/-! ## The whole event -/

/-- Every expiry there is, in the order in which overdue ones are taken (log entry 4). -/
def allExpiries : List Expiry :=
  allLines.flatMap (fun l =>
    [.carrierHold l, .exhaustion l, .hours l, .idleWarning l, .answerLimit l, .signonLimit l, .holdTimer l,
     .selectionLimit l, .waitLimit l, .escapeLimit l, .closingLimit l, .guardTime l])
  ++ allPorts.map Expiry.callTimer

/-- Expiries still due from an earlier second event are taken before the next (log entry 4). -/
def takeOverdue (s : State) : State := allExpiries.foldl (takeExpiry noSecond) s

/-- The expiries taken ahead of the latching and of the steps: their sessions' ended second is charged by the closing, under
the view of that second (R123). -/
def takeEarly (xs : List Expiry) (s : State) : State :=
  (xs.filter (mayExpire allLines)).foldl (takeExpiry (fun _ => some s.cal.view)) s

/-- The calendar's part on the whole state. -/
def latchSecond (s : State) : State := { s with cal := s.cal.secondEvent }

/-- The second event (R106). -/
def secondEvent (order : SecondOrder) (s : State) : State :=
  let s1 := takeEarly order.early (tickTimers (takeOverdue s))
  let s2 := countCongestion (allLines.foldl countIdle (latchSecond s1))
  let s3 := takeMoments s2.cal.prevView s2.owedSteps order.moments s2
  let s4 := takeBandEdge (order.beforeEdge.foldl (takeExpiry noSecond) s3)
  if s1.cal.minuteNext then minuteEvent s4 else s4

/-- SECOND_EVENT (R106). -/
def execSecondEvent (order : SecondOrder) (s : State) : Host.Outcome State Fault Refusal := .next (secondEvent order s)

end Sys2Proof.Machine
end

