-- ==== Sys2Proof/Machine/TariffRequests.lean ====
section
/-! DEFINITION. The supervisor requests on the calendar and the tariffs (R107, R108, R112 to R116). -/
namespace Sys2Proof.Machine

/-- Act on the Calendar and Tariff Unit. -/
def State.onCal (s : State) (f : Calendar → Calendar) : State := { s with cal := f s.cal }

/-- The band a number names; the checks of R112 allow only 0 to 3. -/
def bandOf (n : Nat) : Band := (fin4? n).getD 0

/-- The bands of a run in the slots from one on (R112). -/
def TariffSet.writeRun (t : TariffSet) (first : Nat) (bands : List Nat) : TariffSet :=
  { t with
    schedule := Vector.ofFn (fun i : Fin 336 =>
      if first ≤ i.val then ((bands[i.val - first]?).map bandOf).getD (t.schedule.get i) else t.schedule.get i) }

/-- The completion of WRITE_SCHEDULE (R112), the cases in their order. -/
def scheduleCode (s : State) (first : Nat) (bands : List Nat) : Code :=
  if bands = [] then .malformed
  else if 335 < first then .outOfRange
  else if bands.any (fun b => decide (3 < b)) then .outOfRange
  else if 335 < first + bands.length - 1 then .malformed
  else if s.cal.armed then .tariffArmed
  else .ok

/-- WRITE_SCHEDULE (R112). -/
def writeSchedule (s : State) (first : Nat) (bands : List Nat) : State :=
  if scheduleCode s first bands = .ok then
    respond (s.onCal (fun c => { c with pendingSet := c.pendingSet.writeRun first bands })) .ok false []
  else respond s (scheduleCode s first bands) false []

/-- The five rates of a class in a tariff set (R113). -/
def TariffSet.writeRates (t : TariffSet) (cls : ClassNo) (rates : List Nat) (waitRate : Nat) : TariffSet :=
  { t with
    rates := Vector.ofFn (fun b : Fin 4 => (t.rates.get b).set cls (rates.getD b.val 0))
    waitRates := t.waitRates.set cls waitRate }

/-- WRITE_RATES (R113). -/
def writeRates (s : State) (cls : Nat) (rates : List Nat) (waitRate : Nat) : State :=
  match fin4? cls with
  | none => respond s .outOfRange false []
  | some c =>
    if s.cal.armed then respond s .tariffArmed false []
    else respond (s.onCal (fun x => { x with pendingSet := x.pendingSet.writeRates c rates waitRate })) .ok false []

/-- An idle limit brought into its range: 0, or 4 to 255 (R114). -/
def clampIdleLimit (n : Nat) : Nat := if n = 0 then 0 else clamp 4 255 n

/-- A policy with the present fields replaced, each brought into its range (R114). -/
def changePolicy (f : PolicyChange) (p : ClassPolicy) : ClassPolicy :=
  { allowedBands := (f.allowedBands.map (BitVec.ofNat 4)).getD p.allowedBands
    queuePriority := (f.queuePriority.map (clamp 0 3)).getD p.queuePriority
    grace := (f.grace.map (clamp 0 255)).getD p.grace
    idleLimit := (f.idleLimit.map clampIdleLimit).getD p.idleLimit
    idleWarning := (f.idleWarning.map (clamp 10 255)).getD p.idleWarning
    exhaustionGrace := (f.exhaustionGrace.map (clamp 0 600)).getD p.exhaustionGrace
    hoursGrace := (f.hoursGrace.map (clamp 0 600)).getD p.hoursGrace }

/-- Whether any present field of a policy change is clamped (R114). -/
def policyClamps (f : PolicyChange) : Bool :=
  (f.queuePriority.map (clamps 0 3)).getD false || (f.grace.map (clamps 0 255)).getD false
    || (f.idleLimit.map (fun n => decide (n ≠ clampIdleLimit n))).getD false
    || (f.idleWarning.map (clamps 10 255)).getD false
    || (f.exhaustionGrace.map (clamps 0 600)).getD false || (f.hoursGrace.map (clamps 0 600)).getD false

/-- A class's policy in a tariff set. -/
def TariffSet.setPolicy (t : TariffSet) (cls : ClassNo) (p : ClassPolicy) : TariffSet :=
  { t with policies := t.policies.set cls p }

/-- WRITE_CLASS (R114). -/
def writeClass (s : State) (cls : Nat) (f : PolicyChange) : State :=
  match fin4? cls with
  | none => respond s .outOfRange false []
  | some c =>
    if (f.allowedBands.map (fun b => decide (15 < b))).getD false then respond s .outOfRange false []
    else if s.cal.armed then respond s .tariffArmed false []
    else
      let p := changePolicy f (s.cal.pendingSet.policies.get c)
      respond (s.onCal (fun x => { x with pendingSet := x.pendingSet.setPolicy c p })) .ok (policyClamps f) (policyBytes p)

/-- The arm flag and the tariff generation, as ARM_TARIFF and READ_TARIFF carry them. -/
def armBytes (c : Calendar) : List Byte := [flagByte c.armed, c.generation]

/-- The state after an action of ARM_TARIFF that changes it (R115). -/
def respondArm (s : State) (code : Code) : State := respond s code false (armBytes s.cal)

/-- ARM_TARIFF (R115). -/
def armTariff (s : State) (action : Nat) : State :=
  match action with
  | 0 => respondArm (s.onCal (fun c => { c with armed := true })) .ok
  | 1 => respondArm (s.onCal (fun c => { c with armed := false })) .ok
  | 2 =>
    if s.cal.armed then respondArm s .tariffArmed
    else respondArm (s.onCal (fun c => { c with pendingSet := c.active })) .ok
  | _ => respondArm s .malformed

/-- The copy a number names (R116). -/
def tariffCopy? (c : Calendar) (copy : Nat) : Option TariffSet :=
  match copy with
  | 0 => some c.active
  | 1 => some c.pendingSet
  | _ => none

/-- The number of bands READ_TARIFF SCHEDULE asks for: 0 is taken as 78 (R116). -/
def scheduleCount (count : Nat) : Nat := if count = 0 then 78 else min count 78

/-- READ_TARIFF SCHEDULE (R116). -/
def readSchedule (s : State) (copy first count : Nat) : State :=
  match tariffCopy? s.cal copy with
  | none => respond s .malformed false []
  | some t =>
    if 335 < first then respond s .outOfRange false []
    else
      respond s .ok (decide (78 < count))
        (armBytes s.cal ++ ((t.schedule.toList.drop first).take (scheduleCount count)).map (fun b => BitVec.ofNat 8 b.val))

/-- READ_TARIFF RATES (R116). -/
def readRates (s : State) (copy cls : Nat) : State :=
  match tariffCopy? s.cal copy, fin4? cls with
  | none, _ => respond s .malformed false []
  | some _, none => respond s .outOfRange false []
  | some t, some c =>
    respond s .ok false (armBytes s.cal ++ t.rates.toList.flatMap (fun b => beBytes 2 (b.get c)) ++ beBytes 2 (t.waitRates.get c))

/-- READ_TARIFF CLASS (R116). -/
def readClass (s : State) (copy cls : Nat) : State :=
  match tariffCopy? s.cal copy, fin4? cls with
  | none, _ => respond s .malformed false []
  | some _, none => respond s .outOfRange false []
  | some t, some c => respond s .ok false (armBytes s.cal ++ policyBytes (t.policies.get c))

/-- The calendar after SET_CLOCK (R107). -/
def Calendar.setClock (c : Calendar) (minute second : Nat) : Calendar :=
  { c with minute := clamp 0 10079 minute, second := clamp 0 59 second, clockSet := true }

/-- SET_CLOCK (R107). -/
def setClock (s : State) (minute second : Nat) : State :=
  respond (s.onCal (fun c => c.setClock minute second)) .ok (clamps 0 10079 minute || clamps 0 59 second) []

/-- READ_CLOCK (R108, R207). -/
def readClock (s : State) : State :=
  respond s .ok false
    (beBytes 2 s.cal.minute ++ [BitVec.ofNat 8 s.cal.second, flagByte s.cal.clockSet, BitVec.ofNat 8 s.cal.view.band.val,
      s.cal.view.generation, flagByte s.cal.armed])

end Sys2Proof.Machine
end

