-- ==== Sys2Proof/Machine/LineRequests.lean ====
section
/-! DEFINITION. The supervisor requests on lines, messages, watches and verdicts (R66, R72 to R76, R98, R99, R104). -/
namespace Sys2Proof.Machine

/-! ## Line parameters and messages -/

/-- The parameters with the present ones replaced, each set to the nearer end of its range (R72). -/
def changeParams (f : LineParamChange) (p : LineParams) : LineParams :=
  { acceptingCalls := (f.acceptingCalls.map (fun n => decide (n ≠ 0))).getD p.acceptingCalls
    busyOut := (f.busyOut.map (clamp 0 96)).getD p.busyOut
    answerLimit := (f.answerLimit.map (clamp 10 60)).getD p.answerLimit
    carrierHold := (f.carrierHold.map (clamp 0 15)).getD p.carrierHold
    signonLimit := (f.signonLimit.map (clamp 30 255)).getD p.signonLimit
    attemptsPerCall := (f.attemptsPerCall.map (clamp 1 5)).getD p.attemptsPerCall
    lockoutThreshold := (f.lockoutThreshold.map (clamp 0 15)).getD p.lockoutThreshold
    holdLimit := (f.holdLimit.map (clamp 10 255)).getD p.holdLimit
    selectionLimit := (f.selectionLimit.map (clamp 15 255)).getD p.selectionLimit
    callLimit := (f.callLimit.map (clamp 5 60)).getD p.callLimit
    escapeKey := (f.escapeKey.map (clamp 0 127)).getD p.escapeKey
    escapeMask := (f.escapeMask.map (clamp 0 127)).getD p.escapeMask }

/-- Whether any present parameter is clamped (R72). -/
def paramsClamp (f : LineParamChange) : Bool :=
  (f.busyOut.map (clamps 0 96)).getD false || (f.answerLimit.map (clamps 10 60)).getD false
    || (f.carrierHold.map (clamps 0 15)).getD false || (f.signonLimit.map (clamps 30 255)).getD false
    || (f.attemptsPerCall.map (clamps 1 5)).getD false || (f.lockoutThreshold.map (clamps 0 15)).getD false
    || (f.holdLimit.map (clamps 10 255)).getD false || (f.selectionLimit.map (clamps 15 255)).getD false
    || (f.callLimit.map (clamps 5 60)).getD false || (f.escapeKey.map (clamps 0 127)).getD false
    || (f.escapeMask.map (clamps 0 127)).getD false

/-- SET_LINE_PARAMETERS (R72). -/
def setLineParams (s : State) (f : LineParamChange) : State :=
  let p := changeParams f s.lc.params
  respond (s.onLines (fun c => { c with params := p })) .ok (paramsClamp f) (paramBytes p)

/-- WRITE_MESSAGE (R66). -/
def writeMessage (s : State) (message : Nat) (text : List Byte) : State :=
  match msgNo? message with
  | none => respond s .outOfRange false []
  | some m =>
    respond (s.onLines (fun c => { c with messages := c.messages.set m (text.take Config.maxMessageLength) })) .ok
      (decide (Config.maxMessageLength < text.length)) []

/-! ## Requests that name a line -/

/-- A request that names a line, OUT_OF_RANGE above 95. -/
def onLineRequest (s : State) (line : Nat) (f : LineNo → State) : State :=
  match lineNo? line with
  | none => respond s .outOfRange false []
  | some l => f l

/-- LINE_SERVICE out (R73). -/
def lineOut (s : State) (l : LineNo) : State :=
  match (s.line l).phase with
  | .down => s
  | .idle => s.modLine l (fun r => { r with phase := .down })
  | .answering => (endCall noSecond s l .supervisor false).modLine l (fun r => { r with outOfService := true })
  | .signon _ => (endCall noSecond s l .supervisor false).modLine l (fun r => { r with outOfService := true })
  | .admitted _ => (endCall noSecond s l .supervisor false).modLine l (fun r => { r with outOfService := true })
  | .closing => s.modLine l (fun r => { r with outOfService := true })
  | .guard => s.modLine l (fun r => { r with outOfService := true })

/-- LINE_SERVICE in (R73). -/
def lineIn (s : State) (l : LineNo) : State :=
  match (s.line l).phase with
  | .down => s.modLine l (fun r => { r with phase := .idle })
  | .idle => s
  | .answering => s.modLine l (fun r => { r with outOfService := false })
  | .signon _ => s.modLine l (fun r => { r with outOfService := false })
  | .admitted _ => s.modLine l (fun r => { r with outOfService := false })
  | .closing => s.modLine l (fun r => { r with outOfService := false })
  | .guard => s.modLine l (fun r => { r with outOfService := false })

/-- LINE_SERVICE (R73). -/
def lineService (s : State) (line direction : Nat) : State :=
  onLineRequest s line (fun l =>
    match direction with
    | 0 => respond (lineOut s l) .ok false []
    | 1 => respond (lineIn s l) .ok false []
    | _ => respond s .malformed false [])

/-- FORCE_END on a line (R74). -/
def forceEndLine (s : State) (l : LineNo) : State :=
  match (s.line l).phase with
  | .answering => respond (endCall noSecond s l .supervisor false) .ok false []
  | .signon _ => respond (endCall noSecond s l .supervisor false) .ok false []
  | .admitted _ => respond (endCall noSecond s l .supervisor false) .ok false []
  | .closing => respond (s.onLines (fun c => c.release l)) .ok false []
  | .idle => respond s .wrongState false []
  | .down => respond s .wrongState false []
  | .guard => respond s .wrongState false []

/-- FORCE_END (R74). -/
def forceEnd (s : State) (line : Nat) : State := onLineRequest s line (forceEndLine s)

/-- READ_LINE (R76). -/
def readLine (s : State) (line : Nat) : State :=
  onLineRequest s line (fun l =>
    respond (s.modLine l (fun r => { r with echoSuppressed := false, overrun := false })) .ok false (lineImage (s.line l)))

/-- CLEAR_SUMMARY (R76). -/
def clearSummary (s : State) (line : Nat) : State :=
  onLineRequest s line (fun l => respond (s.modLine l (fun r => { r with summary := none })) .ok false [])

/-! ## Verdicts (R98, R99) -/

/-- An ADMIT verdict on a HELD line (R99). -/
def verdictAdmit (s : State) (l : LineNo) : State :=
  let s1 := (leaveHeld s l).modLine l (fun r => { r with verdictGiven := true })
  handOver s1 l .admitting ((s.line l).account.getD 0) .admitOp

/-- A REFUSE verdict on a HELD line (R97). -/
def verdictRefuse (s : State) (l : LineNo) : State := attemptFailed noSecond (leaveHeld s l) l 5

/-- A verdict on a line, WRONG_STATE where it is not HELD (R98). -/
def verdictOn (s : State) (l : LineNo) (act : State → LineNo → State) : State :=
  if (s.line l).phase = .signon .held then respond (act s l) .ok false [] else respond s .wrongState false []

/-- VERDICT (R98). -/
def verdict (s : State) (line v : Nat) : State :=
  onLineRequest s line (fun l =>
    match v with
    | 0 => verdictOn s l verdictAdmit
    | 1 => verdictOn s l verdictRefuse
    | _ => respond s .malformed false [])

/-! ## Watches (R104) -/

/-- The action a number names. -/
def watchAction? (n : Nat) : Option WatchAction :=
  match n with
  | 0 => some .note
  | 1 => some .hold
  | _ => none

/-- An account bound of a watch brought into 1 to 9,999,999 (R104). -/
def clampAccount (n : Nat) : Nat := clamp 1 maxAccount n

/-- SET_WATCH (R104); its checks in the order of the rule (log entry 37). -/
def setWatch (s : State) (watch low high kinds action : Nat) : State :=
  let clamped := clamps 1 maxAccount low || clamps 1 maxAccount high
  match fin4? watch, watchAction? action with
  | none, _ => respond s .outOfRange false []
  | some _, none => respond s .malformed false []
  | some w, some a =>
    if 7 < kinds then respond s .malformed false []
    else if clampAccount high < clampAccount low then respond s .malformed clamped []
    else
      respond (s.modWatch w (fun _ =>
        { inUse := true, low := clampAccount low, high := clampAccount high, kinds := BitVec.ofNat 3 kinds, action := a,
          hits := 0, lastHit := none })) .ok clamped []

/-- CLEAR_WATCH (R104). -/
def clearWatch (s : State) (watch : Nat) : State :=
  match fin4? watch with
  | none => respond s .outOfRange false []
  | some w => respond (s.modWatch w (fun x => { x with inUse := false, hits := 0, lastHit := none })) .ok false []

/-- READ_WATCH (R104). -/
def readWatch (s : State) (watch : Nat) : State :=
  match fin4? watch with
  | none => respond s .outOfRange false []
  | some w => respond s .ok false (watchBytes (s.watches.get w))

end Sys2Proof.Machine
end

