-- ==== Sys2Proof/Machine/PortRequests.lean ====
section
/-! DEFINITION. The supervisor requests on ports and groups, and TAKE_ATTENTION and DESCRIBE (R162 to R167, R204, R205). -/
namespace Sys2Proof.Machine

/-! ## Ports -/

/-- A request that names a port, OUT_OF_RANGE above 63. -/
def onPortRequest (s : State) (port : Nat) (f : PortNo → State) : State :=
  match portNo? port with
  | none => respond s .outOfRange false []
  | some p => f p

/-- The role a number names. -/
def portRole? (n : Nat) : Option PortRole :=
  match n with
  | 0 => some .ordinary
  | 1 => some .spare
  | _ => none

/-- CONFIGURE_PORT (R162). -/
def configurePort (s : State) (port group role : Nat) : State :=
  onPortRequest s port (fun p =>
    match optGroup? group, portRole? role with
    | none, _ => respond s .outOfRange false []
    | some _, none => respond s .malformed false []
    | some g, some r =>
      if (s.port p).state = .outOfService then respond (s.modPort p (fun x => { x with group := g, role := r })) .ok false []
      else respond s .wrongState false [])

/-- PORT_SERVICE out (R163). -/
def portOut (s : State) (p : PortNo) : State :=
  match (s.port p).state with
  | .outOfService => s
  | .notReady => s.modPort p (fun x => { x with state := .outOfService })
  | .free => s.modPort p (fun x => { x with state := .outOfService })
  | .faulted => s.modPort p (fun x => { x with state := .outOfService, faultCause := none })
  | .calling => failCall noSecond s p none
  | .inUse =>
    match (s.port p).line with
    | none => s
    | some l => endCall noSecond s l .supervisor true

/-- PORT_SERVICE in (R163). -/
def portIn (s : State) (p : PortNo) : State :=
  match (s.port p).state with
  | .outOfService => portByReady s p
  | .notReady => s
  | .free => s
  | .calling => s
  | .inUse => s
  | .faulted => s

/-- PORT_SERVICE (R163). -/
def portService (s : State) (port direction : Nat) : State :=
  onPortRequest s port (fun p =>
    match direction with
    | 0 => respond (portOut s p) .ok false []
    | 1 => respond (portIn s p) .ok false []
    | _ => respond s .malformed false [])

/-- RETURN_PORT (R164). -/
def returnPort (s : State) (port : Nat) : State :=
  onPortRequest s port (fun p =>
    if (s.port p).state = .faulted then
      respond (portByReady (s.modPort p (fun x => { x with faultCause := none })) p) .ok false []
    else respond s .wrongState false [])

/-- READ_PORT (R167). -/
def readPort (s : State) (port : Nat) : State :=
  onPortRequest s port (fun p => respond s .ok false (portImage (s.port p)))

/-! ## Groups -/

/-- A request that names a group, OUT_OF_RANGE for 0 and above 6. -/
def onGroupRequest (s : State) (group : Nat) (f : GroupNo → State) : State :=
  match groupNo? group with
  | none => respond s .outOfRange false []
  | some g => f g

/-- The congestion mode a number names. -/
def congestionMode? (n : Nat) : Option CongestionMode :=
  match n with
  | 0 => some .level
  | 1 => some .edge
  | _ => none

/-- A group with the present settings replaced, each set to the nearer end of its range (R165). -/
def changeGroup (f : GroupChange) (g : GroupRec) : GroupRec :=
  { g with
    queueLimit := (f.queueLimit.map (clamp 0 96)).getD g.queueLimit
    waitLimit := (f.waitLimit.map (clamp 0 60)).getD g.waitLimit
    failoverAllowance := (f.failoverAllowance.map (clamp 0 255)).getD g.failoverAllowance
    congestionMode := (f.congestionMode.bind congestionMode?).getD g.congestionMode
    congestionThreshold := (f.congestionThreshold.map (clamp 1 96)).getD g.congestionThreshold }

/-- Whether any present setting is clamped (R165). -/
def groupClamps (f : GroupChange) : Bool :=
  (f.queueLimit.map (clamps 0 96)).getD false || (f.waitLimit.map (clamps 0 60)).getD false
    || (f.failoverAllowance.map (clamps 0 255)).getD false || (f.congestionThreshold.map (clamps 1 96)).getD false

/-- SET_GROUP (R165). -/
def setGroup (s : State) (group : Nat) (f : GroupChange) : State :=
  onGroupRequest s group (fun g =>
    if (f.congestionMode.map (fun n => decide (1 < n))).getD false then respond s .malformed false []
    else
      let x := changeGroup f (s.group g)
      respond (s.modGroup g (fun _ => x)) .ok (groupClamps f) (groupSettings x))

/-- READ_GROUP (R167). -/
def readGroup (s : State) (group : Nat) : State :=
  onGroupRequest s group (fun g => respond s .ok false (groupImage (s.group g)))

/-- CLEAR_COUNTERS (R166). -/
def clearCounters (s : State) (group : Nat) : State :=
  onGroupRequest s group (fun g =>
    respond (s.modGroup g (fun x => { x with congestionCount := 0, refusedCount := 0 })) .ok false (groupCounters (s.group g)))

/-! ## The attention set (R204) -/

/-- The HOLD item of the lowest line. -/
def Attention.firstHold (a : Attention) : Option LineNo := allLines.find? (fun l => a.hold.get l)

/-- The PORT_FAULT item of the lowest port, with its cause. -/
def Attention.firstPortFault (a : Attention) : Option (PortNo × FaultCause) :=
  allPorts.findSome? (fun p => (a.portFault.get p).map (fun c => (p, c)))

/-- The FAILOVER_SPENT item of the lowest group. -/
def Attention.firstFailoverSpent (a : Attention) : Option GroupNo := allGroups.find? (fun g => a.failoverSpent.get g)

/-- The NOTE item of the lowest line. -/
def Attention.firstNote (a : Attention) : Option LineNo := allLines.find? (fun l => decide (a.notes.get l ≠ 0))

/-- The take from the kinds after ACCOUNT (R204). -/
def Attention.takeLate (a : Attention) : Attention × List Byte :=
  match a.firstFailoverSpent with
  | some g => ({ a with failoverSpent := a.failoverSpent.set g false }, [4, BitVec.ofNat 8 (g.val + 1)])
  | none =>
    match a.firstNote with
    | some l => ({ a with notes := a.notes.set l 0 }, [5, BitVec.ofNat 8 l.val, (a.notes.get l).setWidth 8])
    | none => (a, [0])

/-- One item is removed and returned (R204): the set after the take, and the item record. -/
def Attention.take (a : Attention) : Attention × List Byte :=
  match a.firstHold with
  | some l => ({ a with hold := a.hold.set l false }, [1, BitVec.ofNat 8 l.val])
  | none =>
    match a.firstPortFault with
    | some (p, c) => ({ a with portFault := a.portFault.set p none }, [2, BitVec.ofNat 8 p.val, faultByte c])
    | none =>
      match a.accounts with
      | i :: is =>
        ({ a with accounts := is, overflow := a.overflow && !is.isEmpty },
          3 :: (beBytes 3 i.account ++ [i.causes.setWidth 8, flagByte a.overflow]))
      | [] => a.takeLate

/-- TAKE_ATTENTION (R204). -/
def takeAttention (s : State) : State :=
  respond (s.onAttention (fun a => a.take.1)) .ok false s.attn.take.2

/-! ## DESCRIBE (R205) -/

/-- The attachment state as a byte. -/
def attachmentByte (a : Attachment) : Byte :=
  match a with
  | .noStore => 0
  | .attaching => 1
  | .attached => 2

/-- The result of DESCRIBE (R205, R207). -/
def describeBytes (s : State) : List Byte :=
  [0x0A, 0x60, 1, 96, 64, 112, attachmentByte s.ctl.attachment] ++ beBytes 2 s.ctl.capacity ++ beBytes 2 s.ctl.inUse
    ++ beBytes 2 s.ctl.vacated ++ [flagByte s.ctl.uncertain, flagByte s.cal.clockSet]

/-- DESCRIBE (R205). -/
def describe (s : State) : State := respond s .ok false (describeBytes s)

end Sys2Proof.Machine
end

