-- ==== Sys2Proof/Machine/SupervisorPort.lean ====
section
/-! DEFINITION. The supervisor port: accepting a request, its checks, and carrying it out (R15, R198 to R200). -/
namespace Sys2Proof.Machine

/-! ## Acceptance checks of store requests (R15) -/

/-- The account number a store request names, with the code it completes with where the number is out of range (R15, check 3). -/
def namedAccount (r : StoreReq) : Option (Nat × Code) :=
  match r with
  | .attach _ _ => none
  | .add p => some (p.account, .malformed)
  | .setPassword n _ => some (n, .notFound)
  | .change n _ => some (n, .notFound)
  | .grant n _ => some (n, .notFound)
  | .revoke n _ => some (n, .notFound)
  | .forgive n => some (n, .notFound)
  | .readAccount n => some (n, .notFound)
  | .readSlots _ _ => none
  | .readAndClear n => some (n, .notFound)
  | .replace _ image => if imageByte image 0 = 1 ∨ imageByte image 0 = 2 then some (imageNat image 2 3, .malformed) else none
  | .retire n => some (n, .notFound)
  | .flush => none
  | .discard n => some (n, .notFound)
  | .restart => none

/-- Check 3 of R15. -/
def accountCheck (r : StoreReq) : Option Code :=
  match namedAccount r with
  | none => none
  | some (n, code) => if 1 ≤ n ∧ n ≤ maxAccount then none else some code

/-- Whether an optional number is above a bound. -/
def above (bound : Nat) (n : Option Nat) : Bool := (n.map (fun n => decide (bound < n))).getD false

/-- Check 4 of R15: class, group and slot numbers. A permitted group above 6 is a group number out of range (log entry 16). -/
def identifiersOutOfRange (s : State) (r : StoreReq) : Bool :=
  match r with
  | .add p => decide (3 < p.cls) || decide (63 < p.permitted) || decide (6 < p.defaultGroup)
  | .change _ f => above 3 f.cls || above 63 f.permitted || above 6 f.defaultGroup
  | .readSlots first _ => decide (s.ctl.capacity ≤ first)
  | .replace slot _ => decide (s.ctl.capacity ≤ slot)
  | .attach _ _ => false
  | .setPassword _ _ => false
  | .grant _ _ => false
  | .revoke _ _ => false
  | .forgive _ => false
  | .readAccount _ => false
  | .readAndClear _ => false
  | .retire _ => false
  | .flush => false
  | .discard _ => false
  | .restart => false

/-- Whether an image is MALFORMED for REPLACE_SLOT (R24). -/
def imageMalformed (image : List Byte) : Bool :=
  match imageView image with
  | .damaged => true
  | .empty => false
  | .inUse _ a => decide (0 < a.allotment) && decide (0 < a.overdraft)
  | .vacated _ a => decide (0 < a.allotment) && decide (0 < a.overdraft)

/-- The request's own checks that complete it with MALFORMED (R17, R18, R24; log entry 19). -/
def ownCheckFails (r : StoreReq) : Bool :=
  match r with
  | .setPassword _ chars => (decide (0 < chars.length) && decide (chars.length < 4)) || chars.any (fun c => !passwordChar c)
  | .change _ f => (f.status.map (fun n => decide (n ≠ 0) && decide (n ≠ 2))).getD false
  | .replace _ image => imageMalformed image
  | .attach _ _ => false
  | .add _ => false
  | .grant _ _ => false
  | .revoke _ _ => false
  | .forgive _ => false
  | .readAccount _ => false
  | .readSlots _ _ => false
  | .readAndClear _ => false
  | .retire _ => false
  | .flush => false
  | .discard _ => false
  | .restart => false

/-- The acceptance checks of every store request but ATTACH_STORE and RESTART, in the order of R15. -/
def accountAcceptance (s : State) (r : StoreReq) : Option Code :=
  if s.ctl.attachment = .noStore then some .noStore
  else
    match accountCheck r with
    | some c => some c
    | none =>
      if identifiersOutOfRange s r then some .outOfRange else if ownCheckFails r then some .malformed else none

/-- The code a store request completes with at its acceptance; none where it goes on to wait in the rotation (R15, R200). A clear
option other than 0 and 1 is an enumerated value outside its encoding (R207; log entry 20). -/
def acceptanceCode (s : State) (r : StoreReq) : Option Code :=
  match r with
  | .attach _ clear => if clear ≤ 1 then none else some .malformed
  | .restart => none
  | r => accountAcceptance s r

/-- A store request is checked, and waits in the supervisor class of the rotation if it passes (R9, R200). -/
def acceptStore (s : State) (r : StoreReq) : State :=
  match acceptanceCode s r with
  | some c => respond s c false []
  | none => s.onCtl (fun c => { c with waiting := some r })

/-! ## Requests that complete at once (R200) -/

/-- A request that completes at once is carried out by the block that owns its state. -/
def carryOutQuick (s : State) (q : QuickReq) : State :=
  match q with
  | .writeSchedule first bands => writeSchedule s first bands
  | .writeRates cls rates wait => writeRates s cls rates wait
  | .writeClass cls f => writeClass s cls f
  | .armTariff action => armTariff s action
  | .readSchedule copy first count => readSchedule s copy first count
  | .readRates copy cls => readRates s copy cls
  | .readClass copy cls => readClass s copy cls
  | .setClock minute second => setClock s minute second
  | .readClock => readClock s
  | .setLineParams f => setLineParams s f
  | .lineService line direction => lineService s line direction
  | .forceEnd line => forceEnd s line
  | .readLine line => readLine s line
  | .clearSummary line => clearSummary s line
  | .writeMessage message text => writeMessage s message text
  | .configurePort port group role => configurePort s port group role
  | .portService port direction => portService s port direction
  | .returnPort port => returnPort s port
  | .setGroup group f => setGroup s group f
  | .readPort port => readPort s port
  | .readGroup group => readGroup s group
  | .clearCounters group => clearCounters s group
  | .setWatch watch low high kinds action => setWatch s watch low high kinds action
  | .clearWatch watch => clearWatch s watch
  | .readWatch watch => readWatch s watch
  | .verdict line v => verdict s line v
  | .takeAttention => takeAttention s
  | .describe => describe s

/-- An accepted request is carried out according to its kind (R200). -/
def carryOut (s : State) (r : Request) : State :=
  match r with
  | .store r => acceptStore s r
  | .quick q => carryOutQuick s q

/-! ## Acceptance (R199) -/

/-- Act on the Supervisor Port. -/
def State.onSup (s : State) (f : SupPort → SupPort) : State := { s with sup := f s.sup }

/-- A frame is rejected: it is discarded and REJECTED is set. -/
def rejectFrame (s : State) : State := s.onSup (fun p => { p with request := [], received := 0, rejected := true })

/-- A frame is accepted: REJECTED is cleared, an unread response is discarded, BUSY is set, and the buffer is emptied. -/
def acceptFrame (s : State) : State :=
  s.onSup (fun p =>
    { p with
      request := [], received := 0, response := [], readPos := 0, rejected := false, ready := false, busy := true })

/-- A completed frame is acted on according to BUSY. -/
def onFrame (s : State) (act : State → State) : State := if s.sup.busy then rejectFrame s else act (acceptFrame s)

/-- Whether the frame of a request has a parameter length the request admits (R199, check 2): its runs and lists are of an
admitted length. -/
def requestLengthFits (r : Request) : Bool :=
  match r with
  | .store (.setPassword _ chars) => decide (chars.length ≤ 8)
  | .store (.replace _ image) => decide (image.length = 40)
  | .quick (.writeSchedule _ bands) => decide (1 ≤ bands.length) && decide (bands.length ≤ Config.maxScheduleRun)
  | .quick (.writeRates _ rates _) => decide (rates.length = 4)
  | .quick (.writeMessage _ text) => decide (text.length < Config.maxParameterLength)
  | _ => true

/-- An accepted request is checked for its parameter length and carried out (R199, R200). -/
def checkAndCarryOut (s : State) (r : Request) : State :=
  if requestLengthFits r then carryOut s r else respond s .malformed false []

/-- A frame that carries a request completes (log entry 3). -/
def submit (s : State) (r : Request) : State := onFrame s (fun s => checkAndCarryOut s r)

/-! ## Frames (R198, R199, R207) -/

/-- The request codes of the summary (chapter 10). -/
def requestCodes : List Nat :=
  [0x10, 0x11, 0x12, 0x13, 0x14, 0x15, 0x16, 0x17, 0x18, 0x19, 0x1A, 0x1B, 0x1C, 0x1D]
  ++ [0x20, 0x21, 0x22, 0x23, 0x24, 0x25, 0x26]
  ++ [0x30, 0x31, 0x32, 0x33, 0x34, 0x35]
  ++ [0x40, 0x41, 0x42, 0x43, 0x44, 0x45, 0x46]
  ++ [0x50, 0x51, 0x52, 0x53] ++ [0x60, 0x61, 0x62]

/-- Parameters of fixed sizes, most significant byte first; none where the length does not fit. -/
def fixedFields : List Nat → List Byte → Option (List Nat)
  | [], bs => if bs = [] then some [] else none
  | k :: ks, bs => if bs.length < k then none else (fixedFields ks (bs.drop k)).map (fun ns => beNat (bs.take k) :: ns)

/-- Optional fields of given sizes after a presence field; none where the length is not exactly that of the fields present, or a
presence bit beyond the last field is set: R207 makes that MALFORMED, and the model judges it with the length, ahead of NO_STORE,
NOT_FOUND and OUT_OF_RANGE (log entry 42, DEDUCED). -/
def presentFields : List Nat → Nat → List Byte → Option (List (Option Nat))
  | [], presence, bs => if presence = 0 ∧ bs = [] then some [] else none
  | k :: ks, presence, bs =>
    if presence % 2 = 1 then
      if bs.length < k then none
      else (presentFields ks (presence / 2) (bs.drop k)).map (fun ns => some (beNat (bs.take k)) :: ns)
    else (presentFields ks (presence / 2) bs).map (fun ns => none :: ns)

/-- The k-th optional field. -/
def optField (fs : List (Option Nat)) (k : Nat) : Option Nat := (fs[k]?).join

/-- A request of one account number. -/
def parseAccount (bs : List Byte) (f : Nat → StoreReq) : Option Request :=
  match fixedFields [3] bs with
  | some [n] => some (.store (f n))
  | _ => none

/-- A request of one byte. -/
def parseByte (bs : List Byte) (f : Nat → QuickReq) : Option Request :=
  match fixedFields [1] bs with
  | some [n] => some (.quick (f n))
  | _ => none

/-- A request of two bytes. -/
def parseTwo (bs : List Byte) (f : Nat → Nat → QuickReq) : Option Request :=
  match fixedFields [1, 1] bs with
  | some [a, b] => some (.quick (f a b))
  | _ => none

/-- A request without parameters. -/
def parseNone (bs : List Byte) (r : Request) : Option Request := if bs = [] then some r else none

/-- The parameters of a store request (chapter 10, codes 10 to 1D hex and 62 hex). -/
def parseStore (code : Nat) (bs : List Byte) : Option Request :=
  match code with
  | 0x10 => match fixedFields [1, 1] bs with
    | some [size, clear] => some (.store (.attach size clear))
    | _ => none
  | 0x11 => match fixedFields [3, 1, 1, 1, 1, 3, 2] bs with
    | some [n, cls, limit, permitted, group, allotment, low] =>
      some (.store (.add { account := n, cls := cls, sessionLimit := limit, permitted := permitted, defaultGroup := group,
                           allotment := allotment, lowThreshold := low }))
    | _ => none
  | 0x12 => if 3 ≤ bs.length ∧ bs.length ≤ 11 then some (.store (.setPassword (beNat (bs.take 3)) (bs.drop 3))) else none
  | 0x13 =>
    if bs.length < 4 then none
    else (presentFields [1, 1, 1, 1, 2, 1] (beNat ((bs.drop 3).take 1)) (bs.drop 4)).map (fun fs =>
      .store (.change (beNat (bs.take 3))
        { cls := optField fs 0, sessionLimit := optField fs 1, permitted := optField fs 2, defaultGroup := optField fs 3,
          lowThreshold := optField fs 4, status := optField fs 5 }))
  | 0x14 => match fixedFields [3, 3] bs with
    | some [n, amount] => some (.store (.grant n amount))
    | _ => none
  | 0x15 => match fixedFields [3, 3] bs with
    | some [n, amount] => some (.store (.revoke n amount))
    | _ => none
  | 0x16 => parseAccount bs .forgive
  | 0x17 => parseAccount bs .readAccount
  | 0x18 => match fixedFields [2, 1] bs with
    | some [first, count] => some (.store (.readSlots first count))
    | _ => none
  | 0x19 => parseAccount bs .readAndClear
  | 0x1A => if bs.length = 42 then some (.store (.replace (beNat (bs.take 2)) (bs.drop 2))) else none
  | 0x1B => parseAccount bs .retire
  | 0x1C => parseNone bs (.store .flush)
  | 0x1D => parseAccount bs .discard
  | 0x62 => parseNone bs (.store .restart)
  | _ => none

/-- The parameters of a request on the calendar or the tariffs (codes 20 to 26 hex). -/
def parseTariff (code : Nat) (bs : List Byte) : Option Request :=
  match code with
  | 0x20 =>
    if 3 ≤ bs.length ∧ bs.length ≤ 2 + Config.maxScheduleRun then
      some (.quick (.writeSchedule (beNat (bs.take 2)) ((bs.drop 2).map BitVec.toNat))) else none
  | 0x21 => match fixedFields [1, 2, 2, 2, 2, 2] bs with
    | some [cls, a, b, c, d, wait] => some (.quick (.writeRates cls [a, b, c, d] wait))
    | _ => none
  | 0x22 =>
    if bs.length < 2 then none
    else (presentFields [1, 1, 2, 2, 2, 2, 2] (beNat ((bs.drop 1).take 1)) (bs.drop 2)).map (fun fs =>
      .quick (.writeClass (beNat (bs.take 1))
        { allowedBands := optField fs 0, queuePriority := optField fs 1, grace := optField fs 2, idleLimit := optField fs 3,
          idleWarning := optField fs 4, exhaustionGrace := optField fs 5, hoursGrace := optField fs 6 }))
  | 0x23 => parseByte bs .armTariff
  | 0x24 =>
    match bs with
    | copy :: part :: rest =>
      match part.toNat, rest with
      | 0, [hi, lo, count] => some (.quick (.readSchedule copy.toNat (hi.toNat * 256 + lo.toNat) count.toNat))
      | 1, [cls] => some (.quick (.readRates copy.toNat cls.toNat))
      | 2, [cls] => some (.quick (.readClass copy.toNat cls.toNat))
      | _, _ => none
    | _ => none
  | 0x25 => match fixedFields [2, 1] bs with
    | some [minute, second] => some (.quick (.setClock minute second))
    | _ => none
  | 0x26 => parseNone bs (.quick .readClock)
  | _ => none

/-- The parameters of a request on lines or messages (codes 30 to 35 hex). -/
def parseLine (code : Nat) (bs : List Byte) : Option Request :=
  match code with
  | 0x30 =>
    if bs.length < 2 then none
    else (presentFields (List.replicate 12 1) (beNat (bs.take 2)) (bs.drop 2)).map (fun fs =>
      .quick (.setLineParams
        { acceptingCalls := optField fs 0, busyOut := optField fs 1, answerLimit := optField fs 2,
          carrierHold := optField fs 3, signonLimit := optField fs 4, attemptsPerCall := optField fs 5,
          lockoutThreshold := optField fs 6, holdLimit := optField fs 7, selectionLimit := optField fs 8,
          callLimit := optField fs 9, escapeKey := optField fs 10, escapeMask := optField fs 11 }))
  | 0x31 => parseTwo bs .lineService
  | 0x32 => parseByte bs .forceEnd
  | 0x33 => parseByte bs .readLine
  | 0x34 => parseByte bs .clearSummary
  | 0x35 =>
    if 1 ≤ bs.length ∧ bs.length ≤ Config.maxParameterLength then
      some (.quick (.writeMessage (beNat (bs.take 1)) (bs.drop 1))) else none
  | _ => none

/-- The parameters of a request on ports or groups (codes 40 to 46 hex). -/
def parsePort (code : Nat) (bs : List Byte) : Option Request :=
  match code with
  | 0x40 => match fixedFields [1, 1, 1] bs with
    | some [port, group, role] => some (.quick (.configurePort port group role))
    | _ => none
  | 0x41 => parseTwo bs .portService
  | 0x42 => parseByte bs .returnPort
  | 0x43 =>
    if bs.length < 2 then none
    else (presentFields [1, 1, 2, 1, 1] (beNat ((bs.drop 1).take 1)) (bs.drop 2)).map (fun fs =>
      .quick (.setGroup (beNat (bs.take 1))
        { queueLimit := optField fs 0, waitLimit := optField fs 1, failoverAllowance := optField fs 2,
          congestionMode := optField fs 3, congestionThreshold := optField fs 4 }))
  | 0x44 => parseByte bs .readPort
  | 0x45 => parseByte bs .readGroup
  | 0x46 => parseByte bs .clearCounters
  | _ => none

/-- The parameters of a request on watches, verdicts, attention or DESCRIBE (codes 50 to 53, 60 and 61 hex). -/
def parseWatch (code : Nat) (bs : List Byte) : Option Request :=
  match code with
  | 0x50 => match fixedFields [1, 3, 3, 1, 1] bs with
    | some [watch, low, high, kinds, action] => some (.quick (.setWatch watch low high kinds action))
    | _ => none
  | 0x51 => parseByte bs .clearWatch
  | 0x52 => parseByte bs .readWatch
  | 0x53 => parseTwo bs .verdict
  | 0x60 => parseNone bs (.quick .takeAttention)
  | 0x61 => parseNone bs (.quick .describe)
  | _ => none

/-- The request a frame carries, if its parameter length is one the request admits (R199, check 2). -/
def parseRequest (code : Nat) (bs : List Byte) : Option Request :=
  ((((parseStore code bs).or (parseTariff code bs)).or (parseLine code bs)).or (parsePort code bs)).or (parseWatch code bs)

/-- The checks of an accepted frame (R199): UNKNOWN_REQUEST, then MALFORMED, then the request's own rule. -/
def carryOutFrame (code n : Nat) (bs : List Byte) (s : State) : State :=
  if requestCodes.contains code then
    if Config.maxParameterLength < n then respond s .malformed false []
    else
      match parseRequest code bs with
      | some r => carryOut s r
      | none => respond s .malformed false []
  else respond s .unknownRequest false []

/-- A frame completes with a request code, a parameter length and the parameters that were stored (R199). -/
def takeFrame (s : State) (code n : Nat) (bs : List Byte) : State := onFrame s (carryOutFrame code n bs)

/-- The byte of a write strobe joins the request buffer; bytes beyond the 82nd are counted but not stored (R198). -/
def storeByte (s : State) (b : Byte) : State :=
  s.onSup (fun p =>
    { p with
      request := if p.received < Config.requestBufferBytes then p.request ++ [b] else p.request, received := p.received + 1 })

/-- A write strobe on SWS (R198): the frame completes at the byte that brings it to n + 2 bytes. -/
def writeStrobe (s : State) (b : Byte) : State :=
  let s1 := storeByte s b
  match s1.sup.request with
  | code :: n :: params => if s1.sup.received = n.toNat + 2 then takeFrame s1 code.toNat n.toNat params else s1
  | _ => s1

end Sys2Proof.Machine
end

