-- ==== Sys2Proof/Machine/Requests.lean ====
section
/-! DEFINITION. The meanings of the commands at the supervisor port: each request row stands for the write strobe that completes
a frame carrying that request (R198, R199; log entry 3). -/
namespace Sys2Proof.Machine

/-- FRAME_REJECTED (R199): a frame completes; while BUSY is set it is discarded and REJECTED is set. -/
def execFrameRejected (code : Byte) (params : List Byte) (s : State) : Host.Outcome State Fault Refusal :=
  .next (takeFrame s code.toNat params.length params)

/-- UNKNOWN_REQUEST (R199): a frame completes; a code outside the summary completes with UNKNOWN_REQUEST. -/
def execUnknownRequest (code : Byte) (params : List Byte) (s : State) : Host.Outcome State Fault Refusal :=
  .next (takeFrame s code.toNat params.length params)

/-- SUPERVISOR_WRITE_STROBE (R198). -/
def execSupervisorWriteStrobe (byte : Byte) (s : State) : Host.Outcome State Fault Refusal := .next (writeStrobe s byte)

/-- ATTACH_STORE (R2). -/
def execAttachStore (sizeCode clear : Nat) (s : State) : Host.Outcome State Fault Refusal :=
  .next (submit s (.store (.attach sizeCode clear)))

/-- ADD_ACCOUNT (R16). -/
def execAddAccount (p : NewAccount) (s : State) : Host.Outcome State Fault Refusal := .next (submit s (.store (.add p)))

/-- SET_PASSWORD (R17). -/
def execSetPassword (account : Nat) (chars : List Byte) (s : State) : Host.Outcome State Fault Refusal :=
  .next (submit s (.store (.setPassword account chars)))

/-- CHANGE_ACCOUNT (R18). -/
def execChangeAccount (account : Nat) (f : AccountChange) (s : State) : Host.Outcome State Fault Refusal :=
  .next (submit s (.store (.change account f)))

/-- GRANT (R19). -/
def execGrant (account amount : Nat) (s : State) : Host.Outcome State Fault Refusal :=
  .next (submit s (.store (.grant account amount)))

/-- REVOKE (R20). -/
def execRevoke (account amount : Nat) (s : State) : Host.Outcome State Fault Refusal :=
  .next (submit s (.store (.revoke account amount)))

/-- FORGIVE (R20). -/
def execForgive (account : Nat) (s : State) : Host.Outcome State Fault Refusal :=
  .next (submit s (.store (.forgive account)))

/-- READ_ACCOUNT (R21). -/
def execReadAccount (account : Nat) (s : State) : Host.Outcome State Fault Refusal :=
  .next (submit s (.store (.readAccount account)))

/-- READ_SLOTS (R22). -/
def execReadSlots (first count : Nat) (s : State) : Host.Outcome State Fault Refusal :=
  .next (submit s (.store (.readSlots first count)))

/-- READ_AND_CLEAR_TOTALS (R23). -/
def execReadAndClearTotals (account : Nat) (s : State) : Host.Outcome State Fault Refusal :=
  .next (submit s (.store (.readAndClear account)))

/-- REPLACE_SLOT (R24). -/
def execReplaceSlot (slot : Nat) (image : List Byte) (s : State) : Host.Outcome State Fault Refusal :=
  .next (submit s (.store (.replace slot image)))

/-- RETIRE (R25). -/
def execRetire (account : Nat) (s : State) : Host.Outcome State Fault Refusal := .next (submit s (.store (.retire account)))

/-- FLUSH (R41). -/
def execFlush (s : State) : Host.Outcome State Fault Refusal := .next (submit s (.store .flush))

/-- DISCARD_OPEN (R43). -/
def execDiscardOpen (account : Nat) (s : State) : Host.Outcome State Fault Refusal :=
  .next (submit s (.store (.discard account)))

/-- RESTART (R206). -/
def execRestart (s : State) : Host.Outcome State Fault Refusal := .next (submit s (.store .restart))

/-- WRITE_SCHEDULE (R112). -/
def execWriteSchedule (first : Nat) (bands : List Nat) (s : State) : Host.Outcome State Fault Refusal :=
  .next (submit s (.quick (.writeSchedule first bands)))

/-- WRITE_RATES (R113). -/
def execWriteRates (cls : Nat) (rates : List Nat) (waitRate : Nat) (s : State) : Host.Outcome State Fault Refusal :=
  .next (submit s (.quick (.writeRates cls rates waitRate)))

/-- WRITE_CLASS (R114). -/
def execWriteClass (cls : Nat) (f : PolicyChange) (s : State) : Host.Outcome State Fault Refusal :=
  .next (submit s (.quick (.writeClass cls f)))

/-- ARM (R115). -/
def execArm (s : State) : Host.Outcome State Fault Refusal := .next (submit s (.quick (.armTariff 0)))

/-- CANCEL (R115). -/
def execCancel (s : State) : Host.Outcome State Fault Refusal := .next (submit s (.quick (.armTariff 1)))

/-- REVERT (R115). -/
def execRevert (s : State) : Host.Outcome State Fault Refusal := .next (submit s (.quick (.armTariff 2)))

/-- READ_TARIFF_SCHEDULE (R116). -/
def execReadTariffSchedule (copy first count : Nat) (s : State) : Host.Outcome State Fault Refusal :=
  .next (submit s (.quick (.readSchedule copy first count)))

/-- READ_TARIFF_RATES (R116). -/
def execReadTariffRates (copy cls : Nat) (s : State) : Host.Outcome State Fault Refusal :=
  .next (submit s (.quick (.readRates copy cls)))

/-- READ_TARIFF_CLASS (R116). -/
def execReadTariffClass (copy cls : Nat) (s : State) : Host.Outcome State Fault Refusal :=
  .next (submit s (.quick (.readClass copy cls)))

/-- SET_CLOCK (R107). -/
def execSetClock (minute second : Nat) (s : State) : Host.Outcome State Fault Refusal :=
  .next (submit s (.quick (.setClock minute second)))

/-- READ_CLOCK (R108). -/
def execReadClock (s : State) : Host.Outcome State Fault Refusal := .next (submit s (.quick .readClock))

/-- SET_LINE_PARAMETERS (R72). -/
def execSetLineParameters (f : LineParamChange) (s : State) : Host.Outcome State Fault Refusal :=
  .next (submit s (.quick (.setLineParams f)))

/-- LINE_SERVICE_OUT (R73). -/
def execLineServiceOut (line : Nat) (s : State) : Host.Outcome State Fault Refusal :=
  .next (submit s (.quick (.lineService line 0)))

/-- LINE_SERVICE_IN (R73). -/
def execLineServiceIn (line : Nat) (s : State) : Host.Outcome State Fault Refusal :=
  .next (submit s (.quick (.lineService line 1)))

/-- FORCE_END (R74). -/
def execForceEnd (line : Nat) (s : State) : Host.Outcome State Fault Refusal := .next (submit s (.quick (.forceEnd line)))

/-- READ_LINE (R76). -/
def execReadLine (line : Nat) (s : State) : Host.Outcome State Fault Refusal := .next (submit s (.quick (.readLine line)))

/-- CLEAR_SUMMARY (R76). -/
def execClearSummary (line : Nat) (s : State) : Host.Outcome State Fault Refusal :=
  .next (submit s (.quick (.clearSummary line)))

/-- WRITE_MESSAGE (R66). -/
def execWriteMessage (message : Nat) (text : List Byte) (s : State) : Host.Outcome State Fault Refusal :=
  .next (submit s (.quick (.writeMessage message text)))

/-- CONFIGURE_PORT (R162). -/
def execConfigurePort (port group role : Nat) (s : State) : Host.Outcome State Fault Refusal :=
  .next (submit s (.quick (.configurePort port group role)))

/-- PORT_SERVICE_OUT (R163). -/
def execPortServiceOut (port : Nat) (s : State) : Host.Outcome State Fault Refusal :=
  .next (submit s (.quick (.portService port 0)))

/-- PORT_SERVICE_IN (R163). -/
def execPortServiceIn (port : Nat) (s : State) : Host.Outcome State Fault Refusal :=
  .next (submit s (.quick (.portService port 1)))

/-- RETURN_PORT (R164). -/
def execReturnPort (port : Nat) (s : State) : Host.Outcome State Fault Refusal :=
  .next (submit s (.quick (.returnPort port)))

/-- SET_GROUP (R165). -/
def execSetGroup (group : Nat) (f : GroupChange) (s : State) : Host.Outcome State Fault Refusal :=
  .next (submit s (.quick (.setGroup group f)))

/-- READ_PORT (R167). -/
def execReadPort (port : Nat) (s : State) : Host.Outcome State Fault Refusal := .next (submit s (.quick (.readPort port)))

/-- READ_GROUP (R167). -/
def execReadGroup (group : Nat) (s : State) : Host.Outcome State Fault Refusal :=
  .next (submit s (.quick (.readGroup group)))

/-- CLEAR_COUNTERS (R166). -/
def execClearCounters (group : Nat) (s : State) : Host.Outcome State Fault Refusal :=
  .next (submit s (.quick (.clearCounters group)))

/-- SET_WATCH (R104). -/
def execSetWatch (watch low high kinds action : Nat) (s : State) : Host.Outcome State Fault Refusal :=
  .next (submit s (.quick (.setWatch watch low high kinds action)))

/-- CLEAR_WATCH (R104). -/
def execClearWatch (watch : Nat) (s : State) : Host.Outcome State Fault Refusal :=
  .next (submit s (.quick (.clearWatch watch)))

/-- READ_WATCH (R104). -/
def execReadWatch (watch : Nat) (s : State) : Host.Outcome State Fault Refusal :=
  .next (submit s (.quick (.readWatch watch)))

/-- VERDICT_ADMIT (R98, R99). -/
def execVerdictAdmit (line : Nat) (s : State) : Host.Outcome State Fault Refusal :=
  .next (submit s (.quick (.verdict line 0)))

/-- VERDICT_REFUSE (R97, R98). -/
def execVerdictRefuse (line : Nat) (s : State) : Host.Outcome State Fault Refusal :=
  .next (submit s (.quick (.verdict line 1)))

/-- TAKE_ATTENTION (R204). -/
def execTakeAttention (s : State) : Host.Outcome State Fault Refusal := .next (submit s (.quick .takeAttention))

/-- DESCRIBE (R205). -/
def execDescribe (s : State) : Host.Outcome State Fault Refusal := .next (submit s (.quick .describe))

end Sys2Proof.Machine
end

