-- ==== Sys2Proof/Machine/Dispatch.lean ====
section
/-! DEFINITION. One arm per command: each is one call of its meaning. -/
namespace Sys2Proof.Machine

/-- The effect of a command on everything but the queue of waiting commands. -/
def exec (i : Instr) (s : State) : Host.Outcome State Fault Refusal :=
  match i with
  | .powerOnReset done torn => Sys2Proof.Machine.execPowerOnReset done torn s
  | .secondEvent order => Sys2Proof.Machine.execSecondEvent order s
  | .answerLimitExpiry line => Sys2Proof.Machine.execAnswerLimitExpiry line s
  | .signonLimitExpiry line => Sys2Proof.Machine.execSignonLimitExpiry line s
  | .holdTimerExpiry line => Sys2Proof.Machine.execHoldTimerExpiry line s
  | .selectionLimitExpiry line => Sys2Proof.Machine.execSelectionLimitExpiry line s
  | .waitLimitExpiry line => Sys2Proof.Machine.execWaitLimitExpiry line s
  | .escapeLimitExpiry line => Sys2Proof.Machine.execEscapeLimitExpiry line s
  | .closingLimitExpiry line => Sys2Proof.Machine.execClosingLimitExpiry line s
  | .guardTimeExpiry line => Sys2Proof.Machine.execGuardTimeExpiry line s
  | .carrierHoldExpiry line => Sys2Proof.Machine.execCarrierHoldExpiry line s
  | .idleWarningExpiry line => Sys2Proof.Machine.execIdleWarningExpiry line s
  | .exhaustionCountdownExpiry line => Sys2Proof.Machine.execExhaustionCountdownExpiry line s
  | .hoursCountdownExpiry line => Sys2Proof.Machine.execHoursCountdownExpiry line s
  | .callTimerExpiry port => Sys2Proof.Machine.execCallTimerExpiry port s
  | .lineCommandTimeout => Sys2Proof.Machine.execLineCommandTimeout s
  | .portCommandTimeout => Sys2Proof.Machine.execPortCommandTimeout s
  | .ring line => Sys2Proof.Machine.execRing line s
  | .carrierOn line => Sys2Proof.Machine.execCarrierOn line s
  | .carrierOff line => Sys2Proof.Machine.execCarrierOff line s
  | .lineRxChar line char => Sys2Proof.Machine.execLineRxChar line char s
  | .rxBreak line => Sys2Proof.Machine.execRxBreak line s
  | .txDone line => Sys2Proof.Machine.execTxDone line s
  | .lineCommandAccepted => Sys2Proof.Machine.execLineCommandAccepted s
  | .hostReadyOn port => Sys2Proof.Machine.execHostReadyOn port s
  | .hostReadyOff port => Sys2Proof.Machine.execHostReadyOff port s
  | .accept port => Sys2Proof.Machine.execAccept port s
  | .portRxChar port char => Sys2Proof.Machine.execPortRxChar port char s
  | .hostDisconnect port => Sys2Proof.Machine.execHostDisconnect port s
  | .portCommandAccepted => Sys2Proof.Machine.execPortCommandAccepted s
  | .rotationChoice => Sys2Proof.Machine.execRotationChoice s
  | .storeOperationComplete writes => Sys2Proof.Machine.execStoreOperationComplete writes s
  | .frameRejected code params => Sys2Proof.Machine.execFrameRejected code params s
  | .unknownRequest code params => Sys2Proof.Machine.execUnknownRequest code params s
  | .responseRead => Sys2Proof.Machine.execResponseRead s
  | .attachStore sizeCode clear => Sys2Proof.Machine.execAttachStore sizeCode clear s
  | .addAccount p => Sys2Proof.Machine.execAddAccount p s
  | .setPassword account chars => Sys2Proof.Machine.execSetPassword account chars s
  | .changeAccount account f => Sys2Proof.Machine.execChangeAccount account f s
  | .grant account amount => Sys2Proof.Machine.execGrant account amount s
  | .revoke account amount => Sys2Proof.Machine.execRevoke account amount s
  | .forgive account => Sys2Proof.Machine.execForgive account s
  | .readAccount account => Sys2Proof.Machine.execReadAccount account s
  | .readSlots first count => Sys2Proof.Machine.execReadSlots first count s
  | .readAndClearTotals account => Sys2Proof.Machine.execReadAndClearTotals account s
  | .replaceSlot slot image => Sys2Proof.Machine.execReplaceSlot slot image s
  | .retire account => Sys2Proof.Machine.execRetire account s
  | .flush => Sys2Proof.Machine.execFlush s
  | .discardOpen account => Sys2Proof.Machine.execDiscardOpen account s
  | .writeSchedule first bands => Sys2Proof.Machine.execWriteSchedule first bands s
  | .writeRates cls rates waitRate => Sys2Proof.Machine.execWriteRates cls rates waitRate s
  | .writeClass cls f => Sys2Proof.Machine.execWriteClass cls f s
  | .arm => Sys2Proof.Machine.execArm s
  | .cancel => Sys2Proof.Machine.execCancel s
  | .revert => Sys2Proof.Machine.execRevert s
  | .readTariffSchedule copy first count => Sys2Proof.Machine.execReadTariffSchedule copy first count s
  | .readTariffRates copy cls => Sys2Proof.Machine.execReadTariffRates copy cls s
  | .readTariffClass copy cls => Sys2Proof.Machine.execReadTariffClass copy cls s
  | .setClock minute second => Sys2Proof.Machine.execSetClock minute second s
  | .readClock => Sys2Proof.Machine.execReadClock s
  | .setLineParameters f => Sys2Proof.Machine.execSetLineParameters f s
  | .lineServiceOut line => Sys2Proof.Machine.execLineServiceOut line s
  | .lineServiceIn line => Sys2Proof.Machine.execLineServiceIn line s
  | .forceEnd line => Sys2Proof.Machine.execForceEnd line s
  | .readLine line => Sys2Proof.Machine.execReadLine line s
  | .clearSummary line => Sys2Proof.Machine.execClearSummary line s
  | .writeMessage message text => Sys2Proof.Machine.execWriteMessage message text s
  | .configurePort port group role => Sys2Proof.Machine.execConfigurePort port group role s
  | .portServiceOut port => Sys2Proof.Machine.execPortServiceOut port s
  | .portServiceIn port => Sys2Proof.Machine.execPortServiceIn port s
  | .returnPort port => Sys2Proof.Machine.execReturnPort port s
  | .setGroup group f => Sys2Proof.Machine.execSetGroup group f s
  | .readPort port => Sys2Proof.Machine.execReadPort port s
  | .readGroup group => Sys2Proof.Machine.execReadGroup group s
  | .clearCounters group => Sys2Proof.Machine.execClearCounters group s
  | .setWatch watch low high kinds action => Sys2Proof.Machine.execSetWatch watch low high kinds action s
  | .clearWatch watch => Sys2Proof.Machine.execClearWatch watch s
  | .readWatch watch => Sys2Proof.Machine.execReadWatch watch s
  | .verdictAdmit line => Sys2Proof.Machine.execVerdictAdmit line s
  | .verdictRefuse line => Sys2Proof.Machine.execVerdictRefuse line s
  | .takeAttention => Sys2Proof.Machine.execTakeAttention s
  | .describe => Sys2Proof.Machine.execDescribe s
  | .restart => Sys2Proof.Machine.execRestart s
  | .supervisorWriteStrobe byte => Sys2Proof.Machine.execSupervisorWriteStrobe byte s

end Sys2Proof.Machine
end

