-- ==== Sys2Proof/Machine/Frames.lean ====
section
/-! DEFINITION. The frame that carries a request (chapter 10, The requests; R198, R207): its code, its parameters, and the request
a request row of the table stands for. -/
namespace Sys2Proof.Machine

/-- The presence field of optional fields: bit k for the k-th (R207). -/
def presenceOf : List (Option Nat) → Nat
  | [] => 0
  | x :: xs => (if x.isSome then 1 else 0) + 2 * presenceOf xs

/-- The bytes of the fields present, each in its size (R207). -/
def presentBytes : List Nat → List (Option Nat) → List Byte
  | k :: ks, some n :: xs => beBytes k n ++ presentBytes ks xs
  | _ :: ks, none :: xs => presentBytes ks xs
  | _, _ => []

/-- A presence field of a size and the fields present. -/
def optionalBytes (size : Nat) (sizes : List Nat) (fields : List (Option Nat)) : List Byte :=
  beBytes size (presenceOf fields) ++ presentBytes sizes fields

/-- The code of a store request. -/
def storeCode (r : StoreReq) : Nat :=
  match r with
  | .attach _ _ => 0x10
  | .add _ => 0x11
  | .setPassword _ _ => 0x12
  | .change _ _ => 0x13
  | .grant _ _ => 0x14
  | .revoke _ _ => 0x15
  | .forgive _ => 0x16
  | .readAccount _ => 0x17
  | .readSlots _ _ => 0x18
  | .readAndClear _ => 0x19
  | .replace _ _ => 0x1A
  | .retire _ => 0x1B
  | .flush => 0x1C
  | .discard _ => 0x1D
  | .restart => 0x62

/-- The parameters of a store request. -/
def storeParams (r : StoreReq) : List Byte :=
  match r with
  | .attach size clear => beBytes 1 size ++ beBytes 1 clear
  | .add p =>
    beBytes 3 p.account ++ beBytes 1 p.cls ++ beBytes 1 p.sessionLimit ++ beBytes 1 p.permitted ++ beBytes 1 p.defaultGroup
      ++ beBytes 3 p.allotment ++ beBytes 2 p.lowThreshold
  | .setPassword n chars => beBytes 3 n ++ chars
  | .change n f =>
    beBytes 3 n ++ optionalBytes 1 [1, 1, 1, 1, 2, 1]
      [f.cls, f.sessionLimit, f.permitted, f.defaultGroup, f.lowThreshold, f.status]
  | .grant n amount => beBytes 3 n ++ beBytes 3 amount
  | .revoke n amount => beBytes 3 n ++ beBytes 3 amount
  | .forgive n => beBytes 3 n
  | .readAccount n => beBytes 3 n
  | .readSlots first count => beBytes 2 first ++ beBytes 1 count
  | .readAndClear n => beBytes 3 n
  | .replace slot image => beBytes 2 slot ++ image
  | .retire n => beBytes 3 n
  | .flush => []
  | .discard n => beBytes 3 n
  | .restart => []

/-- The code of a request that completes at once. -/
def quickCode (q : QuickReq) : Nat :=
  match q with
  | .writeSchedule _ _ => 0x20
  | .writeRates _ _ _ => 0x21
  | .writeClass _ _ => 0x22
  | .armTariff _ => 0x23
  | .readSchedule _ _ _ => 0x24
  | .readRates _ _ => 0x24
  | .readClass _ _ => 0x24
  | .setClock _ _ => 0x25
  | .readClock => 0x26
  | .setLineParams _ => 0x30
  | .lineService _ _ => 0x31
  | .forceEnd _ => 0x32
  | .readLine _ => 0x33
  | .clearSummary _ => 0x34
  | .writeMessage _ _ => 0x35
  | .configurePort _ _ _ => 0x40
  | .portService _ _ => 0x41
  | .returnPort _ => 0x42
  | .setGroup _ _ => 0x43
  | .readPort _ => 0x44
  | .readGroup _ => 0x45
  | .clearCounters _ => 0x46
  | .setWatch _ _ _ _ _ => 0x50
  | .clearWatch _ => 0x51
  | .readWatch _ => 0x52
  | .verdict _ _ => 0x53
  | .takeAttention => 0x60
  | .describe => 0x61

/-- The parameters of a request that completes at once. -/
def quickParams (q : QuickReq) : List Byte :=
  match q with
  | .writeSchedule first bands => beBytes 2 first ++ bands.map (BitVec.ofNat 8)
  | .writeRates cls rates wait => beBytes 1 cls ++ rates.flatMap (beBytes 2) ++ beBytes 2 wait
  | .writeClass cls f =>
    beBytes 1 cls ++ optionalBytes 1 [1, 1, 2, 2, 2, 2, 2]
      [f.allowedBands, f.queuePriority, f.grace, f.idleLimit, f.idleWarning, f.exhaustionGrace, f.hoursGrace]
  | .armTariff action => beBytes 1 action
  | .readSchedule copy first count => beBytes 1 copy ++ [0] ++ beBytes 2 first ++ beBytes 1 count
  | .readRates copy cls => beBytes 1 copy ++ [1] ++ beBytes 1 cls
  | .readClass copy cls => beBytes 1 copy ++ [2] ++ beBytes 1 cls
  | .setClock minute second => beBytes 2 minute ++ beBytes 1 second
  | .readClock => []
  | .setLineParams f =>
    optionalBytes 2 (List.replicate 12 1)
      [f.acceptingCalls, f.busyOut, f.answerLimit, f.carrierHold, f.signonLimit, f.attemptsPerCall, f.lockoutThreshold,
        f.holdLimit, f.selectionLimit, f.callLimit, f.escapeKey, f.escapeMask]
  | .lineService line direction => beBytes 1 line ++ beBytes 1 direction
  | .forceEnd line => beBytes 1 line
  | .readLine line => beBytes 1 line
  | .clearSummary line => beBytes 1 line
  | .writeMessage message text => beBytes 1 message ++ text
  | .configurePort port group role => beBytes 1 port ++ beBytes 1 group ++ beBytes 1 role
  | .portService port direction => beBytes 1 port ++ beBytes 1 direction
  | .returnPort port => beBytes 1 port
  | .setGroup group f =>
    beBytes 1 group ++ optionalBytes 1 [1, 1, 2, 1, 1]
      [f.queueLimit, f.waitLimit, f.failoverAllowance, f.congestionMode, f.congestionThreshold]
  | .readPort port => beBytes 1 port
  | .readGroup group => beBytes 1 group
  | .clearCounters group => beBytes 1 group
  | .setWatch watch low high kinds action =>
    beBytes 1 watch ++ beBytes 3 low ++ beBytes 3 high ++ beBytes 1 kinds ++ beBytes 1 action
  | .clearWatch watch => beBytes 1 watch
  | .readWatch watch => beBytes 1 watch
  | .verdict line v => beBytes 1 line ++ beBytes 1 v
  | .takeAttention => []
  | .describe => []

/-- The code of a request (chapter 10). -/
def requestCode (r : Request) : Nat :=
  match r with
  | .store r => storeCode r
  | .quick q => quickCode q

/-- The parameters of a request (chapter 10). -/
def requestParams (r : Request) : List Byte :=
  match r with
  | .store r => storeParams r
  | .quick q => quickParams q

/-- The frame of a request: its code, its parameter length, its parameters (R198). -/
def requestFrame (r : Request) : List Byte :=
  BitVec.ofNat 8 (requestCode r) :: BitVec.ofNat 8 (requestParams r).length :: requestParams r

/-- The request a request row stands for; none for the other rows. -/
def requestOf (i : Instr) : Option Request :=
  match i with
  | .powerOnReset _ _ => none
  | .secondEvent _ => none
  | .answerLimitExpiry _ => none
  | .signonLimitExpiry _ => none
  | .holdTimerExpiry _ => none
  | .selectionLimitExpiry _ => none
  | .waitLimitExpiry _ => none
  | .escapeLimitExpiry _ => none
  | .closingLimitExpiry _ => none
  | .guardTimeExpiry _ => none
  | .carrierHoldExpiry _ => none
  | .idleWarningExpiry _ => none
  | .exhaustionCountdownExpiry _ => none
  | .hoursCountdownExpiry _ => none
  | .callTimerExpiry _ => none
  | .lineCommandTimeout => none
  | .portCommandTimeout => none
  | .ring _ => none
  | .carrierOn _ => none
  | .carrierOff _ => none
  | .lineRxChar _ _ => none
  | .rxBreak _ => none
  | .txDone _ => none
  | .lineCommandAccepted => none
  | .hostReadyOn _ => none
  | .hostReadyOff _ => none
  | .accept _ => none
  | .portRxChar _ _ => none
  | .hostDisconnect _ => none
  | .portCommandAccepted => none
  | .rotationChoice => none
  | .storeOperationComplete _ => none
  | .frameRejected _ _ => none
  | .unknownRequest _ _ => none
  | .responseRead => none
  | .attachStore sizeCode clear => some (.store (.attach sizeCode clear))
  | .addAccount p => some (.store (.add p))
  | .setPassword account chars => some (.store (.setPassword account chars))
  | .changeAccount account f => some (.store (.change account f))
  | .grant account amount => some (.store (.grant account amount))
  | .revoke account amount => some (.store (.revoke account amount))
  | .forgive account => some (.store (.forgive account))
  | .readAccount account => some (.store (.readAccount account))
  | .readSlots first count => some (.store (.readSlots first count))
  | .readAndClearTotals account => some (.store (.readAndClear account))
  | .replaceSlot slot image => some (.store (.replace slot image))
  | .retire account => some (.store (.retire account))
  | .flush => some (.store .flush)
  | .discardOpen account => some (.store (.discard account))
  | .writeSchedule first bands => some (.quick (.writeSchedule first bands))
  | .writeRates cls rates waitRate => some (.quick (.writeRates cls rates waitRate))
  | .writeClass cls f => some (.quick (.writeClass cls f))
  | .arm => some (.quick (.armTariff 0))
  | .cancel => some (.quick (.armTariff 1))
  | .revert => some (.quick (.armTariff 2))
  | .readTariffSchedule copy first count => some (.quick (.readSchedule copy first count))
  | .readTariffRates copy cls => some (.quick (.readRates copy cls))
  | .readTariffClass copy cls => some (.quick (.readClass copy cls))
  | .setClock minute second => some (.quick (.setClock minute second))
  | .readClock => some (.quick .readClock)
  | .setLineParameters f => some (.quick (.setLineParams f))
  | .lineServiceOut line => some (.quick (.lineService line 0))
  | .lineServiceIn line => some (.quick (.lineService line 1))
  | .forceEnd line => some (.quick (.forceEnd line))
  | .readLine line => some (.quick (.readLine line))
  | .clearSummary line => some (.quick (.clearSummary line))
  | .writeMessage message text => some (.quick (.writeMessage message text))
  | .configurePort port group role => some (.quick (.configurePort port group role))
  | .portServiceOut port => some (.quick (.portService port 0))
  | .portServiceIn port => some (.quick (.portService port 1))
  | .returnPort port => some (.quick (.returnPort port))
  | .setGroup group f => some (.quick (.setGroup group f))
  | .readPort port => some (.quick (.readPort port))
  | .readGroup group => some (.quick (.readGroup group))
  | .clearCounters group => some (.quick (.clearCounters group))
  | .setWatch watch low high kinds action => some (.quick (.setWatch watch low high kinds action))
  | .clearWatch watch => some (.quick (.clearWatch watch))
  | .readWatch watch => some (.quick (.readWatch watch))
  | .verdictAdmit line => some (.quick (.verdict line 0))
  | .verdictRefuse line => some (.quick (.verdict line 1))
  | .takeAttention => some (.quick .takeAttention)
  | .describe => some (.quick .describe)
  | .restart => some (.store .restart)
  | .supervisorWriteStrobe _ => none

end Sys2Proof.Machine
end

