-- ==== Sys2Proof/Machine/Transfers.lean ====
section
/-! DEFINITION. The transfers of the line scanner bus and the host port bus: the codes on LC0 to LC3 and PC0 to PC3, the event
a transfer carries to the controller, and what a command puts on the pins (R52, R147; the pin table of 00_scope.md). -/
namespace Sys2Proof.Machine

/-- A transfer of the line scanner bus: line number on LN0 to LN6, code on LC0 to LC3, character data on LD0 to LD7. -/
structure LineTransfer where
  line : Fin 128
  code : Fin 16
  data : Byte
  deriving DecidableEq, Repr

/-- A transfer of the host port bus: port number on PN0 to PN5, code on PC0 to PC3, data on PD0 to PD7. -/
structure PortTransfer where
  port : PortNo
  code : Fin 16
  data : Byte
  deriving DecidableEq, Repr

/-- The event a transfer from a line unit carries: codes 0 to 5; a code that names no line event is taken and discarded
(R52). -/
def LineTransfer.event (t : LineTransfer) : Option Instr :=
  match t.code.val with
  | 0 => some (.ring t.line.val)
  | 1 => some (.carrierOn t.line.val)
  | 2 => some (.carrierOff t.line.val)
  | 3 => some (.lineRxChar t.line.val t.data)
  | 4 => some (.rxBreak t.line.val)
  | 5 => some (.txDone t.line.val)
  | _ => none

/-- The event a transfer from a port carries: codes 0 to 4; a code that names no port event is taken and discarded (R147). -/
def PortTransfer.event (t : PortTransfer) : Option Instr :=
  match t.code.val with
  | 0 => some (.hostReadyOn t.port)
  | 1 => some (.hostReadyOff t.port)
  | 2 => some (.accept t.port)
  | 3 => some (.portRxChar t.port t.data)
  | 4 => some (.hostDisconnect t.port)
  | _ => none

/-- An event taken from a bus joins the commands that wait; nothing joins where the transfer was discarded. -/
def State.offered (s : State) (event : Option Instr) : State :=
  match event with
  | none => s
  | some c => { s with pending := s.pending ++ [c] }

/-- A transfer offered on the line scanner bus is taken (R52). -/
def State.takeLineTransfer (s : State) (t : LineTransfer) : State := s.offered t.event

/-- A transfer offered on the host port bus is taken (R147). -/
def State.takePortTransfer (s : State) (t : PortTransfer) : State := s.offered t.event

/-- The line a command to a line unit is for. -/
def LineCmd.line (c : LineCmd) : LineNo :=
  match c with
  | .answer l => l
  | .release l => l
  | .txChar l _ => l

/-- The code of a command to a line unit (R52). -/
def LineCmd.code (c : LineCmd) : Nat :=
  match c with
  | .answer _ => 0
  | .release _ => 1
  | .txChar _ _ => 2

/-- The data of a command to a line unit: the character of a TX_CHAR. -/
def LineCmd.data (c : LineCmd) : List Byte :=
  match c with
  | .answer _ => []
  | .release _ => []
  | .txChar _ char => [char]

/-- The port a command is for. -/
def PortCmd.port (c : PortCmd) : PortNo :=
  match c with
  | .call p _ _ _ => p
  | .hangUp p => p
  | .txChar p _ _ => p

/-- The code of a command to a port (R147). -/
def PortCmd.code (c : PortCmd) : Nat :=
  match c with
  | .call _ _ _ _ => 0
  | .hangUp _ => 1
  | .txChar _ _ _ => 2

/-- The data of a command to a port, one byte a transfer (R147): the character of a TX_CHAR, and the line number, account number
and class of a CALL. That the account number takes three transfers, most significant byte first, is DEDUCED (log entry 43). -/
def PortCmd.data (c : PortCmd) : List Byte :=
  match c with
  | .call _ l account cls => BitVec.ofNat 8 l.val :: beBytes 3 account ++ [BitVec.ofNat 8 cls.val]
  | .hangUp _ => []
  | .txChar _ char _ => [char]

/-- What the line scanner bus carries to the line units: line number, code and data of the command offered (R52). -/
def State.lineBusOut (s : State) : Option (Nat × Nat × List Byte) :=
  s.lineCommand.map (fun c => (c.line.val, c.code, c.data))

/-- What the host port bus carries to the ports: port number, code and data of the command offered (R147). -/
def State.portBusOut (s : State) : Option (Nat × Nat × List Byte) :=
  s.portCommand.map (fun c => (c.port.val, c.code, c.data))

end Sys2Proof.Machine
end

