-- ==== Sys2Proof/Safety.lean ====
section
/-! DEFINITION. What the laws of the book hold about every state: the properties the statements speak of. -/
namespace Sys2Proof.Machine

/-- Every residue is between 0 and 59,999 (R128). -/
def ResiduesInRange (s : State) : Prop := ∀ l : LineNo, (s.line l).residue < Config.creditUnit

/-- The write-back list holds no duplicates (R36). -/
def WriteBackListOnce (s : State) : Prop := s.oat.writeBackList.Nodup

/-- The account store is in its canonical form. -/
def StoreCanonical (s : State) : Prop := storeWf s.store = true

/-- The attention set holds at most 16 ACCOUNT items, in rising account order and so no two for one account (R203). -/
def AccountItemsOrdered (s : State) : Prop :=
  s.attn.accounts.length ≤ Config.maxAccountItems ∧ (s.attn.accounts.map (fun i => i.account)).Pairwise (· < ·)

/-- A class policy with every field in its range; an idle limit of 1, 2 or 3 cannot be held (R110). -/
def PolicyInRange (p : ClassPolicy) : Prop :=
  p.queuePriority ≤ 3 ∧ p.grace ≤ 255 ∧ (p.idleLimit = 0 ∨ (4 ≤ p.idleLimit ∧ p.idleLimit ≤ 255)) ∧
    (10 ≤ p.idleWarning ∧ p.idleWarning ≤ 255) ∧ p.exhaustionGrace ≤ 600 ∧ p.hoursGrace ≤ 600

/-- Every class policy of both tariff sets is in range (R110, R111). -/
def PoliciesInRange (s : State) : Prop :=
  (∀ c : ClassNo, PolicyInRange (s.cal.active.policies.get c)) ∧ ∀ c : ClassNo, PolicyInRange (s.cal.pendingSet.policies.get c)

/-- The calendar and both views hold a time of the week (R105, R117). -/
def ClockInRange (s : State) : Prop :=
  (s.cal.minute < Config.weekMinutes ∧ s.cal.second < 60) ∧ (s.cal.view.minute < Config.weekMinutes ∧ s.cal.view.second < 60) ∧
    s.cal.prevView.minute < Config.weekMinutes ∧ s.cal.prevView.second < 60

/-- Every message text holds at most 48 characters (R66). -/
def MessagesFit (s : State) : Prop := ∀ m : MsgNo, (s.lc.messages.get m).length ≤ Config.maxMessageLength

/-- The line parameters are in range (R72). -/
def ParamsInRange (s : State) : Prop :=
  let p := s.lc.params
  p.busyOut ≤ 96 ∧ (10 ≤ p.answerLimit ∧ p.answerLimit ≤ 60) ∧ p.carrierHold ≤ 15 ∧
    (30 ≤ p.signonLimit ∧ p.signonLimit ≤ 255) ∧ (1 ≤ p.attemptsPerCall ∧ p.attemptsPerCall ≤ 5) ∧ p.lockoutThreshold ≤ 15 ∧
    (10 ≤ p.holdLimit ∧ p.holdLimit ≤ 255) ∧ (15 ≤ p.selectionLimit ∧ p.selectionLimit ≤ 255) ∧
    (5 ≤ p.callLimit ∧ p.callLimit ≤ 60) ∧ p.escapeKey ≤ 127 ∧ p.escapeMask ≤ 127

/-- The settings and the counts of every group are in range (R146). -/
def GroupsInRange (s : State) : Prop :=
  ∀ g : GroupNo, let x := s.group g
    x.queueLimit ≤ 96 ∧ x.waitLimit ≤ 60 ∧ x.failoverAllowance ≤ 255 ∧
      (1 ≤ x.congestionThreshold ∧ x.congestionThreshold ≤ 96) ∧ x.congestionCount ≤ max24 ∧ x.refusedCount ≤ max24

/-- Of BUSY and RESPONSE_READY at most one is set (R199, R201). -/
def PortFlagsApart (s : State) : Prop := ¬(s.sup.busy = true ∧ s.sup.ready = true)

/-- A port that is CALLING or IN_USE and the line it names name each other, and the line is ADMITTED (R145). -/
def PortsNameLines (s : State) : Prop :=
  ∀ (p : PortNo) (l : LineNo), ((s.port p).line = some l ↔ (s.line l).port = some p)
    ∧ ((s.port p).line = some l → (s.line l).phase.isAdmitted = true)
    ∧ ((s.port p).line.isSome ↔ (s.port p).state = .calling ∨ (s.port p).state = .inUse)

/-- The state of a port and the stage of its line agree, and the port belongs to the line's selected group (R145, R149, R171,
R172). -/
def PortStagesAgree (s : State) : Prop :=
  ∀ (p : PortNo) (l : LineNo), (s.port p).line = some l →
    ((s.port p).state = .calling ↔ (s.line l).phase = .admitted .calling ∨ (s.line l).phase = .admitted .moving) ∧
      ((s.port p).state = .inUse ↔ (s.line l).phase = .admitted .connected ∨ (s.line l).phase = .admitted .escaped) ∧
      (s.port p).group = (s.line l).selectedGroup

/-- A group's queue is non-empty only while none of the group's ORDINARY ports is FREE (R157). -/
def QueuesWaitForPorts (s : State) : Prop :=
  ∀ g : GroupNo, (s.group g).queue ≠ [] → ∀ p : PortNo, (s.port p).group = some g → (s.port p).role = .ordinary →
    (s.port p).state ≠ .free

/-- A line holds a queue place exactly when it is WAITING, once, in the queue of its selected group (R153). -/
def QueuesHoldWaiting (s : State) : Prop :=
  (∀ g : GroupNo, ((s.group g).queue.map (fun q => q.line)).Nodup ∧
    ((s.group g).queue.map (fun q => q.priority)).Pairwise (· ≤ ·)) ∧
  ∀ (g : GroupNo) (l : LineNo), l ∈ (s.group g).queue.map (fun q => q.line) ↔
    ((s.line l).phase = .admitted .waiting ∧ (s.line l).selectedGroup = some g)

/-- The session count of every entry is the number of ADMITTED lines that reference it (R28). -/
def CountsMatch (s : State) : Prop :=
  ∀ e : EntryNo, match s.entry e with
    | some x => x.count = (s.sessions e).length
    | none => s.sessions e = []

/-! ## Laws that tie records to each other -/

/-- The entries of the Open Account Table (R5, R28, R36, R44): an entry has never more
than 4 sessions; it is OPEN exactly while its session count is 1 or more; a CLOSING entry stands in the write-back list or its
write-back is in progress; a STUCK entry does not stand in the list and has no retire pending; no two entries hold one
account. -/
def EntriesLawful (s : State) : Prop :=
  (∀ (e : EntryNo) (x : OatEntry), s.entry e = some x →
    x.acct.sessionLimit ≤ 4 ∧ x.count ≤ 4 ∧ (x.state = .opened ↔ 1 ≤ x.count) ∧
      (x.state = .closing → e ∈ s.oat.writeBackList ∨ ∃ n slot a, s.ctl.inProgress = some (.writeBack e n slot a)) ∧
      (x.state = .stuck → e ∉ s.oat.writeBackList) ∧ (x.retirePending = true → x.state ≠ .stuck)) ∧
  ∀ (e k : EntryNo) (x y : OatEntry), s.entry e = some x → s.entry k = some y → x.account = y.account → e = k

/-- The stages of ADMITTED in which a line names a port (R145, R174). -/
def Phase.holdsPort (p : Phase) : Bool :=
  decide (p = .admitted .calling) || decide (p = .admitted .connected) || decide (p = .admitted .escaped)
    || decide (p = .admitted .moving)

/-- Lines, ports and queues name each other as R145, R153 and R157 lay down, and a line past its first choice has a selected
group (R149). -/
def LinksLawful (s : State) : Prop :=
  PortsNameLines s ∧ PortStagesAgree s ∧ QueuesHoldWaiting s ∧ QueuesWaitForPorts s ∧
    ∀ l : LineNo, ((s.line l).port.isSome = (s.line l).phase.holdsPort) ∧
      ((s.line l).phase.holdsPort = true ∨ (s.line l).phase = .admitted .waiting → (s.line l).selectedGroup.isSome = true)

/-- Sessions and entries agree (R28, R49): session counts are right, the open entry reference is present exactly in ADMITTED,
and no line is ADMITTED while RESTART is in progress (R197), which stands there as an operation of its own (R206). -/
def SessionsLawful (s : State) : Prop :=
  CountsMatch s ∧ EntriesLawful s ∧
    (∀ l : LineNo, (s.line l).entryRef.isSome = (s.line l).phase.isAdmitted) ∧
      (∀ n : Nat, s.ctl.inProgress = some (.restart n) → ∀ l : LineNo, (s.line l).phase.isAdmitted = false) ∧
        s.ctl.inProgress ≠ some (.supervisor .restart)

/-- The sign-on queue (R10): no line has two operations waiting, and the line of a waiting operation is in the stage that waits
for it, under the operation's attempt number. -/
def SignOnQueueLawful (s : State) : Prop :=
  (s.ctl.signOnQueue.map (fun op => op.line)).Nodup ∧
    ∀ op ∈ s.ctl.signOnQueue, (s.line op.line).attempt = op.attempt ∧
      (s.line op.line).phase = .signon (if op.kind = .admitOp then .admitting else .checking)

/-- The operation in progress is not taken for the one its line has waiting: their attempt numbers differ. They could agree
only after 256 attempts of one line within one store operation, because the number wraps (R79). -/
def AttemptsTold (s : State) : Prop :=
  ∀ op, s.ctl.inProgress = some (.signOn op) → ∀ w ∈ s.ctl.signOnQueue, w.line = op.line → w.attempt ≠ op.attempt

/-! ## Account records in range -/

/-- Every field of an account record is within the range of R3. -/
def AccountInRange (a : Account) : Prop :=
  (1 ≤ a.sessionLimit ∧ a.sessionLimit ≤ 4) ∧ a.password ≤ max24 ∧ a.failedCount ≤ 15 ∧ a.allotment ≤ max24 ∧
    a.overdraft ≤ 65535 ∧ a.lowThreshold ≤ 65535 ∧ (∀ b : Band, a.bandTotals.get b ≤ max24) ∧ a.waitTotal ≤ max24 ∧
      a.connectSeconds ≤ max24 ∧ ∀ m l, a.lastSignOn = some (m, l) → m < Config.weekMinutes

/-- The low threshold a CHANGE_ACCOUNT carries fits its two bytes. -/
def requestFits (r : StoreReq) : Prop :=
  match r with
  | .change _ f => ∀ n, f.lowThreshold = some n → n ≤ 65535
  | _ => True

/-- Every entry holds an account number and fields within the ranges of R3, and the request that waits or is carried out fits
its frame (R3, R27). -/
def AccountsInRange (s : State) : Prop :=
  (∀ (e : EntryNo) (x : OatEntry), s.entry e = some x → 1 ≤ x.account ∧ x.account ≤ maxAccount ∧ AccountInRange x.acct) ∧
    (∀ r, s.ctl.waiting = some r → requestFits r) ∧ ∀ r, s.ctl.inProgress = some (.supervisor r) → requestFits r

/-! ## Running commands -/

/-- A list of commands carried out one after another. -/
def execAll : List Instr → State → Host.Outcome State Fault Refusal
  | [], s => .next s
  | c :: cs, s =>
    match exec c s with
    | .next t => execAll cs t
    | .fault f => .fault f
    | .refused r => .refused r

/-! ## The supervisor port in the terms of R199 and R201 -/

/-- The port right after a frame is accepted (R199). -/
def SupPort.accepted (p : SupPort) : SupPort :=
  { request := [], received := 0, response := [], readPos := 0, busy := true, ready := false, rejected := false,
    sdOut := p.sdOut }

/-- The port with a response offered: completion code, clamped flag, result length and result bytes (R201). -/
def SupPort.offered (p : SupPort) (code : Byte) (clamped : Bool) (result : List Byte) : SupPort :=
  { request := p.request, received := p.received,
    response := [code, if clamped then 1 else 0, BitVec.ofNat 8 (result.length / 256), BitVec.ofNat 8 result.length] ++ result,
    readPos := 0, busy := false, ready := true, rejected := p.rejected, sdOut := p.sdOut }

/-- The port after a request that was accepted and completed at once. -/
def SupPort.answered (p : SupPort) (code : Byte) (clamped : Bool) (result : List Byte) : SupPort :=
  p.accepted.offered code clamped result

/-! ## The end of a call -/

/-- The credits that message 15 carries when a call has ended: those charged, or 0 where the call was never ADMITTED (R58). -/
def goodbyeCredits (s t : State) (l : LineNo) : Nat := if (s.line l).phase.isAdmitted then (t.line l).charged else 0

/-- The goodbye waits for the next character boundary: it stands in the pending place of a line whose transmitter is busy
(R70). -/
def GoodbyeWaits (s t : State) (l : LineNo) : Prop :=
  (t.line l).phase = .closing ∧ (t.line l).stageTimer = some 10 ∧ (t.line l).txBusy = true ∧
    (t.line l).pending = some { number := 15, inserted := goodbyeCredits s t l }

/-- The goodbye is the current message, and its first character has gone out (R67, R70). -/
def GoodbyeSpoken (s t : State) (l : LineNo) : Prop :=
  let text := expandText (s.lc.messages.get 15) (goodbyeCredits s t l)
  (t.line l).phase = .closing ∧ (t.line l).stageTimer = some 10 ∧ (t.line l).txBusy = true ∧ (t.line l).pending = none ∧
    (t.line l).current = some { number := 15, inserted := goodbyeCredits s t l, text := text, position := 1 } ∧
    ∃ c, text.head? = some c ∧ t.lc.bus.getLast? = some (.txChar l c)

/-- The line was released at once: after a goodbye without characters (R58, R67), or where carrier is absent (R58). -/
def ReleasedAtEnd (t : State) (l : LineNo) : Prop :=
  (t.line l).phase = .guard ∧ (t.line l).stageTimer = some 5 ∧ (t.line l).current = none ∧ (t.line l).pending = none ∧
    t.lc.bus.getLast? = some (.release l)

/-- What is left of a line when its call or session has ended (R58, R70, R184, R186, R191, R192): the closing summary, no port,
no entry, no counts, no held characters, no sign-on work, and CLOSING with the goodbye requested or, with carrier absent, GUARD
after a RELEASE. A goodbye without characters is released at once (R58). The carrier present flag decides, in ANSWERING too (log
entry 45, DESIGN CHOICE). Where lines, ports and queues name each other as the
book lays down, the port the line named was sent HANG_UP, and the goodbye waits exactly where a character is going out. -/
def CallEnded (cause : EndCause) (s t : State) (l : LineNo) : Prop :=
  let was := s.line l
  let now := t.line l
  now.summary = some
      { account := was.account, cause := cause,
        admittedSeconds := if was.phase.isAdmitted then now.admittedSeconds else 0,
        connectedSeconds := if was.phase.isAdmitted then now.connectedSeconds else 0,
        credits := if was.phase.isAdmitted then now.charged else 0, minute := s.cal.view.minute } ∧
  now.port = none ∧ now.entryRef = none ∧ now.entryBuffer = [] ∧ now.holdTimer = none ∧ now.carrierHold = none ∧
  now.idleCount = none ∧ now.exhaustion = none ∧ now.hours = none ∧ now.idleWarning = none ∧ now.lineToPort = none ∧
  now.portToLine = none ∧ now.account = was.account ∧ now.selectedGroup = was.selectedGroup ∧ now.attempt = was.attempt ∧
  now.carrier = was.carrier ∧
  (∀ op ∈ t.ctl.signOnQueue, op.line ≠ l) ∧ t.attn.hold.get l = false ∧
  (was.carrier = true →
    GoodbyeWaits s t l ∨ GoodbyeSpoken s t l ∨ s.lc.messages.get 15 = [] ∧ ReleasedAtEnd t l) ∧
  (was.carrier = false → ReleasedAtEnd t l) ∧
  (LinksLawful s →
    (∀ p, was.port = some p → PortCmd.hangUp p ∈ t.pa.bus) ∧
    (was.carrier = true →
      (was.txBusy = true → GoodbyeWaits s t l ∧ now.current = was.current) ∧
      (was.txBusy = false → s.lc.messages.get 15 ≠ [] → GoodbyeSpoken s t l) ∧
      (was.txBusy = false → s.lc.messages.get 15 = [] → ReleasedAtEnd t l)))

/-- What no end of a call touches: the store, the calendar, the settings, and the Account Store Controller but for its sign-on
queue. -/
def KeptAtEnd (s t : State) : Prop :=
  t.store = s.store ∧ t.cal = s.cal ∧ t.pending = s.pending ∧ t.lc.params = s.lc.params ∧ t.lc.messages = s.lc.messages ∧
    t.ctl = { s.ctl with signOnQueue := t.ctl.signOnQueue }

/-- A setting brought to the nearer end of its range (00_scope.md, Out-of-range settings). -/
def nearest (lo hi n : Nat) : Nat := max lo (min hi n)

/-! ## What the requests on accounts carry -/

/-- A group, or its absence, as a request carries it: 1 to 6, and 0 for absent (R207). -/
def groupByte (g : Option GroupNo) : Nat :=
  match g with
  | none => 0
  | some g => g.val + 1

/-- The fields of a CHANGE_ACCOUNT with values the account can hold, any subset of them present (R18). A default group present may
itself be absent, and a status present is LIVE or not, which is BARRED. -/
structure ChangeFields where
  cls : Option ClassNo := none
  sessionLimit : Option Nat := none
  permitted : Option (BitVec 6) := none
  defaultGroup : Option (Option GroupNo) := none
  lowThreshold : Option Nat := none
  live : Option Bool := none
  deriving DecidableEq, Repr

/-- The fields as the frame carries them (R207): status 0 is LIVE and 2 is BARRED. -/
def ChangeFields.frame (f : ChangeFields) : AccountChange :=
  { cls := f.cls.map (fun c => c.val), sessionLimit := f.sessionLimit, permitted := f.permitted.map (fun m => m.toNat),
    defaultGroup := f.defaultGroup.map groupByte, lowThreshold := f.lowThreshold,
    status := f.live.map (fun live => if live then 0 else 2) }

/-- The account after CHANGE_ACCOUNT (R18): present fields replace its values, the session limit within 1 to 4, absent fields stay,
and LIVE sets the failed count to 0. -/
def ChangeFields.applied (f : ChangeFields) (a : Account) : Account :=
  { a with
    cls := f.cls.getD a.cls
    sessionLimit := (f.sessionLimit.map (nearest 1 4)).getD a.sessionLimit
    permitted := f.permitted.getD a.permitted
    defaultGroup := f.defaultGroup.getD a.defaultGroup
    lowThreshold := f.lowThreshold.getD a.lowThreshold
    status := (f.live.map (fun live => if live then Status.live else .barred)).getD a.status
    failedCount := if f.live = some true then 0 else a.failedCount }

/-- Whether CHANGE_ACCOUNT clamps: a session limit outside 1 to 4 is present (R18). -/
def ChangeFields.clamps (f : ChangeFields) : Bool := f.sessionLimit.any (fun n => decide (nearest 1 4 n ≠ n))

/-- The characters of a SET_PASSWORD that is not MALFORMED: none, or 4 to 8 with codes 33 to 126 (R17). -/
def PasswordFits (chars : List Byte) : Prop :=
  (chars = [] ∨ 4 ≤ chars.length) ∧ chars.length ≤ 8 ∧ ∀ c ∈ chars, 33 ≤ c.toNat ∧ c.toNat ≤ 126

/-- The password code that SET_PASSWORD gives: the fold of the characters, and 0 where there are none (R17). -/
def passwordCode (chars : List Byte) : Nat := if chars = [] then 0 else passwordFold chars

/-- A well-formed request on the account of a number, and whether it clamps a setting whatever the account holds (R17 to R21, R23,
R25); DISCARD_OPEN, which acts on open accounts alone, is not among them. -/
def AccountRequest (n : Nat) (i : Instr) (clamped : Bool) : Prop :=
  (clamped = false ∧
    ((∃ amount, i = .grant n amount ∨ i = .revoke n amount) ∨ (∃ chars, PasswordFits chars ∧ i = .setPassword n chars) ∨
      i = .forgive n ∨ i = .readAccount n ∨ i = .readAndClearTotals n ∨ i = .retire n)) ∨
  ∃ f : ChangeFields, i = .changeAccount n f.frame ∧ clamped = f.clamps

/-- Which entries RESTART writes back with every write matching, and which it loses (R206): one mark for each entry in the order of
its write-backs. An entry with retire pending has its slot written a second time after the first write matched (R47). -/
def restartMatches : List Bool → List WriteOutcome → List Bool
  | [], _ => []
  | retires :: rest, writes =>
    if writes.headD .good = .good then
      if retires then decide (writes.getD 1 .good = .good) :: restartMatches rest (writes.drop 2)
      else true :: restartMatches rest (writes.drop 1)
    else false :: restartMatches rest (writes.drop 1)

/-- The completion code of a request that clamps or not: OK_CLAMPED is 1, OK is 0 (R202). -/
def okCode (clamped : Bool) : Byte := if clamped then 1 else 0

/-- What a failed attempt with a reason does to its call (R95): the attempt is counted, message 3 is requested, and the line is back
in ACCOUNT_ENTRY with message 1 behind it or, with no attempt left, the call ends with SIGNON_FAILED. Message 1 has no number to
insert: 0 stands for it (log entry 39, DESIGN CHOICE). -/
def AttemptFailed (reason : Nat) (s t : State) (l : LineNo) : Prop :=
  let told := requestMessage (s.modLine l (fun r => { r with attemptsUsed := r.attemptsUsed + 1 })) l 3 reason
  ((s.line l).attemptsUsed + 1 < s.lc.params.attemptsPerCall →
    t = requestMessage (told.modLine l (fun r => { r with phase := .signon .accountEntry, entryBuffer := [] })) l 1 0) ∧
  (s.lc.params.attemptsPerCall ≤ (s.line l).attemptsUsed + 1 →
    CallEnded .signonFailed told t l ∧ KeptAtEnd s t ∧ t.sup = s.sup ∧ (t.line l).attemptsUsed = (s.line l).attemptsUsed + 1)

/-- What RELEASE leaves of a machine whose line rests in GUARD from now on (R58, R59). -/
def State.releasedLine (s : State) (l : LineNo) : State :=
  let s' := s.modLine l (fun r => { r with phase := .guard, stageTimer := some 5, current := none, pending := none })
  { s' with lc := { s'.lc with bus := s.lc.bus ++ [.release l] } }

/-- A character goes out to a line: TX_CHAR is issued and the transmitter is busy (R69). -/
def State.sent (s : State) (l : LineNo) (c : Byte) : State :=
  let s' := s.modLine l (fun r => { r with txBusy := true })
  { s' with lc := { s'.lc with bus := s.lc.bus ++ [.txChar l c] } }

/-- A port calls for a line (R150): the records of both, and the CALL behind the commands issued before it. -/
def State.called (s : State) (p : PortNo) (l : LineNo) (st : AdmittedStage) (account : Nat) (cls : ClassNo) : State :=
  let s1 := s.modPort p (fun x => { x with state := .calling, line := some l, callTimer := some s.lc.params.callLimit })
  let s2 := s1.modLine l (fun r => { r with phase := .admitted st, port := some p, stageTimer := none })
  { s2 with pa := { s2.pa with bus := s.pa.bus ++ [.call p l account cls] } }

/-- Only one line's record and commands to line units differ between two states. -/
def OnlyLine (l : LineNo) (s t : State) : Prop :=
  t = { s with lc := { s.lc with lines := t.lc.lines, bus := t.lc.bus } } ∧ ∀ k : LineNo, k ≠ l → t.line k = s.line k

end Sys2Proof.Machine
end

