-- ==== Sys2Proof/WellFormed.lean ====
section
/-! DEFINITION. Which commands are well formed: every operand fits the pins or the frame bytes that carry it (the pin table;
R198, R199, R207). -/
namespace Sys2Proof

/-- A number of one byte. -/
def fits8 (n : Nat) : Bool := decide (n < 256)

/-- A number of two bytes. -/
def fits16 (n : Nat) : Bool := decide (n < 65536)

/-- A number of three bytes. -/
def fits24 (n : Nat) : Bool := decide (n < 16777216)

/-- A line number on the seven pins LN0 to LN6. -/
def fitsLine (n : Nat) : Bool := decide (n < 128)

/-- An optional field of one byte. -/
def optFits8 (n : Option Nat) : Bool := (n.map fits8).getD true

/-- An optional field of two bytes. -/
def optFits16 (n : Option Nat) : Bool := (n.map fits16).getD true

/-- What a write left in a slot is 40 bytes, or marks for at most 40 bytes. -/
def WriteOutcome.wellFormed (o : WriteOutcome) : Bool :=
  match o with
  | .good => true
  | .left bytes => decide (bytes.length = 40)
  | .mixed new => decide (new.length ≤ 40)

/-- The line a moment steps, if it is a step. -/
def SecondMoment.stepped (m : SecondMoment) : Option LineNo :=
  match m with
  | .step l => some l
  | .expiry _ => none
  | .rotationChoice => none
  | .storeOperationComplete _ => none

/-- The writes a moment of the Account Store Controller names. -/
def SecondMoment.writes (m : SecondMoment) : List WriteOutcome :=
  match m with
  | .storeOperationComplete writes => writes
  | .step _ => []
  | .expiry _ => []
  | .rotationChoice => []

/-- Every line takes at most one step (R122), and the writes between the steps are well formed. -/
def SecondOrder.wellFormed (o : SecondOrder) : Bool :=
  decide (o.moments.filterMap SecondMoment.stepped).Nodup
    && o.moments.all (fun m => m.writes.all WriteOutcome.wellFormed)

/-- The parameters of ADD_ACCOUNT fit their bytes. -/
def NewAccount.wellFormed (p : NewAccount) : Bool :=
  fits24 p.account && fits8 p.cls && fits8 p.sessionLimit && fits8 p.permitted && fits8 p.defaultGroup
    && fits24 p.allotment && fits16 p.lowThreshold

/-- The fields of CHANGE_ACCOUNT fit their bytes. -/
def AccountChange.wellFormed (f : AccountChange) : Bool :=
  optFits8 f.cls && optFits8 f.sessionLimit && optFits8 f.permitted && optFits8 f.defaultGroup
    && optFits16 f.lowThreshold && optFits8 f.status

/-- The fields of WRITE_CLASS fit their bytes. -/
def PolicyChange.wellFormed (f : PolicyChange) : Bool :=
  optFits8 f.allowedBands && optFits8 f.queuePriority && optFits16 f.grace && optFits16 f.idleLimit
    && optFits16 f.idleWarning && optFits16 f.exhaustionGrace && optFits16 f.hoursGrace

/-- The settings of SET_GROUP fit their bytes. -/
def GroupChange.wellFormed (f : GroupChange) : Bool :=
  optFits8 f.queueLimit && optFits8 f.waitLimit && optFits16 f.failoverAllowance && optFits8 f.congestionMode
    && optFits8 f.congestionThreshold

/-- The parameters of SET_LINE_PARAMETERS fit their bytes. -/
def LineParamChange.wellFormed (f : LineParamChange) : Bool :=
  [f.acceptingCalls, f.busyOut, f.answerLimit, f.carrierHold, f.signonLimit, f.attemptsPerCall, f.lockoutThreshold,
    f.holdLimit, f.selectionLimit, f.callLimit, f.escapeKey, f.escapeMask].all optFits8

/-- Whether a command is well formed. -/
def Instr.wellFormed (i : Instr) : Bool :=
  match i with
  | .powerOnReset _ torn => decide (torn.length ≤ 40)
  | .secondEvent order => order.wellFormed
  | .answerLimitExpiry _ => true
  | .signonLimitExpiry _ => true
  | .holdTimerExpiry _ => true
  | .selectionLimitExpiry _ => true
  | .waitLimitExpiry _ => true
  | .escapeLimitExpiry _ => true
  | .closingLimitExpiry _ => true
  | .guardTimeExpiry _ => true
  | .carrierHoldExpiry _ => true
  | .idleWarningExpiry _ => true
  | .exhaustionCountdownExpiry _ => true
  | .hoursCountdownExpiry _ => true
  | .callTimerExpiry _ => true
  | .lineCommandTimeout => true
  | .portCommandTimeout => true
  | .ring line => fitsLine line
  | .carrierOn line => fitsLine line
  | .carrierOff line => fitsLine line
  | .lineRxChar line _ => fitsLine line
  | .rxBreak line => fitsLine line
  | .txDone line => fitsLine line
  | .lineCommandAccepted => true
  | .hostReadyOn _ => true
  | .hostReadyOff _ => true
  | .accept _ => true
  | .portRxChar _ _ => true
  | .hostDisconnect _ => true
  | .portCommandAccepted => true
  | .rotationChoice => true
  | .storeOperationComplete writes => writes.all WriteOutcome.wellFormed
  | .frameRejected _ params => decide (params.length < 256)
  | .unknownRequest _ params => decide (params.length < 256)
  | .responseRead => true
  | .attachStore sizeCode clear => fits8 sizeCode && fits8 clear
  | .addAccount p => p.wellFormed
  | .setPassword account chars => fits24 account && decide (chars.length ≤ 8)
  | .changeAccount account f => fits24 account && f.wellFormed
  | .grant account amount => fits24 account && fits24 amount
  | .revoke account amount => fits24 account && fits24 amount
  | .forgive account => fits24 account
  | .readAccount account => fits24 account
  | .readSlots first count => fits16 first && fits8 count
  | .readAndClearTotals account => fits24 account
  | .replaceSlot slot image => fits16 slot && decide (image.length = 40)
  | .retire account => fits24 account
  | .flush => true
  | .discardOpen account => fits24 account
  | .writeSchedule first bands =>
    fits16 first && decide (1 ≤ bands.length) && decide (bands.length ≤ Config.maxScheduleRun) && bands.all fits8
  | .writeRates cls rates waitRate => fits8 cls && decide (rates.length = 4) && rates.all fits16 && fits16 waitRate
  | .writeClass cls f => fits8 cls && f.wellFormed
  | .arm => true
  | .cancel => true
  | .revert => true
  | .readTariffSchedule copy first count => fits8 copy && fits16 first && fits8 count
  | .readTariffRates copy cls => fits8 copy && fits8 cls
  | .readTariffClass copy cls => fits8 copy && fits8 cls
  | .setClock minute second => fits16 minute && fits8 second
  | .readClock => true
  | .setLineParameters f => f.wellFormed
  | .lineServiceOut line => fits8 line
  | .lineServiceIn line => fits8 line
  | .forceEnd line => fits8 line
  | .readLine line => fits8 line
  | .clearSummary line => fits8 line
  | .writeMessage message text => fits8 message && decide (text.length < Config.maxParameterLength)
  | .configurePort port group role => fits8 port && fits8 group && fits8 role
  | .portServiceOut port => fits8 port
  | .portServiceIn port => fits8 port
  | .returnPort port => fits8 port
  | .setGroup group f => fits8 group && f.wellFormed
  | .readPort port => fits8 port
  | .readGroup group => fits8 group
  | .clearCounters group => fits8 group
  | .setWatch watch low high kinds action => fits8 watch && fits24 low && fits24 high && fits8 kinds && fits8 action
  | .clearWatch watch => fits8 watch
  | .readWatch watch => fits8 watch
  | .verdictAdmit line => fits8 line
  | .verdictRefuse line => fits8 line
  | .takeAttention => true
  | .describe => true
  | .restart => true
  | .supervisorWriteStrobe _ => true

end Sys2Proof
end

