-- ==== Sys2Proof/Certificates/Slice0/Obligations.lean ====
section
/-! DEFINITION. The statements about the model. Each comes from the rules its docstring names; a clause that rests on a choice of
the model names the log entry. -/

open Sys2Proof Sys2Proof.Machine

/-! ## The machine -/

/-- One step takes the command at the front of the queue and carries it out on the state with the queue's rest (log entry 1).
-/
def Obligations.StepTakesFrontCommand : Prop :=
  ∀ (c : Instr) (rest : List Instr) (s : State), s.pending = c :: rest → step s = exec c { s with pending := rest }

/-- The values power-on reset leaves, block by block: the controller, the entries, every field of every line record, the line
parameters and the message texts, the watches, the calendar with ACTIVE, PENDING and both views, the ports, the groups, the
supervisor port and the attention set (R1, R10, R11, R48, R66, R72, R78, R102, R105, R109 to R111, R144, R146, R198). Three
clauses rest on the model: the entry buffer of a line (log entry 41, DESIGN CHOICE), the RELEASE and HANG_UP commands standing
on the buses right after reset (log entry 29, DEDUCED), and that no request waits, which is read from BUSY being clear (R9,
R198, DEDUCED). -/
def Obligations.ResetValues : Prop :=
  let s := State.reset
  s.ctl = { attachment := .noStore, capacity := 0, inUse := 0, vacated := 0, uncertain := false, rotation := .signOn,
            signOnQueue := [], waiting := none, inProgress := none } ∧
  ((∀ e : EntryNo, s.entry e = none) ∧ s.oat.writeBackList = []) ∧
  (∀ l : LineNo, s.line l =
    { phase := .idle, attempt := 0, attemptsUsed := 0, entryBuffer := [], account := none, entryRef := none,
      selectedGroup := none, port := none, portFaults := 0, moveCount := 0, residue := 0, grace := 0, charged := 0,
      admittedSeconds := 0, connectedSeconds := 0, lastCategory := none, carrier := false, txBusy := false,
      stageTimer := none, holdTimer := none, carrierHold := none, idleCount := none, exhaustion := none, hours := none,
      idleWarning := none, verdictGiven := false, lowWarned := false, echoSuppressed := false, overrun := false,
      outOfService := false, lineToPort := none, portToLine := none, current := none, pending := none, summary := none }) ∧
  s.lc.params = { acceptingCalls := false, busyOut := 0, answerLimit := 30, carrierHold := 2, signonLimit := 90,
                  attemptsPerCall := 3, lockoutThreshold := 5, holdLimit := 60, selectionLimit := 60, callLimit := 15,
                  escapeKey := 0x1C, escapeMask := 0x7F } ∧
  s.lc.messages.toList = ["LA-96 DIAL-IN SERVICE", "ACCOUNT: ", "PASSWORD: ", "SIGN-ON REFUSED, REASON #", "HOST A-F (# PERMITTED): ",
    "WAITING, POSITION #", "ALL PORTS BUSY", "CONNECTED", "HOST NOT AVAILABLE", "RECONNECTED", "LOW BALANCE: # CREDITS",
    "CREDIT EXHAUSTED, ENDING IN # S", "HOURS ENDING IN # S", "IDLE, ENDING IN # S", "ESCAPE: # CREDITS. R=RESUME Q=QUIT",
    "GOODBYE, # CREDITS CHARGED"].map (fun text => ([13, 10] : List Byte) ++ text.toList.map (fun c => BitVec.ofNat 8 c.toNat)) ∧
  s.lc.bus.length = 96 ∧ (∀ l : LineNo, s.lc.bus[l.val]? = some (.release l)) ∧
  (∀ w : WatchNo, (s.watches.get w).inUse = false ∧ (s.watches.get w).hits = 0 ∧ (s.watches.get w).lastHit = none) ∧
  (s.cal.minute = 0 ∧ s.cal.second = 0 ∧ s.cal.clockSet = false ∧ s.cal.armed = false ∧ s.cal.generation = 0) ∧
  (∀ tariff, tariff = s.cal.active ∨ tariff = s.cal.pendingSet →
    (∀ i : Fin 336, tariff.schedule.get i = 0) ∧ (∀ (b : Band) (c : ClassNo), (tariff.rates.get b).get c = 0) ∧
    ∀ c : ClassNo, tariff.waitRates.get c = 0 ∧
      tariff.policies.get c = { allowedBands := 15, queuePriority := 0, grace := 0, idleLimit := 0, idleWarning := 60,
                                exhaustionGrace := 60, hoursGrace := 300 }) ∧
  (∀ view, view = s.cal.view ∨ view = s.cal.prevView →
    view.minute = 0 ∧ view.second = 0 ∧ view.band = 0 ∧ view.generation = 0 ∧
      ∀ c : ClassNo, view.bandRates.get c = 0 ∧ view.waitRates.get c = 0) ∧
  (∀ p : PortNo, s.port p = { group := none, role := .ordinary, state := .outOfService, hostReady := false, line := none,
                              callTimer := none, faultCause := none }) ∧
  s.pa.bus.length = 64 ∧ (∀ p : PortNo, s.pa.bus[p.val]? = some (.hangUp p)) ∧
  (∀ g : GroupNo, s.group g = { queueLimit := 16, waitLimit := 10, failoverAllowance := 0, congestionMode := .level,
                                congestionThreshold := 8, queue := [], congestionCount := 0, refusedCount := 0 }) ∧
  (s.sup.request = [] ∧ s.sup.received = 0 ∧ s.sup.response = [] ∧ s.sup.busy = false ∧ s.sup.ready = false ∧
    s.sup.rejected = false) ∧
  s.attn.asserted = false ∧ s.attn.overflow = false

/-- The reset state meets every law whose keeping is stated below (the canonical form of the store is the model's own, log
entry 7). -/
def Obligations.ResetMeetsLaws : Prop :=
  let s := State.reset
  StoreCanonical s ∧ ResiduesInRange s ∧ WriteBackListOnce s ∧ AccountItemsOrdered s ∧ PoliciesInRange s ∧ ClockInRange s ∧
    MessagesFit s ∧ ParamsInRange s ∧ GroupsInRange s ∧ AccountsInRange s ∧ PortFlagsApart s ∧ LinksLawful s ∧
    SessionsLawful s ∧ SignOnQueueLawful s

/-- POWER_ON_RESET gives every on-chip record its reset value and leaves the store as far as the writes of the operation in
progress had gone. With no operation in progress, or one that writes nothing, the store keeps every byte. An operation that
writes one slot (a write-back, a sign-on operation, a request on an account that is not open, ADD_ACCOUNT, REPLACE_SLOT)
leaves every byte outside that slot as it was, and in it a mixture of old bytes and those of the image it writes (of the
IN_USE and the VACATED one for a write-back). RESTART leaves in the slots of the entries it writes back a mixture of this
kind, and no other byte changed. ATTACH_STORE with the clear option has cleared the slots below the one being written, has
left a mixture there, and nothing beyond is touched. How far the writes had gone is an operand of the command, and that each
write made whole before the reset had taken is the model's (log entry 9, DESIGN CHOICE) (R1, R12, R14, R48). -/
def Obligations.PowerOnResetKeepsStore : Prop :=
  ∀ (done : Nat) (torn : List Bool) (s : State), StoreCanonical s →
    ∃ t, exec (.powerOnReset done torn) s = .next t ∧
      t = { State.reset with store := t.store, pending := s.pending } ∧
      (s.ctl.inProgress = none → t.store = s.store) ∧
      let mixes (slot : Nat) (images : List (List Byte)) : Prop := ∀ address : Nat,
        if slot * 40 ≤ address ∧ address < slot * 40 + 40 then
          storeRead t.store address ∈ storeRead s.store address :: images.map (fun b => b.getD (address - slot * 40) 0)
        else storeRead t.store address = storeRead s.store address
      let closed (n : Nat) : Prop := ∀ e x, s.entry e = some x → x.account ≠ n
      let found (n slot : Nat) (a : Account) : Prop := closed n ∧ s.lookup n = .found slot a
      let carries (r : StoreReq) : Prop := s.ctl.inProgress = some (.supervisor r)
      (∀ (e : EntryNo) (n : Nat) (slot : SlotNo) (a : Account), s.ctl.inProgress = some (.writeBack e n slot a) →
        mixes slot.val [encodeSlot .inUse n a, encodeSlot .vacated n a]) ∧
      (∀ op : SignOnOp, s.ctl.inProgress = some (.signOn op) →
        (∀ slot a, found op.account slot a →
          let count := satSucc 15 a.failedCount
          let threshold := s.lc.params.lockoutThreshold
          mixes slot [
            encodeSlot .inUse op.account { a with failedCount := 0, lastSignOn := some (s.cal.view.minute, op.line) },
            encodeSlot .inUse op.account
              { a with failedCount := count, status := if threshold ≠ 0 ∧ threshold ≤ count then .locked else a.status }]) ∧
        (¬closed op.account ∨ (∀ slot a, s.lookup op.account ≠ .found slot a) → t.store = s.store)) ∧
      (∀ n slot a, found n slot a →
        (∀ amount, carries (.grant n amount) → mixes slot [encodeSlot .inUse n (editGrant amount a).acct]) ∧
        (∀ amount, carries (.revoke n amount) → mixes slot [encodeSlot .inUse n (editRevoke amount a).acct]) ∧
        (carries (.forgive n) → mixes slot [encodeSlot .inUse n (editForgive a).acct]) ∧
        (∀ chars, carries (.setPassword n chars) → mixes slot [encodeSlot .inUse n (editPassword chars a).acct]) ∧
        (∀ f, carries (.change n f) → mixes slot [encodeSlot .inUse n (editChange f a).acct]) ∧
        (carries (.readAndClear n) → mixes slot [encodeSlot .inUse n (clearTotals a)]) ∧
        (carries (.retire n) → mixes slot [encodeSlot .vacated n a])) ∧
      (∀ p slot, carries (.add p) → s.lookupForAdd p.account = .notFound (some slot) →
        mixes slot [encodeSlot .inUse p.account (newAccount p)]) ∧
      (∀ slot image, carries (.replace slot image) → mixes slot [replaceBytes image]) ∧
      ((∃ n, carries (.readAccount n) ∨ carries (.discard n)) ∨ (∃ first count, carries (.readSlots first count)) ∨
          carries .flush ∨ (∃ size clear, carries (.attach size clear) ∧ clear ≠ 1) → t.store = s.store) ∧
      (∀ size, carries (.attach size 1) → s.ctl.capacity ≤ 8192 → ∀ address : Nat,
        (address / 40 < s.ctl.capacity → address / 40 < done → storeRead t.store address = 0) ∧
        (address / 40 < s.ctl.capacity → address / 40 = done → storeRead t.store address ∈ [storeRead s.store address, 0]) ∧
        (s.ctl.capacity ≤ address / 40 ∨ done < address / 40 → storeRead t.store address = storeRead s.store address)) ∧
      ∀ ended, s.ctl.inProgress = some (.restart ended) → ∀ address : Nat,
        storeRead t.store address = storeRead s.store address ∨
          ∃ e ∈ s.oat.writeBackList, ∃ x, s.entry e = some x ∧ x.slot.val * 40 ≤ address ∧ address < x.slot.val * 40 + 40 ∧
            storeRead t.store address ∈ [(encodeSlot .inUse x.account x.acct).getD (address - x.slot.val * 40) 0,
              (encodeSlot .vacated x.account x.acct).getD (address - x.slot.val * 40) 0]

/-! ## Laws every step keeps -/

/-- Every step keeps, each by itself: the account store in its canonical form, which is the model's own (log entry 7); every
residue between 0 and 59,999 (R128); the write-back list free of duplicates (R36); the attention set at 16 ACCOUNT items or
fewer with no two for one account (R203); BUSY and RESPONSE_READY from being set together (R199, R201); and the class
policies, the line parameters, the message texts, the groups, and the calendar with its views within their ranges (R66, R72,
R105, R110, R146). With the views in range and every waiting command one that the pins and frames can carry, it keeps the
account number and every account field of every entry in range (R3, R27). -/
def Obligations.RecordsStayInRange : Prop :=
  ∀ s t : State, step s = .next t →
    (StoreCanonical s → StoreCanonical t) ∧ (ResiduesInRange s → ResiduesInRange t) ∧
      (WriteBackListOnce s → WriteBackListOnce t) ∧ (AccountItemsOrdered s → AccountItemsOrdered t) ∧
      (PortFlagsApart s → PortFlagsApart t) ∧ (PoliciesInRange s → PoliciesInRange t) ∧ (ParamsInRange s → ParamsInRange t) ∧
      (MessagesFit s → MessagesFit t) ∧ (GroupsInRange s → GroupsInRange t) ∧ (ClockInRange s → ClockInRange t) ∧
      (AccountsInRange s → ClockInRange s → (∀ c ∈ s.pending, c.wellFormed = true) → AccountsInRange t)

/-- Every step keeps lines, ports and queues naming each other: a port that is CALLING or IN_USE and its ADMITTED line, the
port CALLING while the line is CALLING or MOVING and IN_USE while it is CONNECTED or ESCAPED, in the line's selected group; a
queue place for exactly the lines in WAITING, in priority order; and a queue non-empty only while no ORDINARY port of its
group is FREE (R145, R149, R153, R157, R171, R172). -/
def Obligations.LinksStayLawful : Prop :=
  ∀ s t : State, LinksLawful s → step s = .next t → LinksLawful t

/-- Every step keeps the session count of every entry at the number of ADMITTED lines that reference it and at 4 or fewer, the
open entry reference present exactly in ADMITTED, no two entries on one account, and the entries lawful: OPEN exactly with a
session, a CLOSING entry in the write-back list or with its write-back in progress, a STUCK entry outside the list, and retire
pending never on a STUCK entry (R5, R28, R36, R44, R49). -/
def Obligations.SessionsStayCounted : Prop :=
  ∀ s t : State, LinksLawful s → SessionsLawful s → step s = .next t → SessionsLawful t

/-- Every step keeps the sign-on queue lawful: at most one operation of a line waits, and its line is in CHECKING for a VERIFY
and in ADMITTING for an ADMIT, under the operation's attempt number; an operation of a line that leaves its stage is withdrawn
(R10, R86, R99). The premise rules out that the attempt number, which wraps at 256 (R79), has come round to that of the
operation in progress. -/
def Obligations.SignOnQueueStaysLawful : Prop :=
  ∀ s t : State, SignOnQueueLawful s → AttemptsTold s → step s = .next t → SignOnQueueLawful t

/-! ## What only some commands may change -/

/-- The carrier present flag of a line changes only by CARRIER_ON and CARRIER_OFF for that line, and the host ready flag of a
port only by HOST_READY_ON and HOST_READY_OFF for that port, power-on reset apart; and each of those sets or clears it in
every phase and state (R52, R144). Only a second event and power-on reset change the views and ACTIVE, and a second event
changes ACTIVE only by the tariff swap of a minute event, the second having been 59, with the arm flag set (R117, R118). -/
def Obligations.FlagsAndViewsKept : Prop :=
  ((∀ (i : Instr) (s t : State) (l : LineNo), exec i s = .next t → (∀ d m, i ≠ .powerOnReset d m) →
    (t.line l).carrier =
      if i = .carrierOn l.val then true else if i = .carrierOff l.val then false else (s.line l).carrier) ∧
  (∀ (i : Instr) (s t : State) (p : PortNo), exec i s = .next t → (∀ d m, i ≠ .powerOnReset d m) →
    (t.port p).hostReady =
      if i = .hostReadyOn p then true else if i = .hostReadyOff p then false else (s.port p).hostReady)) ∧
  (∀ (i : Instr) (s t : State), exec i s = .next t → (∀ d m, i ≠ .powerOnReset d m) →
    ((∀ order, i ≠ .secondEvent order) →
      t.cal.view = s.cal.view ∧ t.cal.prevView = s.cal.prevView ∧ t.cal.active = s.cal.active ∧
        t.cal.generation = s.cal.generation) ∧
    (t.cal.active ≠ s.cal.active →
      59 ≤ s.cal.second ∧ s.cal.armed = true ∧ t.cal.active = s.cal.pendingSet ∧ t.cal.generation = s.cal.generation + 1 ∧ t.cal.armed = false))

/-- The account store is written by store operations alone: every command but the completion of one, be it a command of its
own or a moment of a second event (R138), and a power-on reset that cuts one short, leaves every byte of the store as it was
(R1, R12). That the writes of an operation appear at its completion, and none at the rotation choice that begins it, is the
model's reading (log entry 10, DEDUCED). -/
def Obligations.StoreWrittenOnlyByOperations : Prop :=
  ∀ (i : Instr) (s t : State), exec i s = .next t → (∀ writes, i ≠ .storeOperationComplete writes) →
    (∀ order writes, i = .secondEvent order → .storeOperationComplete writes ∉ order.moments) →
    ((∀ d m, i ≠ .powerOnReset d m) ∨ s.ctl.inProgress = none) → t.store = s.store

/-! ## Encodings -/

/-- A slot image carries its account whole: the 40 bytes sum to 0 and decode to the account number and every field, for every
account whose fields are in range; and a sound slot has one image: the 40 bytes of a sound IN_USE or VACATED slot are the
image of the account they decode to, whose fields are in range (R3, R207). -/
def Obligations.SlotImageCarriesAccount : Prop :=
  (∀ (n : Nat) (a : Account), 1 ≤ n → n ≤ maxAccount → AccountInRange a →
    (encodeSlot .inUse n a).length = 40 ∧ byteSum (encodeSlot .inUse n a) = 0 ∧
      decodeSlot (encodeSlot .inUse n a) = .inUse n a ∧ decodeSlot (encodeSlot .vacated n a) = .vacated n a) ∧
  (∀ (bytes : List Byte) (n : Nat) (a : Account), bytes.length = 40 →
    (decodeSlot bytes = .inUse n a → bytes = encodeSlot .inUse n a ∧ 1 ≤ n ∧ n ≤ maxAccount ∧ AccountInRange a) ∧
    (decodeSlot bytes = .vacated n a → bytes = encodeSlot .vacated n a ∧ 1 ≤ n ∧ n ≤ maxAccount ∧ AccountInRange a))

/-- The frame of every request row carries its request whole: the code is one of the summary's, the parameters are of an
admitted length, and reading them gives the request with every parameter. And a request row is the frame that carries it: from
an empty request buffer, the write strobes of the frame's bytes do exactly what the row does, which is how the model reads the
rows (log entry 3) (R198, R199, R207). -/
def Obligations.RequestRowsAreFrames : Prop :=
  (∀ (i : Instr) (r : Request), i.wellFormed = true → requestOf i = some r →
    requestCode r ∈ requestCodes ∧ (requestParams r).length ≤ 80 ∧ parseRequest (requestCode r) (requestParams r) = some r) ∧
  (∀ (i : Instr) (r : Request) (s : State), i.wellFormed = true → requestOf i = some r → s.sup.request = [] →
    s.sup.received = 0 →
    ∃ t, exec i s = .next t ∧ execAll ((requestFrame r).map Instr.supervisorWriteStrobe) s = .next t)

/-! ## The supervisor port -/

/-- A write strobe that does not complete the frame only adds its byte to the request buffer; from the 83rd byte on it is
counted and not stored. A frame with a parameter length above 80 completes at the byte that brings it to that length, with
MALFORMED, or with UNKNOWN_REQUEST for a code outside the summary, or is rejected while BUSY is set. Read strobes deliver a
response byte by byte: after k of them the k-th byte stands on SD0 to SD7, and the read of the last byte clears
RESPONSE_READY. With RESPONSE_READY clear a read strobe drives 0 and changes nothing (R198, R199, R201). -/
def Obligations.StrobesMoveBytes : Prop :=
  (∀ (byte : Byte) (s : State),
    let n := (s.sup.request.getD 1 0).toNat
    (s.sup.received = s.sup.request.length →
      s.sup.received = 0 ∨ (s.sup.received = 1 ∧ byte ≠ 0) ∨
        (2 ≤ s.sup.received ∧ s.sup.received < 82 ∧ s.sup.received + 1 ≠ n + 2) →
      exec (.supervisorWriteStrobe byte) s =
        .next { s with sup := { s.sup with request := s.sup.request ++ [byte], received := s.sup.received + 1 } }) ∧
    (82 ≤ s.sup.received → s.sup.request.length = 82 →
      (s.sup.received + 1 ≠ n + 2 → exec (.supervisorWriteStrobe byte) s =
        .next { s with sup := { s.sup with received := s.sup.received + 1 } }) ∧
      (s.sup.received + 1 = n + 2 → s.sup.busy = true → exec (.supervisorWriteStrobe byte) s =
        .next { s with sup := { s.sup with request := [], received := 0, rejected := true } }) ∧
      (s.sup.received + 1 = n + 2 → s.sup.busy = false → exec (.supervisorWriteStrobe byte) s =
        .next { s with sup := s.sup.answered (if (s.sup.request.getD 0 0).toNat ∈ requestCodes then 3 else 2) false [] }))) ∧
  ((∀ (s : State) (k : Nat), s.sup.ready = true → s.sup.readPos = 0 → 1 ≤ k → k ≤ s.sup.response.length →
    execAll (List.replicate k .responseRead) s =
      .next { s with sup := { s.sup with sdOut := s.sup.response.getD (k - 1) 0, readPos := k,
                                         ready := decide (k < s.sup.response.length) } }) ∧
  ∀ s : State, s.sup.ready = false → exec .responseRead s = .next { s with sup := { s.sup with sdOut := 0 } })

/-- While BUSY is set every frame that completes, whatever it carries, is discarded: REJECTED is set, the request buffer is
emptied, and nothing else changes. With BUSY clear a frame whose code is not in the summary of requests completes with
UNKNOWN_REQUEST, and one whose parameter length its request does not admit with MALFORMED, for every code of the summary: the
admitted length of each is given, as the parameters of the summary give it, by the part for READ_TARIFF and by the fields
marked present where there is a presence field. Neither changes anything outside the port (R199, R207 and the summary of
requests). That a presence bit beyond the last field is judged with the length is log entry 42 (DEDUCED). -/
def Obligations.FramesRefused : Prop :=
  (∀ (i : Instr) (s : State), s.sup.busy = true →
    ((requestOf i).isSome = true ∨ (∃ code params, i = .frameRejected code params ∨ i = .unknownRequest code params)) →
    exec i s = .next { s with sup := { s.sup with request := [], received := 0, rejected := true } }) ∧
  (∀ (code : Byte) (params : List Byte) (s : State), s.sup.busy = false → params.length < 256 →
    (code.toNat ∉ requestCodes →
      exec (.unknownRequest code params) s = .next { s with sup := s.sup.answered 2 false [] }) ∧
    let n := params.length
    let byte (k : Nat) : Nat := (params.getD k 0).toNat
    let marked (header presence : Nat) (sizes : List Nat) : Prop :=
      presence < 2 ^ sizes.length ∧
        n = header + ((List.range sizes.length).map (fun k => if presence.testBit k then sizes.getD k 0 else 0)).sum
    let admits : Nat → Prop
      | 0x1C => n = 0 | 0x26 => n = 0 | 0x60 => n = 0 | 0x61 => n = 0 | 0x62 => n = 0
      | 0x23 => n = 1 | 0x32 => n = 1 | 0x33 => n = 1 | 0x34 => n = 1 | 0x42 => n = 1 | 0x44 => n = 1 | 0x45 => n = 1
      | 0x46 => n = 1 | 0x51 => n = 1 | 0x52 => n = 1
      | 0x10 => n = 2 | 0x31 => n = 2 | 0x41 => n = 2 | 0x53 => n = 2
      | 0x16 => n = 3 | 0x17 => n = 3 | 0x18 => n = 3 | 0x19 => n = 3 | 0x1B => n = 3 | 0x1D => n = 3 | 0x25 => n = 3
      | 0x40 => n = 3
      | 0x14 => n = 6 | 0x15 => n = 6
      | 0x50 => n = 9
      | 0x21 => n = 11
      | 0x11 => n = 12
      | 0x1A => n = 42
      | 0x12 => 3 ≤ n ∧ n ≤ 11
      | 0x20 => 3 ≤ n ∧ n ≤ 80
      | 0x35 => 1 ≤ n ∧ n ≤ 80
      | 0x24 => byte 1 = 0 ∧ n = 5 ∨ (byte 1 = 1 ∨ byte 1 = 2) ∧ n = 3
      | 0x13 => 4 ≤ n ∧ marked 4 (byte 3) [1, 1, 1, 1, 2, 1]
      | 0x22 => 2 ≤ n ∧ marked 2 (byte 1) [1, 1, 2, 2, 2, 2, 2]
      | 0x30 => 2 ≤ n ∧ marked 2 (byte 0 * 256 + byte 1) [1, 1, 1, 1, 1, 1, 1, 1, 1, 1, 1, 1]
      | 0x43 => 2 ≤ n ∧ marked 2 (byte 1) [1, 1, 2, 1, 1]
      | _ => False
    (code.toNat ∈ requestCodes → ((parseRequest code.toNat params).isSome = true ↔ admits code.toNat)) ∧
    (code.toNat ∈ requestCodes → ¬admits code.toNat →
      exec (.unknownRequest code params) s = .next { s with sup := s.sup.answered 3 false [] } ∧
      exec (.frameRejected code params) s = .next { s with sup := s.sup.answered 3 false [] }))

/-- The store requests that pass the checks of R15, and those without a check of their own, wait in the supervisor class with
BUSY set; nothing else changes. The acceptance checks come in their order: without a store every store request but
ATTACH_STORE and RESTART completes with NO_STORE; with one, an account number outside 1 to 9,999,999 completes ADD_ACCOUNT and
REPLACE_SLOT with MALFORMED and the others with NOT_FOUND, before any identifier is looked at; then a class, group or slot
number out of range completes with OUT_OF_RANGE. Of the requests' own checks, a password of 1 to 3 characters or with a
character outside 33 to 126, a status other than LIVE and BARRED, and an image that is damaged or has both an allotment and an
overdraft, complete with MALFORMED (R9, R15, R17, R18, R24, R200). That a permitted group above 6 is a number out of range is
log entry 16 (DEDUCED), and that the clamped flag is clear beside these codes is log entry 18 (DEDUCED). -/
def Obligations.StoreRequestsAccepted : Prop :=
  (∀ s : State, s.sup.busy = false →
    let waits (i : Instr) (r : StoreReq) : Prop :=
      exec i s = .next { s with sup := s.sup.accepted, ctl := { s.ctl with waiting := some r } }
    (∀ size clear, clear ≤ 1 → waits (.attachStore size clear) (.attach size clear)) ∧ waits .restart .restart ∧
    (s.ctl.attachment ≠ .noStore →
      (∀ p : NewAccount, 1 ≤ p.account → p.account ≤ 9999999 → p.cls ≤ 3 → p.permitted ≤ 63 → p.defaultGroup ≤ 6 →
        waits (.addAccount p) (.add p)) ∧
      (∀ n chars, 1 ≤ n → n ≤ 9999999 → (chars = [] ∨ 4 ≤ chars.length) → chars.length ≤ 8 →
        (∀ c ∈ chars, 33 ≤ c.toNat ∧ c.toNat ≤ 126) → waits (.setPassword n chars) (.setPassword n chars)) ∧
      (∀ n f, 1 ≤ n → n ≤ 9999999 → (∀ c, f.cls = some c → c ≤ 3) → (∀ p, f.permitted = some p → p ≤ 63) →
        (∀ g, f.defaultGroup = some g → g ≤ 6) → (∀ x, f.status = some x → x = 0 ∨ x = 2) →
        waits (.changeAccount n f) (.change n f)) ∧
      (∀ n amount, 1 ≤ n → n ≤ 9999999 → waits (.grant n amount) (.grant n amount) ∧
        waits (.revoke n amount) (.revoke n amount) ∧ waits (.forgive n) (.forgive n) ∧
        waits (.readAccount n) (.readAccount n) ∧ waits (.readAndClearTotals n) (.readAndClear n) ∧
        waits (.retire n) (.retire n) ∧ waits (.discardOpen n) (.discard n)) ∧
      (∀ first count, first < s.ctl.capacity → waits (.readSlots first count) (.readSlots first count)) ∧
      (∀ slot image, slot < s.ctl.capacity → image.length = 40 →
        (imageView image = .empty ∨
          ∃ n a, (imageView image = .inUse n a ∨ imageView image = .vacated n a) ∧ (a.allotment = 0 ∨ a.overdraft = 0)) →
        waits (.replaceSlot slot image) (.replace slot image)) ∧
      waits .flush .flush)) ∧
  (∀ s : State, s.sup.busy = false →
    let completes (i : Instr) (code : Byte) : Prop := exec i s = .next { s with sup := s.sup.answered code false [] }
    (s.ctl.attachment = .noStore →
      (∀ i r, requestOf i = some (.store r) → requestLengthFits (.store r) = true → (∀ size clear, r ≠ .attach size clear) →
        r ≠ .restart → completes i 9)) ∧
    (s.ctl.attachment ≠ .noStore →
      (∀ n, n = 0 ∨ 9999999 < n →
        (∀ p : NewAccount, p.account = n → completes (.addAccount p) 3) ∧
        (∀ amount, completes (.grant n amount) 5 ∧ completes (.revoke n amount) 5) ∧ completes (.forgive n) 5 ∧
        completes (.readAccount n) 5 ∧ completes (.readAndClearTotals n) 5 ∧ completes (.retire n) 5 ∧
        completes (.discardOpen n) 5 ∧ (∀ chars, chars.length ≤ 8 → completes (.setPassword n chars) 5) ∧
        ∀ f, completes (.changeAccount n f) 5) ∧
      (∀ p : NewAccount, 1 ≤ p.account → p.account ≤ 9999999 → 3 < p.cls ∨ 63 < p.permitted ∨ 6 < p.defaultGroup →
        completes (.addAccount p) 4) ∧
      (∀ n f, 1 ≤ n → n ≤ 9999999 →
        (∃ c, f.cls = some c ∧ 3 < c) ∨ (∃ p, f.permitted = some p ∧ 63 < p) ∨ (∃ g, f.defaultGroup = some g ∧ 6 < g) →
        completes (.changeAccount n f) 4) ∧
      (∀ n chars, 1 ≤ n → n ≤ 9999999 → chars.length ≤ 8 →
        (1 ≤ chars.length ∧ chars.length < 4) ∨ (∃ c ∈ chars, c.toNat < 33 ∨ 126 < c.toNat) →
        completes (.setPassword n chars) 3) ∧
      (∀ n x, 1 ≤ n → n ≤ 9999999 → x ≠ 0 → x ≠ 2 → completes (.changeAccount n { status := some x }) 3) ∧
      (∀ first count, s.ctl.capacity ≤ first → completes (.readSlots first count) 4) ∧
      (∀ slot image, image.length = 40 →
        let named := imageByte image 0 = 1 ∨ imageByte image 0 = 2
        let number := imageNat image 2 3
        (named → number = 0 ∨ 9999999 < number → completes (.replaceSlot slot image) 3) ∧
        (s.ctl.capacity ≤ slot → ¬named ∨ (1 ≤ number ∧ number ≤ 9999999) → completes (.replaceSlot slot image) 4) ∧
        (slot < s.ctl.capacity → imageView image = .damaged → completes (.replaceSlot slot image) 3) ∧
        (∀ n a, slot < s.ctl.capacity → imageView image = .inUse n a ∨ imageView image = .vacated n a →
          0 < a.allotment → 0 < a.overdraft → completes (.replaceSlot slot image) 3))))

/-! ## Requests that complete at once -/

/-- ARM_TARIFF in each of its cases, with the arm flag and the tariff generation in the response; and while the arm flag is
set PENDING is fixed: the write requests complete with TARIFF_ARMED, and no command but power-on reset changes it (R115). -/
def Obligations.ArmTariff : Prop :=
  (∀ s : State, s.sup.busy = false →
    let flag (b : Bool) : Byte := if b then 1 else 0
    exec .arm s =
      .next { s with cal := { s.cal with armed := true }, sup := s.sup.answered 0 false [1, s.cal.generation] } ∧
    exec .cancel s =
      .next { s with cal := { s.cal with armed := false }, sup := s.sup.answered 0 false [0, s.cal.generation] } ∧
    (s.cal.armed = false → exec .revert s =
      .next { s with cal := { s.cal with pendingSet := s.cal.active },
                     sup := s.sup.answered 0 false [0, s.cal.generation] }) ∧
    (s.cal.armed = true → exec .revert s = .next { s with sup := s.sup.answered 11 false [1, s.cal.generation] }) ∧
    (∀ b : Byte, 2 < b.toNat → s.sup.request = [] → s.sup.received = 0 →
      execAll [.supervisorWriteStrobe 0x23, .supervisorWriteStrobe 1, .supervisorWriteStrobe b] s =
        .next { s with sup := s.sup.answered 3 false [flag s.cal.armed, s.cal.generation] }) ∧
    (s.cal.armed = true →
      (∀ first bands, bands ≠ [] → bands.length ≤ 78 → first + bands.length ≤ 336 → (∀ b ∈ bands, b ≤ 3) →
        exec (.writeSchedule first bands) s = .next { s with sup := s.sup.answered 11 false [] }) ∧
      (∀ cls rates wait, cls ≤ 3 → rates.length = 4 →
        exec (.writeRates cls rates wait) s = .next { s with sup := s.sup.answered 11 false [] }) ∧
      (∀ cls f, cls ≤ 3 → (∀ b, f.allowedBands = some b → b ≤ 15) →
        exec (.writeClass cls f) s = .next { s with sup := s.sup.answered 11 false [] }))) ∧
  ∀ (i : Instr) (s t : State), s.cal.armed = true → (∀ d m, i ≠ .powerOnReset d m) → exec i s = .next t →
    t.cal.pendingSet = s.cal.pendingSet

/-- WRITE_SCHEDULE in the order of its cases: a parameter length that does not fit, a run of no bands, a first slot above 335,
a band above 3, a run past slot 335 and a set arm flag write nothing, each with its completion; a run that fits writes exactly
its slots of PENDING (R112). -/
def Obligations.WriteScheduleCases : Prop :=
  ∀ s : State, s.sup.busy = false →
    (∀ params : List Byte, params.length < 3 ∨ 80 < params.length → params.length < 256 →
      exec (.unknownRequest 0x20 params) s = .next { s with sup := s.sup.answered 3 false [] }) ∧
    ∀ (first : Nat) (bands : List Nat), bands.length ≤ 78 →
    let completes (code : Byte) : Prop :=
      exec (.writeSchedule first bands) s = .next { s with sup := s.sup.answered code false [] }
    (bands = [] → completes 3) ∧
    (bands ≠ [] → 335 < first → completes 4) ∧
    (first ≤ 335 → (∃ b ∈ bands, 3 < b) → completes 4) ∧
    (first ≤ 335 → (∀ b ∈ bands, b ≤ 3) → 336 < first + bands.length → completes 3) ∧
    (bands ≠ [] → (∀ b ∈ bands, b ≤ 3) → first + bands.length ≤ 336 → s.cal.armed = true → completes 11) ∧
    (bands ≠ [] → (∀ b ∈ bands, b ≤ 3) → first + bands.length ≤ 336 → s.cal.armed = false →
      ∃ t, exec (.writeSchedule first bands) s = .next t ∧
        t = { s with sup := s.sup.answered 0 false [],
                     cal := { s.cal with pendingSet := { s.cal.pendingSet with schedule := t.cal.pendingSet.schedule } } } ∧
        ∀ i : Fin 336, (t.cal.pendingSet.schedule.get i).val =
          if first ≤ i.val ∧ i.val < first + bands.length then bands.getD (i.val - first) 0
          else (s.cal.pendingSet.schedule.get i).val)

/-- WRITE_RATES writes the five rates of one class of PENDING and nothing else, and WRITE_CLASS the present fields of one
class's policy, each at the nearer end of its range, and returns the policy in its 12 bytes; both are refused for a class
above 3, and WRITE_CLASS for allowed bands that name a band above 3, whether or not the arm flag is set (R113, R114, R207). -/
def Obligations.WriteRatesAndClass : Prop :=
  ∀ s : State, s.sup.busy = false →
    let policyImage (p : ClassPolicy) : List Byte := [BitVec.ofNat 8 p.allowedBands.toNat, BitVec.ofNat 8 p.queuePriority] ++
      beBytes 2 p.grace ++ beBytes 2 p.idleLimit ++ beBytes 2 p.idleWarning ++ beBytes 2 p.exhaustionGrace ++
      beBytes 2 p.hoursGrace
    (∀ cls rates wait f, 3 < cls → rates.length = 4 →
      exec (.writeRates cls rates wait) s = .next { s with sup := s.sup.answered 4 false [] } ∧
      exec (.writeClass cls f) s = .next { s with sup := s.sup.answered 4 false [] }) ∧
    (∀ (cls : ClassNo) (f : PolicyChange) b, f.allowedBands = some b → 15 < b →
      exec (.writeClass cls.val f) s = .next { s with sup := s.sup.answered 4 false [] }) ∧
    (∀ (cls : ClassNo) (rates : List Nat) (wait : Nat), rates.length = 4 → s.cal.armed = false →
      ∃ t, exec (.writeRates cls.val rates wait) s = .next t ∧
        let written := t.cal.pendingSet
        t = { s with sup := s.sup.answered 0 false [],
                     cal := { s.cal with pendingSet :=
                       { s.cal.pendingSet with rates := written.rates, waitRates := written.waitRates } } } ∧
        ∀ (b : Band) (c : ClassNo),
          (t.cal.pendingSet.rates.get b).get c =
            (if c = cls then rates.getD b.val 0 else (s.cal.pendingSet.rates.get b).get c) ∧
          t.cal.pendingSet.waitRates.get c = if c = cls then wait else s.cal.pendingSet.waitRates.get c) ∧
    (∀ (cls : ClassNo) (f : PolicyChange), s.cal.armed = false → (∀ b, f.allowedBands = some b → b ≤ 15) →
      ∃ t, exec (.writeClass cls.val f) s = .next t ∧
        let old := s.cal.pendingSet.policies.get cls
        let new := t.cal.pendingSet.policies.get cls
        let clamped := f.queuePriority.any (3 < ·) || f.grace.any (255 < ·) || f.idleLimit.any (fun n => 0 < n && n < 4) ||
          f.idleLimit.any (255 < ·) || f.idleWarning.any (· < 10) || f.idleWarning.any (255 < ·) ||
          f.exhaustionGrace.any (600 < ·) || f.hoursGrace.any (600 < ·)
        t = { s with sup := s.sup.answered (okCode clamped) clamped (policyImage new),
                     cal := { s.cal with pendingSet := { s.cal.pendingSet with policies := t.cal.pendingSet.policies } } } ∧
        (∀ c : ClassNo, c ≠ cls → t.cal.pendingSet.policies.get c = s.cal.pendingSet.policies.get c) ∧
        new.allowedBands.toNat = f.allowedBands.getD old.allowedBands.toNat ∧
        new.queuePriority = (f.queuePriority.map (nearest 0 3)).getD old.queuePriority ∧
        new.grace = (f.grace.map (nearest 0 255)).getD old.grace ∧
        new.idleLimit = (f.idleLimit.map (fun n => if n = 0 then 0 else nearest 4 255 n)).getD old.idleLimit ∧
        new.idleWarning = (f.idleWarning.map (nearest 10 255)).getD old.idleWarning ∧
        new.exhaustionGrace = (f.exhaustionGrace.map (nearest 0 600)).getD old.exhaustionGrace ∧
        new.hoursGrace = (f.hoursGrace.map (nearest 0 600)).getD old.hoursGrace)

/-- READ_TARIFF returns the arm flag, the tariff generation and the part asked for, of ACTIVE for copy 0 and of PENDING for
copy 1, and changes nothing; a count of 0 reads 78 bands without a clamp (log entry 17, DEDUCED; R116), and the copy is judged
ahead of the slot and the class (log entry 19, DESIGN CHOICE). SET_CLOCK takes the time given, at the nearer end of its range,
as the time of the second now running and changes no view; READ_CLOCK returns the calendar's time with the band and generation
of the current view; DESCRIBE returns the identity code 0A60 hex, revision 1, the numbers of lines, ports and entries, the
attachment state, the capacity, the two counts and the two flags as they stand. The two readings change nothing (R107, R108,
R205, R207). -/
def Obligations.CalendarAndTariffRead : Prop :=
  (∀ (copy : Nat) (s : State), s.sup.busy = false →
    let policyImage (p : ClassPolicy) : List Byte := [BitVec.ofNat 8 p.allowedBands.toNat, BitVec.ofNat 8 p.queuePriority] ++
      beBytes 2 p.grace ++ beBytes 2 p.idleLimit ++ beBytes 2 p.idleWarning ++ beBytes 2 p.exhaustionGrace ++
      beBytes 2 p.hoursGrace
    let chosen := if copy = 0 then s.cal.active else s.cal.pendingSet
    let head : List Byte := [if s.cal.armed then 1 else 0, s.cal.generation]
    (2 ≤ copy → ∀ first count cls,
      exec (.readTariffSchedule copy first count) s = .next { s with sup := s.sup.answered 3 false [] } ∧
      exec (.readTariffRates copy cls) s = .next { s with sup := s.sup.answered 3 false [] } ∧
      exec (.readTariffClass copy cls) s = .next { s with sup := s.sup.answered 3 false [] }) ∧
    (copy ≤ 1 → ∀ first count cls, 335 < first → 3 < cls →
      exec (.readTariffSchedule copy first count) s = .next { s with sup := s.sup.answered 4 false [] } ∧
      exec (.readTariffRates copy cls) s = .next { s with sup := s.sup.answered 4 false [] } ∧
      exec (.readTariffClass copy cls) s = .next { s with sup := s.sup.answered 4 false [] }) ∧
    (copy ≤ 1 → ∀ first count, first ≤ 335 →
      ∃ bands : List Byte, exec (.readTariffSchedule copy first count) s =
          .next { s with sup := s.sup.answered (okCode (decide (78 < count))) (decide (78 < count)) (head ++ bands) } ∧
        bands.length = min (if count = 0 then 78 else min count 78) (336 - first) ∧
        ∀ i, i < bands.length → ∀ h : first + i < 336, bands[i]? = some (BitVec.ofNat 8 (chosen.schedule.get ⟨first + i, h⟩).val)) ∧
    (copy ≤ 1 → ∀ cls : ClassNo,
      exec (.readTariffRates copy cls.val) s =
        .next { s with sup := s.sup.answered 0 false (head ++ beBytes 2 ((chosen.rates.get 0).get cls) ++
          beBytes 2 ((chosen.rates.get 1).get cls) ++ beBytes 2 ((chosen.rates.get 2).get cls) ++
          beBytes 2 ((chosen.rates.get 3).get cls) ++ beBytes 2 (chosen.waitRates.get cls)) } ∧
      exec (.readTariffClass copy cls.val) s =
        .next { s with sup := s.sup.answered 0 false (head ++ policyImage (chosen.policies.get cls)) })) ∧
  ((∀ s : State, s.sup.busy = false →
    (∀ minute second : Nat,
      let clamped := decide (10079 < minute) || decide (59 < second)
      exec (.setClock minute second) s =
        .next { s with cal := { s.cal with minute := min minute 10079, second := min second 59, clockSet := true },
                       sup := s.sup.answered (okCode clamped) clamped [] }) ∧
    exec .readClock s = .next { s with sup := s.sup.answered 0 false (
        [BitVec.ofNat 8 (s.cal.minute / 256), BitVec.ofNat 8 s.cal.minute, BitVec.ofNat 8 s.cal.second,
          if s.cal.clockSet then 1 else 0, BitVec.ofNat 8 s.cal.view.band.val, s.cal.view.generation,
          if s.cal.armed then 1 else 0]) }) ∧
  (∀ s : State, s.sup.busy = false →
    exec .describe s = .next { s with sup := s.sup.answered 0 false (
      [0x0A, 0x60, 1, 96, 64, 112,
          match s.ctl.attachment with
          | .noStore => 0
          | .attaching => 1
          | .attached => 2,
          BitVec.ofNat 8 (s.ctl.capacity / 256), BitVec.ofNat 8 s.ctl.capacity,
          BitVec.ofNat 8 (s.ctl.inUse / 256), BitVec.ofNat 8 s.ctl.inUse,
          BitVec.ofNat 8 (s.ctl.vacated / 256), BitVec.ofNat 8 s.ctl.vacated,
          if s.ctl.uncertain then 1 else 0, if s.cal.clockSet then 1 else 0]) }))

/-- SET_LINE_PARAMETERS sets each present parameter to the nearer end of its range, keeps the absent ones, and returns all
twelve (R72). WRITE_MESSAGE replaces one text, cut to 48 characters (R66). -/
def Obligations.LineSettings : Prop :=
  ∀ s : State, s.sup.busy = false →
    (∀ f : LineParamChange, ∃ t, exec (.setLineParameters f) s = .next t ∧
      let old := s.lc.params
      let new := t.lc.params
      let outside (lo hi : Nat) (n : Option Nat) : Bool := n.any (fun n => n < lo || hi < n)
      let clamped := outside 0 96 f.busyOut || outside 10 60 f.answerLimit || outside 0 15 f.carrierHold ||
        outside 30 255 f.signonLimit || outside 1 5 f.attemptsPerCall || outside 0 15 f.lockoutThreshold ||
        outside 10 255 f.holdLimit || outside 15 255 f.selectionLimit || outside 5 60 f.callLimit ||
        outside 0 127 f.escapeKey || outside 0 127 f.escapeMask
      t = { s with
        lc := { s.lc with params := new }
        sup := s.sup.answered (okCode clamped) clamped ((if new.acceptingCalls then 1 else 0) ::
          [new.busyOut, new.answerLimit, new.carrierHold, new.signonLimit, new.attemptsPerCall, new.lockoutThreshold,
            new.holdLimit, new.selectionLimit, new.callLimit, new.escapeKey, new.escapeMask].map (BitVec.ofNat 8)) } ∧
      new.acceptingCalls = (f.acceptingCalls.map (fun n => decide (n ≠ 0))).getD old.acceptingCalls ∧
      new.busyOut = (f.busyOut.map (nearest 0 96)).getD old.busyOut ∧
      new.answerLimit = (f.answerLimit.map (nearest 10 60)).getD old.answerLimit ∧
      new.carrierHold = (f.carrierHold.map (nearest 0 15)).getD old.carrierHold ∧
      new.signonLimit = (f.signonLimit.map (nearest 30 255)).getD old.signonLimit ∧
      new.attemptsPerCall = (f.attemptsPerCall.map (nearest 1 5)).getD old.attemptsPerCall ∧
      new.lockoutThreshold = (f.lockoutThreshold.map (nearest 0 15)).getD old.lockoutThreshold ∧
      new.holdLimit = (f.holdLimit.map (nearest 10 255)).getD old.holdLimit ∧
      new.selectionLimit = (f.selectionLimit.map (nearest 15 255)).getD old.selectionLimit ∧
      new.callLimit = (f.callLimit.map (nearest 5 60)).getD old.callLimit ∧
      new.escapeKey = (f.escapeKey.map (nearest 0 127)).getD old.escapeKey ∧
      new.escapeMask = (f.escapeMask.map (nearest 0 127)).getD old.escapeMask) ∧
    ∀ text : List Byte, text.length ≤ 79 →
      (∀ n, 15 < n → exec (.writeMessage n text) s = .next { s with sup := s.sup.answered 4 false [] }) ∧
      ∀ m : MsgNo, exec (.writeMessage m.val text) s =
        .next { s with lc := { s.lc with messages := s.lc.messages.set m (text.take 48) },
                       sup := s.sup.answered (okCode (decide (48 < text.length))) (decide (48 < text.length)) [] }

/-- LINE_SERVICE in each phase: out takes an IDLE line DOWN, ends a call with cause SUPERVISOR and sets the out-of-service
mark where a guard is still to come; in takes a DOWN line to IDLE and clears the mark elsewhere. FORCE_END ends a call or
session with cause SUPERVISOR, releases a line in CLOSING at once with its end cause standing, and completes with WRONG_STATE
elsewhere (R58, R70, R73, R74, R184, R191, R192). A call ended in ANSWERING with the carrier present flag set says goodbye (log
entry 45, DESIGN CHOICE), and the line number is judged before the direction (log entry 19, DESIGN CHOICE). -/
def Obligations.LineServiceAndForceEnd : Prop :=
  (∀ (l : LineNo) (s : State), s.sup.busy = false →
    let port := s.sup.answered 0 false []
    ((s.line l).phase = .down → exec (.lineServiceOut l.val) s = .next { s with sup := port } ∧
      exec (.lineServiceIn l.val) s = .next { s.modLine l (fun r => { r with phase := .idle }) with sup := port }) ∧
    ((s.line l).phase = .idle → exec (.lineServiceIn l.val) s = .next { s with sup := port } ∧
      exec (.lineServiceOut l.val) s = .next { s.modLine l (fun r => { r with phase := .down }) with sup := port }) ∧
    ((s.line l).phase.inCall = true → ∃ t, exec (.lineServiceOut l.val) s = .next t ∧ CallEnded .supervisor s t l ∧
      KeptAtEnd s t ∧ t.sup = port ∧ (t.line l).outOfService = true) ∧
    ((s.line l).phase = .closing ∨ (s.line l).phase = .guard →
      exec (.lineServiceOut l.val) s = .next { s.modLine l (fun r => { r with outOfService := true }) with sup := port }) ∧
    ((s.line l).phase ≠ .down → (s.line l).phase ≠ .idle →
      exec (.lineServiceIn l.val) s = .next { s.modLine l (fun r => { r with outOfService := false }) with sup := port }) ∧
    (∀ b : Byte, 1 < b.toNat → s.sup.request = [] → s.sup.received = 0 →
      execAll [.supervisorWriteStrobe 0x31, .supervisorWriteStrobe 2, .supervisorWriteStrobe (BitVec.ofNat 8 l.val),
        .supervisorWriteStrobe b] s = .next { s with sup := s.sup.answered 3 false [] }) ∧
    ∀ n, 95 < n → exec (.lineServiceOut n) s = .next { s with sup := s.sup.answered 4 false [] } ∧
      exec (.lineServiceIn n) s = .next { s with sup := s.sup.answered 4 false [] }) ∧
  (∀ (l : LineNo) (s : State), s.sup.busy = false →
    ((s.line l).phase.inCall = true → ∃ t, exec (.forceEnd l.val) s = .next t ∧ CallEnded .supervisor s t l ∧ KeptAtEnd s t ∧
      t.sup = s.sup.answered 0 false []) ∧
    ((s.line l).phase = .closing → ∃ t, exec (.forceEnd l.val) s = .next t ∧
      t = { s with sup := s.sup.answered 0 false [],
                   lc := { s.lc with lines := t.lc.lines, bus := s.lc.bus ++ [.release l] } } ∧
      t.line l = { s.line l with phase := .guard, stageTimer := some 5, current := none, pending := none } ∧
      ∀ k, k ≠ l → t.line k = s.line k) ∧
    ((s.line l).phase = .idle ∨ (s.line l).phase = .down ∨ (s.line l).phase = .guard →
      exec (.forceEnd l.val) s = .next { s with sup := s.sup.answered 10 false [] }) ∧
    ∀ n, 95 < n → exec (.forceEnd n) s = .next { s with sup := s.sup.answered 4 false [] })

/-- READ_LINE returns the 58-byte line image of the record as it stands, each field where R207 puts it, and then clears the
overrun and echo suppressed flags; CLEAR_SUMMARY removes the closing summary; a line number above 95 completes with
OUT_OF_RANGE (R76, R207). -/
def Obligations.ReadLine : Prop :=
  ∀ (l : LineNo) (s : State), s.sup.busy = false →
    let r := s.line l
    let byte (n : Nat) : Byte := BitVec.ofNat 8 n
    let byteFF (n : Option Nat) : Byte := match n with
      | none => 0xFF
      | some n => byte n
    let phase : Byte × Byte := match r.phase with
      | .down => (0, 0xFF)
      | .idle => (1, 0xFF)
      | .answering => (2, 0xFF)
      | .signon .accountEntry => (3, 0)
      | .signon .passwordEntry => (3, 1)
      | .signon .checking => (3, 2)
      | .signon .held => (3, 3)
      | .signon .admitting => (3, 4)
      | .admitted .selecting => (4, 0)
      | .admitted .waiting => (4, 1)
      | .admitted .calling => (4, 2)
      | .admitted .connected => (4, 3)
      | .admitted .escaped => (4, 4)
      | .admitted .moving => (4, 5)
      | .closing => (5, 0xFF)
      | .guard => (6, 0xFF)
    let category : Byte := match r.lastCategory with
      | none => 0xFF
      | some (.band b) => byte b.val
      | some .wait => 4
    let cause (c : EndCause) : Byte := match c with
      | .signonFailed => 0
      | .carrierLost => 1
      | .userQuit => 2
      | .hostEnded => 3
      | .hostLost => 4
      | .idle => 5
      | .exhausted => 6
      | .hours => 7
      | .noHost => 8
      | .supervisor => 9
      | .restart => 10
    let flags (bits : List Bool) : Byte := byte ((bits.zipIdx.map (fun (b, i) => if b then 2 ^ i else 0)).sum)
    let summary : List Byte := match r.summary with
      | none => List.replicate 15 0
      | some x => beBytes 3 (x.account.getD 0) ++ [cause x.cause] ++ beBytes 3 x.admittedSeconds ++
          beBytes 3 x.connectedSeconds ++ beBytes 3 x.credits ++ beBytes 2 x.minute
    let image : List Byte :=
      [phase.1, phase.2, r.attempt, byte r.attemptsUsed, byte r.entryBuffer.length] ++ beBytes 3 (r.account.getD 0) ++
      [byteFF (r.entryRef.map Fin.val), byte (r.selectedGroup.elim 0 (fun g => g.val + 1)), byteFF (r.port.map Fin.val),
        byte (r.portFaults * 16 + r.moveCount)] ++
      beBytes 2 r.residue ++ [byte r.grace] ++ beBytes 3 r.charged ++ beBytes 3 r.admittedSeconds ++
      beBytes 3 r.connectedSeconds ++
      [category, flags [r.carrier, r.txBusy, r.verdictGiven, r.lowWarned, r.echoSuppressed, r.overrun, r.outOfService]] ++
      (match r.stageTimer with
        | none => [0xFF, 0xFF]
        | some n => beBytes 2 n) ++ [byteFF r.carrierHold] ++
      [flags [r.idleCount.isSome, r.idleWarning.isSome, r.exhaustion.isSome, r.hours.isSome, r.holdTimer.isSome,
        r.lineToPort.isSome, r.portToLine.isSome, r.summary.isSome]] ++
      beBytes 2 (r.idleCount.getD 0) ++ [byte (r.idleWarning.getD 0)] ++ beBytes 2 (r.exhaustion.getD 0) ++
      beBytes 2 (r.hours.getD 0) ++ [byte (r.holdTimer.getD 0), r.lineToPort.getD 0, r.portToLine.getD 0] ++
      [byteFF (r.current.map (fun m => m.number.val)), byteFF (r.current.map (fun m => m.position)),
        byteFF (r.pending.map (fun m => m.number.val))] ++ summary
    (exec (.readLine l.val) s =
        .next { s.modLine l (fun r => { r with overrun := false, echoSuppressed := false }) with
                sup := s.sup.answered 0 false image } ∧
      image.length = 58) ∧
    exec (.clearSummary l.val) s =
      .next { s.modLine l (fun r => { r with summary := none }) with sup := s.sup.answered 0 false [] } ∧
    ∀ n, 95 < n → exec (.readLine n) s = .next { s with sup := s.sup.answered 4 false [] } ∧
      exec (.clearSummary n) s = .next { s with sup := s.sup.answered 4 false [] }

/-- SET_WATCH with values in range sets the watch in use with no hits, and refuses or clamps the rest as R104 lays down (a
watch number above 3 is judged first, log entry 37); CLEAR_WATCH makes it not in use; READ_WATCH returns it and changes
nothing (the order of the kinds ahead of the range is log entry 37, DESIGN CHOICE; the values a watch holds before the first
SET_WATCH are log entry 13). The examination of the watches, which WatchesHit ties to the commands: every watch that covers
the account and includes the kind takes the hit, up to 255, and the line, and a NOTE item of the line takes the watch's
number, but for a HOLD watch at a CREDENTIALS_OK result; nothing else changes (R102 to R104, R190). -/
def Obligations.Watches : Prop :=
  (∀ (w : WatchNo) (s : State), s.sup.busy = false →
    let watchImage (x : Watch) : List Byte :=
      ([if x.inUse then 1 else 0] : List Byte) ++ beBytes 3 x.low ++ beBytes 3 x.high ++ [BitVec.ofNat 8 x.kinds.toNat,
        if x.action = .hold then 1 else 0, BitVec.ofNat 8 x.hits, match x.lastHit with
          | none => 0xFF
          | some k => BitVec.ofNat 8 k.val]
    (∀ low high kinds action, kinds ≤ 7 → action ≤ 1 →
      let low' := nearest 1 9999999 low
      let high' := nearest 1 9999999 high
      let clamped := decide (low' ≠ low) || decide (high' ≠ high)
      (low' ≤ high' → exec (.setWatch w.val low high kinds action) s =
        .next { s with watches := s.watches.set w { inUse := true, low := low', high := high', kinds := BitVec.ofNat 3 kinds,
                                                    action := if action = 0 then .note else .hold, hits := 0, lastHit := none },
                       sup := s.sup.answered (okCode clamped) clamped [] }) ∧
      (high' < low' → exec (.setWatch w.val low high kinds action) s =
        .next { s with sup := s.sup.answered 3 clamped [] })) ∧
    (∀ low high kinds action, 1 < action ∨ 7 < kinds →
      exec (.setWatch w.val low high kinds action) s = .next { s with sup := s.sup.answered 3 false [] }) ∧
    exec (.clearWatch w.val) s =
      .next { s with watches := s.watches.set w { s.watches.get w with inUse := false, hits := 0, lastHit := none },
                     sup := s.sup.answered 0 false [] } ∧
    exec (.readWatch w.val) s = .next { s with sup := s.sup.answered 0 false (watchImage (s.watches.get w)) } ∧
    ∀ n low high kinds action, 3 < n →
      exec (.setWatch n low high kinds action) s = .next { s with sup := s.sup.answered 4 false [] } ∧
      exec (.clearWatch n) s = .next { s with sup := s.sup.answered 4 false [] } ∧
      exec (.readWatch n) s = .next { s with sup := s.sup.answered 4 false [] }) ∧
  (∀ (kind : WatchKind) (n : Nat) (l : LineNo) (held : Bool) (s : State),
    let t := examineWatches s kind n l held
    let bit := match kind with
      | .signonOk => 0
      | .signonFail => 1
      | .sessionEnd => 2
    let hit (w : WatchNo) : Prop := let x := s.watches.get w
      x.inUse = true ∧ x.low ≤ n ∧ n ≤ x.high ∧ x.kinds.getLsbD bit = true
    t = { s with watches := t.watches, attn := { s.attn with notes := t.attn.notes } } ∧
    (∀ w, (hit w → t.watches.get w =
        { s.watches.get w with hits := if (s.watches.get w).hits < 255 then (s.watches.get w).hits + 1 else (s.watches.get w).hits,
                               lastHit := some l }) ∧
      (¬hit w → t.watches.get w = s.watches.get w)) ∧
    (∀ w : WatchNo, (t.attn.notes.get l).getLsbD w.val =
      ((s.attn.notes.get l).getLsbD w.val ||
        (decide (hit w) && !(held && decide ((s.watches.get w).action = .hold))))) ∧
    ∀ k, k ≠ l → t.attn.notes.get k = s.attn.notes.get k)

/-- Commands at which watches are examined (what the examination does is the second half of Watches). A VERIFY of an account
that is not open, completing as a current result: an admission and good credentials count as SIGNON_OK, the latter as a held
sign-on; a refusal for reason 1 counts as SIGNON_FAIL; a refusal for another reason examines no watch. The end of a session by
FORCE_END, a lost carrier, Q in ESCAPED or its host counts as SESSION_END; the premise on the allotment keeps the closing
credit from exhausting the account, whose other sessions could then end as well (R102, R103, R190). -/
def Obligations.WatchesHit : Prop :=
  (∀ (l : LineNo) (b : BitVec 8) (password n : Nat) (marker : Bool) (s : State),
    s.ctl.inProgress = some (.signOn { line := l, attempt := b, kind := .verify password marker, account := n }) →
    (s.line l).phase = .signon .checking → (s.line l).attempt = b → (∀ e x, s.entry e = some x → x.account ≠ n) →
    let sees (kind : Option WatchKind) (held : Bool) : Prop := ∃ t, exec (.storeOperationComplete [.good]) s = .next t ∧
      match kind with
      | none => t.watches = s.watches ∧ t.attn.notes = s.attn.notes
      | some k => t.watches = (examineWatches s k n l held).watches ∧ t.attn.notes = (examineWatches s k n l held).attn.notes
    ((∃ place, s.lookup n = .notFound place) → sees (some .signonFail) false) ∧
    (s.lookup n = .damaged → sees none false) ∧
    ∀ slot a, s.lookup n = .found slot a →
      let good := a.password ≠ 0 ∧ a.status = .live ∧ a.password = password
      let checked := a.allotment ≠ 0 ∧
        (s.cal.active.policies.get a.cls).allowedBands.getLsbD s.cal.view.band.val = true ∧ ∃ e, s.entry e = none
      (¬good → sees (some .signonFail) false) ∧ (good → marker = true → sees (some .signonOk) true) ∧
      (good → marker = false → checked → sees (some .signonOk) false) ∧ (good → marker = false → ¬checked → sees none false)) ∧
  ∀ (i : Instr) (l : LineNo) (e : EntryNo) (x : OatEntry) (n : Nat) (s : State), (s.line l).phase.isAdmitted = true →
    (s.line l).entryRef = some e → s.entry e = some x → 2 ≤ x.acct.allotment → (s.line l).account = some n →
    (i = .forceEnd l.val ∧ s.sup.busy = false ∨ i = .carrierHoldExpiry l ∧ (s.line l).carrierHold = some 0 ∨
      i = .lineRxChar l.val 81 ∧ (s.line l).phase = .admitted .escaped ∨
      ∃ p, i = .hostDisconnect p ∧ (s.port p).state = .inUse ∧ (s.port p).line = some l) →
    ∃ t, exec i s = .next t ∧ t.watches = (examineWatches s .sessionEnd n l false).watches ∧
      t.attn.notes = (examineWatches s .sessionEnd n l false).attn.notes

/-- A verdict on a HELD line: ADMIT sets verdict given, removes the hold timer and the HOLD item, raises the attempt number
and queues an ADMIT operation with the line in ADMITTING, or with no store ATTACHED fails the attempt with reason 5; REFUSE
fails the attempt with reason 5. Any other line completes with WRONG_STATE (R86, R95, R97 to R99). That a failed attempt
requests message 1 with the number 0 is log entry 39 (DESIGN CHOICE). -/
def Obligations.Verdicts : Prop :=
  ∀ (l : LineNo) (s : State), s.sup.busy = false →
    let left (f : LineRec → LineRec) : State := { s.modLine l f with attn := { s.attn with hold := s.attn.hold.set l false } }
    ((s.line l).phase = .signon .held → s.ctl.attachment = .attached → ∃ t, exec (.verdictAdmit l.val) s = .next t ∧
      t = { s with lc := { s.lc with lines := t.lc.lines }, sup := s.sup.answered 0 false [],
                   attn := { s.attn with hold := s.attn.hold.set l false },
                   ctl := { s.ctl with signOnQueue := s.ctl.signOnQueue ++
                     [{ line := l, attempt := (s.line l).attempt + 1, kind := .admitOp,
                        account := (s.line l).account.getD 0 }] } } ∧
      t.line l = { s.line l with phase := .signon .admitting, attempt := (s.line l).attempt + 1, holdTimer := none,
                                 verdictGiven := true } ∧
      ∀ k, k ≠ l → t.line k = s.line k) ∧
    ((s.line l).phase = .signon .held → s.ctl.attachment ≠ .attached → ∃ t,
      exec (.verdictAdmit l.val) s = .next { t with sup := s.sup.answered 0 false [] } ∧
      AttemptFailed 5 (left (fun r => { r with phase := .signon .admitting, attempt := r.attempt + 1, holdTimer := none,
                                                verdictGiven := true })) t l) ∧
    ((s.line l).phase = .signon .held → ∃ t,
      exec (.verdictRefuse l.val) s = .next { t with sup := s.sup.answered 0 false [] } ∧
      AttemptFailed 5 (left (fun r => { r with holdTimer := none })) t l) ∧
    ((s.line l).phase ≠ .signon .held →
      exec (.verdictAdmit l.val) s = .next { s with sup := s.sup.answered 10 false [] } ∧
      exec (.verdictRefuse l.val) s = .next { s with sup := s.sup.answered 10 false [] }) ∧
    ∀ n, 95 < n → exec (.verdictAdmit n) s = .next { s with sup := s.sup.answered 4 false [] } ∧
      exec (.verdictRefuse n) s = .next { s with sup := s.sup.answered 4 false [] }

/-- TAKE_ATTENTION removes and returns one item: HOLD before PORT_FAULT before ACCOUNT before FAILOVER_SPENT before NOTE, the
lowest key of its kind first, "none" from an empty set; an ACCOUNT item carries the overflow flag, which the take of the last
one clears (R204). -/
def Obligations.TakeAttentionOrder : Prop :=
  ∀ s : State, s.sup.busy = false →
    let a := s.attn
    let takes (b : Attention) (item : List Byte) : Prop :=
      exec .takeAttention s = .next { s with attn := b, sup := s.sup.answered 0 false item }
    let noHold := ∀ l : LineNo, a.hold.get l = false
    let noFault := ∀ p : PortNo, a.portFault.get p = none
    let noSpent := ∀ g : GroupNo, a.failoverSpent.get g = false
    (∀ l : LineNo, a.hold.get l = true → (∀ k, k < l → a.hold.get k = false) →
      takes { a with hold := a.hold.set l false } [1, BitVec.ofNat 8 l.val]) ∧
    (noHold → ∀ (p : PortNo) (c : FaultCause), a.portFault.get p = some c → (∀ k, k < p → a.portFault.get k = none) →
      takes { a with portFault := a.portFault.set p none } [2, BitVec.ofNat 8 p.val, if c = .noAccept then 0 else 1]) ∧
    (noHold → noFault → ∀ i is, a.accounts = i :: is →
      takes { a with accounts := is, overflow := if is = [] then false else a.overflow }
        ([3] ++ beBytes 3 i.account ++ [BitVec.ofNat 8 i.causes.toNat, if a.overflow then 1 else 0])) ∧
    (noHold → noFault → a.accounts = [] → ∀ g : GroupNo, a.failoverSpent.get g = true →
      (∀ k, k < g → a.failoverSpent.get k = false) →
      takes { a with failoverSpent := a.failoverSpent.set g false } [4, BitVec.ofNat 8 (g.val + 1)]) ∧
    (noHold → noFault → a.accounts = [] → noSpent → ∀ l : LineNo, a.notes.get l ≠ 0 → (∀ k, k < l → a.notes.get k = 0) →
      takes { a with notes := a.notes.set l 0 } [5, BitVec.ofNat 8 l.val, BitVec.ofNat 8 (a.notes.get l).toNat]) ∧
    (a.asserted = false → takes a [0])

/-- The requests on a port: CONFIGURE_PORT sets the group and role of an OUT_OF_SERVICE port; PORT_SERVICE takes a port in or
out of service, ending the session of an IN_USE one, which is sent HANG_UP and becomes OUT_OF_SERVICE with no line;
RETURN_PORT takes a FAULTED port to FREE or NOT_READY; an ORDINARY port that becomes FREE is handed to the head of its group's
queue; READ_PORT returns the record in its 7 bytes. A CALLING port taken out of service has its statement with the failed
calls (R161 to R164, R167, R207). That the port is judged ahead of the group and the role is the model's (log entry 19, DESIGN
CHOICE). -/
def Obligations.PortRequests : Prop :=
  ∀ (p : PortNo) (s : State), s.sup.busy = false →
    let ok := s.sup.answered 0 false []
    let wrong := s.sup.answered 10 false []
    let x := s.port p
    let unclaimed := x.hostReady = false ∨ x.role = .spare ∨ ∀ g, x.group = some g → (s.group g).queue = []
    let portImage : List Byte := [
      match x.group with
        | none => 0
        | some g => BitVec.ofNat 8 (g.val + 1),
      if x.role = .ordinary then 0 else 1,
      match x.state with
        | .outOfService => 0
        | .notReady => 1
        | .free => 2
        | .calling => 3
        | .inUse => 4
        | .faulted => 5,
      if x.hostReady then 1 else 0,
      match x.line with
        | none => 0xFF
        | some l => BitVec.ofNat 8 l.val,
      match x.callTimer with
        | none => 0xFF
        | some n => BitVec.ofNat 8 n,
      match x.faultCause with
        | none => 0xFF
        | some .noAccept => 0
        | some .readyLost => 1]
    let ready : PortState := if x.hostReady then .free else .notReady
    (∀ group role, group ≤ 6 → role ≤ 1 → x.state = .outOfService → ∃ g, groupNumber g = group ∧
      exec (.configurePort p.val group role) s =
        .next { s.modPort p (fun x => { x with group := g, role := if role = 0 then .ordinary else .spare }) with sup := ok }) ∧
    (∀ group role, group ≤ 6 → role ≤ 1 → x.state ≠ .outOfService →
      exec (.configurePort p.val group role) s = .next { s with sup := wrong }) ∧
    (∀ group role, 6 < group → exec (.configurePort p.val group role) s = .next { s with sup := s.sup.answered 4 false [] }) ∧
    (∀ group role, group ≤ 6 → 1 < role →
      exec (.configurePort p.val group role) s = .next { s with sup := s.sup.answered 3 false [] }) ∧
    (x.state = .outOfService → exec (.portServiceOut p.val) s = .next { s with sup := ok }) ∧
    (x.state = .notReady ∨ x.state = .free → exec (.portServiceOut p.val) s =
      .next { s.modPort p (fun x => { x with state := .outOfService }) with sup := ok }) ∧
    (x.state = .faulted → exec (.portServiceOut p.val) s =
      .next { s.modPort p (fun x => { x with state := .outOfService, faultCause := none }) with sup := ok }) ∧
    (∀ l, x.state = .inUse → x.line = some l → (s.line l).port = some p → (s.line l).phase.isAdmitted = true →
      ∃ t, exec (.portServiceOut p.val) s = .next t ∧ CallEnded .supervisor s t l ∧ KeptAtEnd s t ∧ t.sup = ok ∧
        PortCmd.hangUp p ∈ t.pa.bus ∧
        (LinksLawful s → t.port p = { x with state := .outOfService, line := none, callTimer := none })) ∧
    (x.state = .outOfService → unclaimed → exec (.portServiceIn p.val) s =
      .next { s.modPort p (fun x => { x with state := ready }) with sup := ok }) ∧
    (∀ g place rest e y n, x.hostReady = true → x.role = .ordinary → x.group = some g → (s.group g).queue = place :: rest →
      (s.line place.line).entryRef = some e → s.entry e = some y → (s.line place.line).account = some n →
      let handed (s' : State) : State :=
        { (s'.modGroup g (fun q => { q with queue := rest })).called p place.line .calling n y.acct.cls with sup := ok }
      (x.state = .outOfService → exec (.portServiceIn p.val) s = .next (handed s)) ∧
      (x.state = .faulted → exec (.returnPort p.val) s =
        .next (handed (s.modPort p (fun x => { x with faultCause := none }))))) ∧
    (x.state ≠ .outOfService → exec (.portServiceIn p.val) s = .next { s with sup := ok }) ∧
    (x.state = .faulted → unclaimed → exec (.returnPort p.val) s =
      .next { s.modPort p (fun x => { x with state := ready, faultCause := none }) with sup := ok }) ∧
    (x.state ≠ .faulted → exec (.returnPort p.val) s = .next { s with sup := wrong }) ∧
    exec (.readPort p.val) s = .next { s with sup := s.sup.answered 0 false portImage } ∧
    ∀ n group role, 63 < n →
      exec (.configurePort n group role) s = .next { s with sup := s.sup.answered 4 false [] } ∧
      exec (.portServiceOut n) s = .next { s with sup := s.sup.answered 4 false [] } ∧
      exec (.portServiceIn n) s = .next { s with sup := s.sup.answered 4 false [] } ∧
      exec (.returnPort n) s = .next { s with sup := s.sup.answered 4 false [] } ∧
      exec (.readPort n) s = .next { s with sup := s.sup.answered 4 false [] }

/-- The requests on a group: SET_GROUP sets the present settings to the nearer end of their ranges, keeps the others, the
queue and the counters, and returns the settings; READ_GROUP returns the record with its queue; CLEAR_COUNTERS returns the two
counts and sets them to 0. A group number of 0 or above 6 completes with OUT_OF_RANGE (R165 to R167, R207). -/
def Obligations.GroupRequests : Prop :=
  ∀ (g : GroupNo) (s : State), s.sup.busy = false →
    let settings (x : GroupRec) : List Byte := [BitVec.ofNat 8 x.queueLimit, BitVec.ofNat 8 x.waitLimit,
      BitVec.ofNat 8 x.failoverAllowance, if x.congestionMode = .level then 0 else 1, BitVec.ofNat 8 x.congestionThreshold]
    (∀ f : GroupChange, (∀ m, f.congestionMode = some m → m ≤ 1) → ∃ t, exec (.setGroup (g.val + 1) f) s = .next t ∧
      let old := s.group g
      let new := t.group g
      let clamped := f.queueLimit.any (96 < ·) || f.waitLimit.any (60 < ·) || f.failoverAllowance.any (255 < ·) ||
        f.congestionThreshold.any (fun n => n = 0 || 96 < n)
      t = { s.modGroup g (fun _ => new) with sup := s.sup.answered (okCode clamped) clamped (settings new) } ∧
      new.queue = old.queue ∧ new.congestionCount = old.congestionCount ∧ new.refusedCount = old.refusedCount ∧
      new.queueLimit = (f.queueLimit.map (nearest 0 96)).getD old.queueLimit ∧
      new.waitLimit = (f.waitLimit.map (nearest 0 60)).getD old.waitLimit ∧
      new.failoverAllowance = (f.failoverAllowance.map (nearest 0 255)).getD old.failoverAllowance ∧
      new.congestionThreshold = (f.congestionThreshold.map (nearest 1 96)).getD old.congestionThreshold ∧
      new.congestionMode = (f.congestionMode.map (fun n => if n = 0 then CongestionMode.level else .edge)).getD
        old.congestionMode) ∧
    (∀ f m, f.congestionMode = some m → 1 < m →
      exec (.setGroup (g.val + 1) f) s = .next { s with sup := s.sup.answered 3 false [] }) ∧
    exec (.readGroup (g.val + 1)) s = .next { s with sup := s.sup.answered 0 false (
        let x := s.group g
        settings x ++ beBytes 3 x.congestionCount ++ beBytes 3 x.refusedCount ++ [BitVec.ofNat 8 x.queue.length] ++
          x.queue.flatMap (fun q => [BitVec.ofNat 8 q.line.val, BitVec.ofNat 8 q.priority, BitVec.ofNat 8 q.announced])) } ∧
    exec (.clearCounters (g.val + 1)) s =
      .next { s.modGroup g (fun x => { x with congestionCount := 0, refusedCount := 0 }) with
              sup := s.sup.answered 0 false
                (beBytes 3 (s.group g).congestionCount ++ beBytes 3 (s.group g).refusedCount) } ∧
    ∀ n f, n = 0 ∨ 6 < n →
      exec (.setGroup n f) s = .next { s with sup := s.sup.answered 4 false [] } ∧
      exec (.readGroup n) s = .next { s with sup := s.sup.answered 4 false [] } ∧
      exec (.clearCounters n) s = .next { s with sup := s.sup.answered 4 false [] }

/-! ## Calls: rings, carrier, characters, messages -/

/-- A RING for an IDLE line is answered exactly when accepting calls is on, the busy-out threshold is 0 or above the number of
lines WAITING, and the store is ATTACHED; every other RING changes nothing. Answering sends ANSWER and prepares the line
record, which keeps the attempt number, the overrun, echo suppressed and carrier present flags and the out-of-service mark
(R53, R54). That it leaves no entry reference and no port is the law of R50 for an IDLE line. -/
def Obligations.RingAnswered : Prop :=
  ∀ (l : LineNo) (s : State),
    let waiting := ((List.finRange 96).filter (fun k => decide ((s.line k).phase = .admitted .waiting))).length
    let answers := s.lc.params.acceptingCalls = true ∧ (s.lc.params.busyOut = 0 ∨ waiting < s.lc.params.busyOut) ∧
      s.ctl.attachment = .attached
    ((s.line l).phase = .idle → answers →
      ∃ t, exec (.ring l.val) s = .next t ∧
        t = { s with lc := { s.lc with lines := t.lc.lines, bus := s.lc.bus ++ [.answer l] } } ∧
        (∀ k, k ≠ l → t.line k = s.line k) ∧
        t.line l =
          { s.line l with
            phase := .answering, stageTimer := some s.lc.params.answerLimit, summary := none, attemptsUsed := 0,
            entryBuffer := [], account := none, entryRef := none, selectedGroup := none, port := none, portFaults := 0,
            moveCount := 0, residue := 0, grace := 0, charged := 0, admittedSeconds := 0, connectedSeconds := 0,
            lastCategory := none, holdTimer := none, carrierHold := none, idleCount := none, exhaustion := none,
            hours := none, idleWarning := none, verdictGiven := false, lowWarned := false, lineToPort := none,
            portToLine := none, current := none, pending := none, txBusy := false }) ∧
    (¬((s.line l).phase = .idle ∧ answers) → exec (.ring l.val) s = .next s)

/-- CARRIER_ON and CARRIER_OFF in every phase: the flag follows them always; a DOWN, IDLE or GUARD line is answered with
RELEASE, an ANSWERING line signs on, a line in SIGNON or ADMITTED cancels or starts its carrier hold, and a CLOSING line is
released by the loss (R52, R55 to R58; messages 0 and 1 carry the number 0, log entry 39, DESIGN CHOICE). -/
def Obligations.CarrierEvents : Prop :=
  ∀ (l : LineNo) (s : State),
    let r := s.line l
    let on := s.modLine l (fun r => { r with carrier := true })
    let off := s.modLine l (fun r => { r with carrier := false })
    let held := (∃ st, r.phase = .signon st) ∨ ∃ st, r.phase = .admitted st
    (r.phase = .down ∨ r.phase = .idle ∨ r.phase = .guard →
      exec (.carrierOn l.val) s = .next { on with lc := { on.lc with bus := s.lc.bus ++ [.release l] } }) ∧
    (r.phase = .answering →
      exec (.carrierOn l.val) s = .next (requestMessage (requestMessage (on.modLine l (fun r =>
        { r with phase := .signon .accountEntry, entryBuffer := [], stageTimer := some s.lc.params.signonLimit })) l 0 0) l 1 0)) ∧
    (held → exec (.carrierOn l.val) s = .next (on.modLine l (fun r => { r with carrierHold := none }))) ∧
    (r.phase = .closing → exec (.carrierOn l.val) s = .next on) ∧
    (r.phase = .down ∨ r.phase = .idle ∨ r.phase = .guard ∨ r.phase = .answering →
      exec (.carrierOff l.val) s = .next off) ∧
    (held → r.carrierHold ≠ none → exec (.carrierOff l.val) s = .next off) ∧
    (held → r.carrierHold = none → s.lc.params.carrierHold ≠ 0 →
      exec (.carrierOff l.val) s = .next (off.modLine l (fun r => { r with carrierHold := some s.lc.params.carrierHold }))) ∧
    (held → r.carrierHold = none → s.lc.params.carrierHold = 0 →
      ∃ t, exec (.carrierOff l.val) s = .next t ∧ CallEnded .carrierLost off t l ∧ KeptAtEnd s t ∧ t.sup = s.sup) ∧
    (r.phase = .closing → exec (.carrierOff l.val) s = .next (off.releasedLine l))

/-- Characters in ACCOUNT_ENTRY, on their low 7 bits: digits and backspaces edit the buffer and are echoed as received if the
transmitter is free, and a carriage return reads the number; a break starts the entry again. The password fold: from 7,919,
each character multiplies the value by 131, adds its code and reduces modulo 16,777,216, a result of 0 becoming 1, so a fold
is never 0 and the fold of "ab12" is 12,836,369. Characters in PASSWORD_ENTRY are taken on their low 7 bits and never echoed.
A carriage return on fewer than 4 characters fails the attempt; on 4 to 8 it raises the attempt number and hands over a VERIFY
with the fold and the hold marker, which needs a HOLD watch that covers the account and no verdict given; with no store
ATTACHED the attempt fails with reason 5. A break goes back to ACCOUNT_ENTRY (R8, R10, R81 to R84, R86). Messages 1 and 2
carry the number 0 (log entry 39, DESIGN CHOICE). -/
def Obligations.SignOnEntries : Prop :=
  (∀ (l : LineNo) (c : Byte) (s : State), (s.line l).phase = .signon .accountEntry →
    let k := c.toNat % 128
    let buffer := (s.line l).entryBuffer
    let edited (b : List Byte) : State :=
      let s' := s.modLine l (fun r => { r with entryBuffer := b })
      if (s.line l).txBusy then s'.modLine l (fun r => { r with echoSuppressed := true }) else s'.sent l c
    let value := buffer.foldl (fun n c => n * 10 + (c.toNat - 48)) 0
    (48 ≤ k → k ≤ 57 → buffer.length < 7 →
      exec (.lineRxChar l.val c) s = .next (edited (buffer ++ [BitVec.ofNat 8 k]))) ∧
    (48 ≤ k → k ≤ 57 → 7 ≤ buffer.length → exec (.lineRxChar l.val c) s = .next s) ∧
    (k = 8 ∨ k = 127 → buffer ≠ [] → exec (.lineRxChar l.val c) s = .next (edited buffer.dropLast)) ∧
    (k = 8 ∨ k = 127 → buffer = [] → exec (.lineRxChar l.val c) s = .next s) ∧
    (k ≠ 8 → k ≠ 13 → k ≠ 127 → k < 48 ∨ 57 < k → exec (.lineRxChar l.val c) s = .next s) ∧
    (k = 13 → buffer = [] → exec (.lineRxChar l.val c) s = .next (requestMessage s l 1 0)) ∧
    (k = 13 → buffer ≠ [] → value = 0 → ∃ t, exec (.lineRxChar l.val c) s = .next t ∧ AttemptFailed 1 s t l) ∧
    (k = 13 → value ≠ 0 → exec (.lineRxChar l.val c) s =
      .next (requestMessage (s.modLine l (fun r =>
        { r with account := some value, entryBuffer := [], phase := .signon .passwordEntry })) l 2 0)) ∧
    exec (.rxBreak l.val) s =
      .next (requestMessage (s.modLine l (fun r => { r with phase := .signon .accountEntry, entryBuffer := [] })) l 1 0)) ∧
  ((passwordFold [] = 7919 ∧
  (∀ (chars : List Byte) (c : Byte),
    passwordFold (chars ++ [c]) =
      if (passwordFold chars * 131 + c.toNat) % 16777216 = 0 then 1 else (passwordFold chars * 131 + c.toNat) % 16777216) ∧
  (∀ chars, 1 ≤ passwordFold chars ∧ passwordFold chars ≤ 16777215) ∧ passwordFold [97, 98, 49, 50] = 12836369) ∧
  (∀ (l : LineNo) (c : Byte) (s : State), (s.line l).phase = .signon .passwordEntry →
    let k := c.toNat % 128
    let buffer := (s.line l).entryBuffer
    let edited (b : List Byte) : State := s.modLine l (fun r => { r with entryBuffer := b })
    (33 ≤ k → k ≤ 126 → buffer.length < 8 →
      exec (.lineRxChar l.val c) s = .next (edited (buffer ++ [BitVec.ofNat 8 k]))) ∧
    (33 ≤ k → k ≤ 126 → 8 ≤ buffer.length → exec (.lineRxChar l.val c) s = .next s) ∧
    (k = 8 ∨ k = 127 → exec (.lineRxChar l.val c) s = .next (edited buffer.dropLast)) ∧
    (k < 33 → k ≠ 8 → k ≠ 13 → exec (.lineRxChar l.val c) s = .next s) ∧
    (k = 13 → buffer.length < 4 → ∃ t, exec (.lineRxChar l.val c) s = .next t ∧ AttemptFailed 1 (edited []) t l) ∧
    (∀ n, k = 13 → 4 ≤ buffer.length → (s.line l).account = some n →
      let asked := s.modLine l (fun r =>
        { r with entryBuffer := [], phase := .signon .checking, attempt := r.attempt + 1 })
      let covered := ∃ w : WatchNo, let x := s.watches.get w
        x.inUse = true ∧ x.low ≤ n ∧ n ≤ x.high ∧ x.kinds.getLsbD 0 = true ∧ x.action = .hold
      (s.ctl.attachment ≠ .attached → ∃ t, exec (.lineRxChar l.val c) s = .next t ∧ AttemptFailed 5 asked t l) ∧
      (s.ctl.attachment = .attached → ∃ marker : Bool,
        (marker = true ↔ covered ∧ (s.line l).verdictGiven = false) ∧
        exec (.lineRxChar l.val c) s = .next { asked with ctl := { s.ctl with signOnQueue := s.ctl.signOnQueue ++
          [{ line := l, attempt := (s.line l).attempt + 1, kind := .verify (passwordFold buffer) marker, account := n }] } })) ∧
    exec (.rxBreak l.val) s =
      .next (requestMessage (s.modLine l (fun r => { r with phase := .signon .accountEntry, entryBuffer := [] })) l 1 0)))

/-- A choice in SELECTING, judged in the order of R149: not permitted, not available, a FREE ORDINARY port to call, a queue
place to join, or refused (R148, R149, R150, R154, R166). Messages 6 and 8 carry the number 0 (log entry 39, DESIGN CHOICE).
-/
def Obligations.SelectionJudged : Prop :=
  ∀ (l : LineNo) (c : Byte) (e : EntryNo) (x : OatEntry) (s : State), (s.line l).phase = .admitted .selecting →
    (s.line l).entryRef = some e → s.entry e = some x →
    let k := c.toNat % 128
    let permitted := ((List.range 6).filter (fun i => x.acct.permitted.getLsbD i)).length
    let prompt := requestMessage s l 4 permitted
    let ordinary (g : GroupNo) (p : PortNo) : Prop := (s.port p).group = some g ∧ (s.port p).role = .ordinary
    (¬(65 ≤ k ∧ k ≤ 70) → ¬(97 ≤ k ∧ k ≤ 102) → k ≠ 13 → exec (.lineRxChar l.val c) s = .next s) ∧
    (k = 13 → x.acct.defaultGroup = none → exec (.lineRxChar l.val c) s = .next prompt) ∧
    exec (.rxBreak l.val) s = .next prompt ∧
    ∀ g : GroupNo, k = 65 + g.val ∨ k = 97 + g.val ∨ (k = 13 ∧ x.acct.defaultGroup = some g) →
      let chosen := s.modLine l (fun r => { r with selectedGroup := some g })
      let q := s.group g
      (x.acct.permitted.getLsbD g.val = false → exec (.lineRxChar l.val c) s = .next prompt) ∧
      (x.acct.permitted.getLsbD g.val = true → (∀ p, ordinary g p → (s.port p).state = .outOfService) →
        exec (.lineRxChar l.val c) s = .next (requestMessage s l 8 0)) ∧
      (∀ p n, x.acct.permitted.getLsbD g.val = true → (s.line l).account = some n → ordinary g p → (s.port p).state = .free →
        (∀ p', p' < p → ordinary g p' → (s.port p').state ≠ .free) →
        exec (.lineRxChar l.val c) s = .next (chosen.called p l .calling n x.acct.cls)) ∧
      (x.acct.permitted.getLsbD g.val = true → (∃ p, ordinary g p ∧ (s.port p).state ≠ .outOfService) →
        (∀ p, ordinary g p → (s.port p).state ≠ .free) →
        (q.queueLimit ≤ q.queue.length →
          exec (.lineRxChar l.val c) s = .next ((requestMessage s l 6 0).modGroup g (fun x =>
            { x with refusedCount := if x.refusedCount < 16777215 then x.refusedCount + 1 else x.refusedCount }))) ∧
        (q.queue.length < q.queueLimit → (∀ place ∈ q.queue, place.line ≠ l) →
          ∃ ahead behind : List Place, q.queue = ahead ++ behind ∧
            let priority := (s.cal.active.policies.get x.acct.cls).queuePriority
            (∀ place ∈ behind, priority < place.priority) ∧ (∀ place, ahead.getLast? = some place → place.priority ≤ priority) ∧
            let count := if q.congestionMode = .edge ∧ q.queue.length + 1 = q.congestionThreshold ∧
              q.congestionCount < 16777215 then q.congestionCount + 1 else q.congestionCount
            let queued := chosen.modGroup g (fun x =>
              { x with queue := ahead ++ { line := l, priority := priority, announced := ahead.length + 1 } :: behind,
                       congestionCount := count })
            exec (.lineRxChar l.val c) s = .next (requestMessage (queued.modLine l (fun r =>
              { r with phase := .admitted .waiting, port := none,
                       stageTimer := if q.waitLimit = 0 then none else some (q.waitLimit * 60) })) l 5 (ahead.length + 1))))

/-- Characters and breaks in CONNECTED, WAITING and ESCAPED: a character that does not match the escape key under the mask
goes to the line-to-port slot and is offered to the port, or is dropped with overrun; an escape character or a break enters
ESCAPED with message 14; a break leaves the queue; in ESCAPED, R resumes and Q ends the session (R60, R61, R63, R64, R156). -/
def Obligations.AdmittedCharacters : Prop :=
  ∀ (l : LineNo) (c : Byte) (e : EntryNo) (x : OatEntry) (s : State), (s.line l).entryRef = some e → s.entry e = some x →
    let k := c.toNat % 128
    let r := s.line l
    let matched := k &&& s.lc.params.escapeMask = s.lc.params.escapeKey &&& s.lc.params.escapeMask
    let escaped := requestMessage (s.modLine l (fun r =>
      { r with phase := .admitted .escaped, idleCount := some 0, idleWarning := none, portToLine := none,
               stageTimer := some 60 })) l 14 x.acct.allotment
    let resumed := s.modLine l (fun r =>
      { r with phase := .admitted .connected, stageTimer := none, idleCount := some 0 })
    (r.phase = .admitted .connected →
      (matched → exec (.lineRxChar l.val c) s = .next escaped) ∧ exec (.rxBreak l.val) s = .next escaped ∧
      (∀ p, ¬matched → r.lineToPort = none → r.port = some p →
        let s' := s.modLine l (fun r => { r with idleCount := some 0, idleWarning := none, lineToPort := some c })
        exec (.lineRxChar l.val c) s = .next { s' with pa := { s.pa with bus := s.pa.bus ++ [.txChar p c (some l)] } }) ∧
      (¬matched → r.lineToPort ≠ none → exec (.lineRxChar l.val c) s =
        .next (s.modLine l (fun r => { r with idleCount := some 0, idleWarning := none, overrun := true })))) ∧
    (r.phase = .admitted .escaped → exec (.rxBreak l.val) s = .next s ∧
      (k = 82 ∨ k = 114 → exec (.lineRxChar l.val c) s = .next resumed) ∧
      (k = 81 ∨ k = 113 → ∃ t, exec (.lineRxChar l.val c) s = .next t ∧ CallEnded .userQuit s t l ∧ KeptAtEnd s t ∧
        t.sup = s.sup) ∧
      (k ≠ 81 → k ≠ 82 → k ≠ 113 → k ≠ 114 → exec (.lineRxChar l.val c) s = .next s)) ∧
    (r.phase = .admitted .waiting → exec (.lineRxChar l.val c) s = .next s ∧
      ∀ g, r.selectedGroup = some g →
        let left := s.modGroup g (fun q => { q with queue := q.queue.filter (fun place => decide (place.line ≠ l)) })
        exec (.rxBreak l.val) s = .next (requestMessage (left.modLine l (fun r =>
          { r with phase := .admitted .selecting, stageTimer := some s.lc.params.selectionLimit, portFaults := 0, port := none }))
            l 4 ((List.range 6).filter (fun i => x.acct.permitted.getLsbD i)).length))

/-- A message request: with no current message the text becomes current with its first "#" replaced by the number in decimal,
and its first character is sent if the transmitter is free; otherwise it takes the pending place. A current message goes out
whole: one TX_DONE for each character that has been sent, and the characters go to the line in order; the last TX_DONE leaves
the transmitter free with no message current. What a TX_DONE sends at a character boundary: nothing where the flag is clear;
the next character of the current message; the pending message once the current one has ended; the port-to-line character in
CONNECTED; and in CLOSING, RELEASE after the goodbye, which takes over at the first boundary. A message without characters ends
as it becomes current, so that the port-to-line character or nothing goes out in its place, and a goodbye without characters
releases the line at once (R58, R67 to R70). That a "#" is matched on all 8 bits is log entry 40 (DESIGN CHOICE). -/
def Obligations.MessagesSent : Prop :=
  (((∀ (pre post : List Byte) (n : Nat), 0x23 ∉ pre →
    expandText (pre ++ 0x23 :: post) n = pre ++ (Nat.toDigits 10 n).map (fun d => BitVec.ofNat 8 d.toNat) ++ post ∧
      expandText pre n = pre) ∧
  ∀ (l : LineNo) (m : MsgNo) (n : Nat) (s : State),
    let text := expandText (s.lc.messages.get m) n
    let current (position : Nat) : State :=
      s.modLine l (fun r => { r with current := some { number := m, inserted := n, text := text, position := position } })
    ((s.line l).current = none → text = [] → requestMessage s l m n = s) ∧
    (∀ c rest, (s.line l).current = none → text = c :: rest → (s.line l).txBusy = false →
      requestMessage s l m n = (current 1).sent l c) ∧
    ((s.line l).current = none → text ≠ [] → (s.line l).txBusy = true → requestMessage s l m n = current 0) ∧
    ((s.line l).current ≠ none →
      requestMessage s l m n = s.modLine l (fun r => { r with pending := some { number := m, inserted := n } }))) ∧
  (∀ (l : LineNo) (m : CurrentMsg) (s : State), (s.line l).current = some m → m.position ≤ m.text.length →
    (s.line l).txBusy = true → (s.line l).pending = none → (s.line l).portToLine = none →
    (s.line l).phase.inCall = true → (s.line l).phase ≠ .answering →
    execAll (List.replicate (m.text.length - m.position + 1) (.txDone l.val)) s =
      .next { s.modLine l (fun r => { r with current := none, txBusy := false }) with
              lc := { (s.modLine l (fun r => { r with current := none, txBusy := false })).lc with
                      bus := s.lc.bus ++ (m.text.drop m.position).map (.txChar l) } })) ∧
  (∀ (l : LineNo) (s : State),
    let r := s.line l
    let done (f : LineRec → LineRec) : State := s.modLine l (fun r => f { r with txBusy := false })
    (r.txBusy = false → exec (.txDone l.val) s = .next s) ∧
    (r.txBusy = true → r.phase ∈ [Phase.down, .idle, .answering, .guard] → exec (.txDone l.val) s = .next (done id)) ∧
    (r.txBusy = true → (∃ st, r.phase = .signon st) ∨ (∃ st, r.phase = .admitted st) →
      (∀ m c, r.current = some m → m.text[m.position]? = some c → exec (.txDone l.val) s =
        .next ((done (fun r => { r with current := some { m with position := m.position + 1 } })).sent l c)) ∧
      (∀ m p c rest, r.current = some m → m.text.length ≤ m.position → r.pending = some p →
        expandText (s.lc.messages.get p.number) p.inserted = c :: rest → exec (.txDone l.val) s =
          .next ((done (fun r => { r with current := some { number := p.number, inserted := p.inserted, text := c :: rest,
                                                            position := 1 }, pending := none })).sent l c)) ∧
      (∀ m p, r.current = some m → m.text.length ≤ m.position → r.pending = some p →
        expandText (s.lc.messages.get p.number) p.inserted = [] →
        (∀ c, r.phase = .admitted .connected → r.portToLine = some c → exec (.txDone l.val) s =
          .next ((done (fun r => { r with current := none, pending := none, portToLine := none })).sent l c)) ∧
        (r.phase ≠ .admitted .connected ∨ r.portToLine = none → exec (.txDone l.val) s =
          .next (done (fun r => { r with current := none, pending := none })))) ∧
      ((∀ m, r.current = some m → m.text.length ≤ m.position) → r.pending = none →
        (∀ c, r.phase = .admitted .connected → r.portToLine = some c → exec (.txDone l.val) s =
          .next ((done (fun r => { r with current := none, portToLine := none })).sent l c)) ∧
        (r.phase ≠ .admitted .connected ∨ r.portToLine = none → exec (.txDone l.val) s =
          .next (done (fun r => { r with current := none }))))) ∧
    (r.txBusy = true → r.phase = .closing →
      (∀ p c rest, r.pending = some p → expandText (s.lc.messages.get 15) p.inserted = c :: rest → exec (.txDone l.val) s =
        .next ((done (fun r => { r with current := some { number := 15, inserted := p.inserted, text := c :: rest,
                                                          position := 1 }, pending := none })).sent l c)) ∧
      (∀ p, r.pending = some p → expandText (s.lc.messages.get 15) p.inserted = [] → exec (.txDone l.val) s =
        .next ((done id).releasedLine l)) ∧
      (∀ m c, r.pending = none → r.current = some m → m.text[m.position]? = some c → exec (.txDone l.val) s =
        .next ((done (fun r => { r with current := some { m with position := m.position + 1 } })).sent l c)) ∧
      (∀ m, r.pending = none → r.current = some m → m.text.length ≤ m.position → exec (.txDone l.val) s =
        .next ((done id).releasedLine l))))

/-- The two buses. Codes 0 to 5 from a line unit and 0 to 4 from a port are the events of the tables of R52 and R147, and a
code that names no event is taken and discarded; the command offered stands on the pins with its number, its code and its
data, a CALL with line, account number in three bytes and class (the order of those bytes is log entry 43, DEDUCED). A command
that is accepted is complete and the next one is offered; one that is withdrawn after 10 ms counts as complete, and a
withdrawn TX_CHAR to a line is taken as though its TX_DONE had been taken. A completed TX_CHAR to a port empties the slot its
character stood in; for one that is withdrawn that is the model's choice (log entry 21). That acceptances and timeouts with
nothing on a bus change nothing is log entry 33 (DEDUCED). Events for the line numbers 96 to 127, which the bus can carry and
no line has, and characters and breaks in the phases that discard them, change nothing (R52, R55, R59 to R61, R84, R147). -/
def Obligations.BusTransfers : Prop :=
  (∀ s : State,
    let taken : State := { s with lc := { s.lc with bus := s.lc.bus.tail } }
    let portTaken : State := { s with pa := { s.pa with bus := s.pa.bus.tail } }
    exec .lineCommandAccepted s = .next taken ∧
    (s.lc.bus = [] → exec .lineCommandTimeout s = .next s) ∧
    (∀ l, s.lc.bus.head? = some (.answer l) ∨ s.lc.bus.head? = some (.release l) →
      exec .lineCommandTimeout s = .next taken) ∧
    (∀ l c, s.lc.bus.head? = some (.txChar l c) → ∃ t, exec .lineCommandTimeout s = .next t ∧
      exec (.txDone l.val) taken = .next t) ∧
    ∀ i, i = .portCommandAccepted ∨ i = .portCommandTimeout →
      (∀ p c l, s.pa.bus.head? = some (.txChar p c (some l)) →
        exec i s = .next (portTaken.modLine l (fun r => { r with lineToPort := none }))) ∧
      ((∀ p c l, s.pa.bus.head? ≠ some (.txChar p c (some l))) → exec i s = .next portTaken)) ∧
  (∀ s : State,
    (∀ n, 95 < n → n < 128 → ∀ c, exec (.ring n) s = .next s ∧ exec (.carrierOn n) s = .next s ∧
      exec (.carrierOff n) s = .next s ∧ exec (.lineRxChar n c) s = .next s ∧ exec (.rxBreak n) s = .next s ∧
      exec (.txDone n) s = .next s) ∧
    ∀ (l : LineNo) (c : Byte), (s.line l).phase ∈ [Phase.down, .idle, .answering, .closing, .guard, .signon .checking,
        .signon .held, .signon .admitting, .admitted .calling, .admitted .moving] →
      exec (.lineRxChar l.val c) s = .next s ∧ exec (.rxBreak l.val) s = .next s) ∧
  (∀ (s : State) (t : LineTransfer),
    let n := t.line.val
    let queues (c : Instr) : Prop := s.takeLineTransfer t = { s with pending := s.pending ++ [c] }
    (t.code = 0 → queues (.ring n)) ∧ (t.code = 1 → queues (.carrierOn n)) ∧ (t.code = 2 → queues (.carrierOff n)) ∧
    (t.code = 3 → queues (.lineRxChar n t.data)) ∧ (t.code = 4 → queues (.rxBreak n)) ∧ (t.code = 5 → queues (.txDone n)) ∧
    (6 ≤ t.code.val → s.takeLineTransfer t = s)) ∧
  (∀ (s : State) (t : PortTransfer),
    let queues (c : Instr) : Prop := s.takePortTransfer t = { s with pending := s.pending ++ [c] }
    (t.code = 0 → queues (.hostReadyOn t.port)) ∧ (t.code = 1 → queues (.hostReadyOff t.port)) ∧
    (t.code = 2 → queues (.accept t.port)) ∧ (t.code = 3 → queues (.portRxChar t.port t.data)) ∧
    (t.code = 4 → queues (.hostDisconnect t.port)) ∧ (5 ≤ t.code.val → s.takePortTransfer t = s)) ∧
  ∀ s : State,
    (s.lc.bus = [] → s.lineBusOut = none) ∧ (s.pa.bus = [] → s.portBusOut = none) ∧
    (∀ l, s.lc.bus.head? = some (.answer l) → s.lineBusOut = some (l.val, 0, [])) ∧
    (∀ l, s.lc.bus.head? = some (.release l) → s.lineBusOut = some (l.val, 1, [])) ∧
    (∀ l c, s.lc.bus.head? = some (.txChar l c) → s.lineBusOut = some (l.val, 2, [c])) ∧
    (∀ p l n cls, s.pa.bus.head? = some (.call p l n cls) → s.portBusOut = some (p.val, 0,
      [BitVec.ofNat 8 l.val, BitVec.ofNat 8 (n / 65536), BitVec.ofNat 8 (n / 256), BitVec.ofNat 8 n, BitVec.ofNat 8 cls.val])) ∧
    (∀ p, s.pa.bus.head? = some (.hangUp p) → s.portBusOut = some (p.val, 1, [])) ∧
    ∀ p c k, s.pa.bus.head? = some (.txChar p c k) → s.portBusOut = some (p.val, 2, [c])

/-! ## Timers -/

/-- What each timer's expiry does when it stands at 0 in its phase or stage: the answer, sign-on and selection limits, the
carrier hold, the idle warning and the two countdowns end the call with the cause of each; the hold timer fails the attempt
with reason 5; the wait limit puts the line back to SELECTING with message 6; the escape limit resumes; the closing limit
releases; the guard time leads to IDLE, or to DOWN where the out-of-service mark was set. An expiry whose timer does not stand
at 0 changes nothing, which is the model's reading of the command (R55, R57 to R59, R64, R65, R85, R97, R136, R141, R148,
R156; log entry 4). Message 6, and message 1 after a failed attempt, carry the number 0 (log entry 39, DESIGN CHOICE), and a
call ended in ANSWERING with the carrier present flag set says goodbye (log entry 45, DESIGN CHOICE). -/
def Obligations.Expiries : Prop :=
  (∀ (l : LineNo) (s : State),
    let r := s.line l
    let admitted := ∃ st, r.phase = .admitted st
    let ends (i : Instr) (cause : EndCause) : Prop :=
      ∃ t, exec i s = .next t ∧ CallEnded cause s t l ∧ KeptAtEnd s t ∧ t.sup = s.sup
    (r.phase = .answering → r.stageTimer = some 0 → ends (.answerLimitExpiry l) .carrierLost) ∧
    (r.phase = .signon .accountEntry ∨ r.phase = .signon .passwordEntry → r.stageTimer = some 0 →
      ends (.signonLimitExpiry l) .signonFailed) ∧
    (r.phase = .admitted .selecting → r.stageTimer = some 0 → ends (.selectionLimitExpiry l) .noHost) ∧
    ((∃ st, r.phase = .signon st) ∨ admitted → r.carrierHold = some 0 → ends (.carrierHoldExpiry l) .carrierLost) ∧
    (r.phase = .admitted .connected → r.idleWarning = some 0 → ends (.idleWarningExpiry l) .idle) ∧
    (admitted → r.exhaustion = some 0 → ends (.exhaustionCountdownExpiry l) .exhausted) ∧
    (admitted → r.hours = some 0 → r.exhaustion ≠ some 0 → ends (.hoursCountdownExpiry l) .hours) ∧
    (admitted → r.hours = some 0 → r.exhaustion = some 0 → ends (.hoursCountdownExpiry l) .exhausted) ∧
    (r.stageTimer ≠ some 0 → exec (.answerLimitExpiry l) s = .next s ∧ exec (.signonLimitExpiry l) s = .next s ∧
      exec (.selectionLimitExpiry l) s = .next s ∧ exec (.waitLimitExpiry l) s = .next s ∧
      exec (.escapeLimitExpiry l) s = .next s ∧ exec (.closingLimitExpiry l) s = .next s ∧
      exec (.guardTimeExpiry l) s = .next s) ∧
    (r.holdTimer ≠ some 0 → exec (.holdTimerExpiry l) s = .next s) ∧
    (r.carrierHold ≠ some 0 → exec (.carrierHoldExpiry l) s = .next s) ∧
    (r.idleWarning ≠ some 0 → exec (.idleWarningExpiry l) s = .next s) ∧
    (r.exhaustion ≠ some 0 → exec (.exhaustionCountdownExpiry l) s = .next s) ∧
    (r.hours ≠ some 0 → exec (.hoursCountdownExpiry l) s = .next s)) ∧
  (∀ (l : LineNo) (s : State),
    let r := s.line l
    (r.phase = .signon .held → r.holdTimer = some 0 → ∃ t, exec (.holdTimerExpiry l) s = .next t ∧
      AttemptFailed 5 { s.modLine l (fun r => { r with holdTimer := none }) with
                        attn := { s.attn with hold := s.attn.hold.set l false } } t l) ∧
    (∀ g, r.phase = .admitted .waiting → r.stageTimer = some 0 → r.selectedGroup = some g →
      let left := s.modGroup g (fun q => { q with queue := q.queue.filter (fun place => decide (place.line ≠ l)) })
      exec (.waitLimitExpiry l) s = .next (requestMessage (left.modLine l (fun r =>
        { r with phase := .admitted .selecting, stageTimer := some s.lc.params.selectionLimit, portFaults := 0, port := none }))
          l 6 0)) ∧
    (r.phase = .admitted .escaped → r.stageTimer = some 0 → exec (.escapeLimitExpiry l) s =
      .next (s.modLine l (fun r => { r with phase := .admitted .connected, stageTimer := none, idleCount := some 0 }))) ∧
    (r.phase = .closing → r.stageTimer = some 0 → exec (.closingLimitExpiry l) s = .next (s.releasedLine l)) ∧
    (r.phase = .guard → r.stageTimer = some 0 → exec (.guardTimeExpiry l) s =
      .next (s.modLine l (fun r =>
        { r with phase := if r.outOfService then .down else .idle, outOfService := false, stageTimer := none }))))

/-- The end of a call that was never ADMITTED, by the answer limit, the sign-on limit or the carrier hold: its waiting sign-on
operation is withdrawn, its HOLD item removed, and the line says goodbye or is released; no other line, and no port, group,
entry, watch or other item changes (R10, R97, R100, R192, R194). A TX_CHAR of the line that still waits for a port is taken
off the list (log entry 21, DESIGN CHOICE), and in ANSWERING the carrier present flag decides on the goodbye (log entry 45, DESIGN
CHOICE). -/
def Obligations.CallNeverAdmittedEndsAlone : Prop :=
  ∀ (i : Instr) (l : LineNo) (s : State), (s.line l).port = none → (s.line l).portToLine = none →
    (i = .answerLimitExpiry l ∧ (s.line l).phase = .answering ∧ (s.line l).stageTimer = some 0 ∨
      i = .signonLimitExpiry l ∧ ((s.line l).phase = .signon .accountEntry ∨ (s.line l).phase = .signon .passwordEntry) ∧
        (s.line l).stageTimer = some 0 ∨
      i = .carrierHoldExpiry l ∧ (∃ st, (s.line l).phase = .signon st) ∧ (s.line l).carrierHold = some 0) →
    ∃ t, exec i s = .next t ∧
      CallEnded (if i = .signonLimitExpiry l then .signonFailed else .carrierLost) s t l ∧
      t = { s with lc := { s.lc with lines := t.lc.lines, bus := t.lc.bus },
                   pa := { s.pa with bus := dropSlotCommands l s.pa.bus },
                   attn := { s.attn with hold := s.attn.hold.set l false },
                   ctl := { s.ctl with signOnQueue := s.ctl.signOnQueue.filter (fun op => decide (op.line ≠ l)) } } ∧
      ∀ k, k ≠ l → t.line k = s.line k

/-! ## Host ports -/

/-- A call that fails by the expiry of the call timer, by HOST_READY_OFF or by PORT_SERVICE out: the port is hung up and
FAULTED with the cause and its PORT_FAULT item, or OUT_OF_SERVICE without one; the line's port faults rise, and the line is
called on the lowest-numbered FREE ORDINARY port of its group, rejoins the queue at the front of its priority level, or at the
second failure returns to SELECTING with message 8. A failed move leaves the spare the same way and ends the session with
HOST_LOST; for an account that stays NORMAL the HANG_UP is the last command to a port and no other port changes (R152, R154,
R163, R178; a waiting TX_CHAR of the line, log entry 21, DESIGN CHOICE). Message 8 carries the number 0 (log entry 39, DESIGN
CHOICE). -/
def Obligations.FailedCalls : Prop :=
  ∀ (i : Instr) (cause : Option FaultCause) (p : PortNo) (l : LineNo) (e : EntryNo) (y : OatEntry) (n : Nat) (s : State),
    (s.port p).state = .calling → (s.port p).line = some l → (s.line l).entryRef = some e → s.entry e = some y →
    (s.line l).account = some n →
    (i = .callTimerExpiry p ∧ (s.port p).callTimer = some 0 ∧ cause = some .noAccept ∨
      i = .hostReadyOff p ∧ cause = some .readyLost ∨
      i = .portServiceOut p.val ∧ s.sup.busy = false ∧ cause = none) →
    let failed := s.modPort p (fun x =>
      { x with state := if cause = none then .outOfService else .faulted,
               hostReady := if cause = some .readyLost then false else x.hostReady, line := none,
               callTimer := none, faultCause := cause.or x.faultCause })
    let hung : State :=
      { failed with
        pa := { failed.pa with bus := s.pa.bus ++ [.hangUp p] },
        attn := { s.attn with
          portFault := if cause = none then s.attn.portFault else s.attn.portFault.set p cause },
        sup := if cause = none then s.sup.answered 0 false [] else s.sup }
    let left := hung.modLine l (fun r => { r with port := none, portFaults := r.portFaults + 1 })
    let normal := y.acct.lowThreshold + 1 < y.acct.allotment
    let free (g : GroupNo) (q : PortNo) : Prop :=
      q ≠ p ∧ (s.port q).group = some g ∧ (s.port q).role = .ordinary ∧ (s.port q).state = .free
    ((s.line l).phase = .admitted .calling →
      (∀ g q, (s.line l).portFaults = 0 → (s.line l).selectedGroup = some g → free g q → (∀ q', q' < q → ¬free g q') →
        exec i s = .next (left.called q l .calling n y.acct.cls)) ∧
      (∀ g, (s.line l).portFaults = 0 → (s.line l).selectedGroup = some g → (∀ q, ¬free g q) →
        (∀ place ∈ (s.group g).queue, place.line ≠ l) →
        ∃ ahead behind : List Place, (s.group g).queue = ahead ++ behind ∧
          let x := s.group g
          let priority := (s.cal.active.policies.get y.acct.cls).queuePriority
          (∀ place ∈ ahead, place.priority < priority) ∧ (∀ place, behind.head? = some place → priority ≤ place.priority) ∧
          let count := if x.congestionMode = .edge ∧ x.queue.length + 1 = x.congestionThreshold ∧
            x.congestionCount < 16777215 then x.congestionCount + 1 else x.congestionCount
          let queued := left.modGroup g (fun x =>
            { x with queue := ahead ++ { line := l, priority := priority, announced := ahead.length + 1 } :: behind,
                     congestionCount := count })
          exec i s = .next (requestMessage (queued.modLine l (fun r =>
            { r with phase := .admitted .waiting,
                     stageTimer := if x.waitLimit = 0 then none else some (x.waitLimit * 60) })) l 5 (ahead.length + 1))) ∧
      (1 ≤ (s.line l).portFaults → exec i s = .next (requestMessage (left.modLine l (fun r =>
        { r with phase := .admitted .selecting, stageTimer := some s.lc.params.selectionLimit, portFaults := 0 })) l 8 0))) ∧
    ((s.line l).phase = .admitted .moving →
      ∃ t, exec i s = .next t ∧ CallEnded .hostLost s t l ∧ KeptAtEnd s t ∧ t.sup = hung.sup ∧
        t.attn.portFault = hung.attn.portFault ∧ PortCmd.hangUp p ∈ t.pa.bus ∧
        (LinksLawful s ∨ normal → t.port p = hung.port p) ∧
        (normal → t.pa.bus = dropSlotCommands l (s.pa.bus ++ [.hangUp p]) ∧ ∀ q, q ≠ p → t.port q = s.port q))

/-- A port loss: HOST_READY_OFF for an IN_USE port. The port is sent HANG_UP and is FAULTED with READY_LOST, its host ready
clear, naming no line and with no call timer, and its PORT_FAULT item is raised; the line loses its port and both slots. With
a move count below 2, an allowance and a FREE SPARE port of the group, the line moves to the lowest-numbered one; otherwise
the session ends with HOST_LOST, and for an account that stays NORMAL the HANG_UP is the last command to a port and no other
port changes (R171 to R173). That a TX_CHAR of the line that still waits behind the command on the bus is taken off the list
when the slots are emptied is the model's choice (log entry 21, DESIGN CHOICE, unsafe). -/
def Obligations.PortLoss : Prop :=
  ∀ (p : PortNo) (l : LineNo) (g : GroupNo) (e : EntryNo) (y : OatEntry) (n : Nat) (s : State),
    (s.port p).state = .inUse → (s.port p).line = some l → (s.port p).group = some g →
    (s.line l).phase = .admitted .connected ∨ (s.line l).phase = .admitted .escaped →
    (s.line l).entryRef = some e → s.entry e = some y → (s.line l).account = some n →
    let failed := s.modPort p (fun x =>
      { x with state := .faulted, hostReady := false, line := none, callTimer := none, faultCause := some .readyLost })
    let spare (q : PortNo) : Prop := (s.port q).group = some g ∧ (s.port q).role = .spare ∧ (s.port q).state = .free
    let allowance := (s.group g).failoverAllowance
    let normal := y.acct.lowThreshold + 1 < y.acct.allotment
    (∀ q, (s.line l).moveCount < 2 → 0 < allowance → spare q → (∀ q', q' < q → ¬spare q') →
      let hung : State := { failed with
        pa := { failed.pa with bus := dropSlotCommands l (s.pa.bus ++ [.hangUp p]) },
        attn := { s.attn with
          portFault := s.attn.portFault.set p (some .readyLost),
          failoverSpent := if allowance = 1 then s.attn.failoverSpent.set g true else s.attn.failoverSpent } }
      exec (.hostReadyOff p) s = .next (((hung.modGroup g (fun x => { x with failoverAllowance := allowance - 1 })).modLine l
        (fun r => { r with lineToPort := none, portToLine := none, moveCount := r.moveCount + 1 })).called q l .moving n
          y.acct.cls)) ∧
    (2 ≤ (s.line l).moveCount ∨ allowance = 0 ∨ (∀ q, ¬spare q) →
      ∃ t, exec (.hostReadyOff p) s = .next t ∧ CallEnded .hostLost s t l ∧ KeptAtEnd s t ∧ t.sup = s.sup ∧
        t.attn.portFault.get p = some .readyLost ∧ t.attn.failoverSpent = s.attn.failoverSpent ∧
        (t.line l).moveCount = (s.line l).moveCount ∧ PortCmd.hangUp p ∈ t.pa.bus ∧
        (LinksLawful s ∨ normal → t.port p = failed.port p) ∧
        (normal → t.pa.bus = dropSlotCommands l (s.pa.bus ++ [.hangUp p]) ∧ ∀ q, q ≠ p → t.port q = s.port q))

/-- HOST_READY_ON and HOST_READY_OFF for a port that carries no line set and clear the flag; a NOT_READY port becomes FREE, an
ORDINARY one going to the head of its group's queue at once, and a FREE port becomes NOT_READY; HOST_READY_OFF for a CALLING
or an IN_USE port has statements of its own. ACCEPT, characters and HOST_DISCONNECT from a port: a CALLING port connects its
line with message 7, or completes its move with message 9, and any other port is sent HANG_UP; a character reaches the line in
CONNECTED, at once, into the slot, or with overrun; HOST_DISCONNECT ends the session with HOST_ENDED (R62, R151, R157 to R159,
R177). Messages 7 and 9 carry the number 0 (log entry 39, DESIGN CHOICE). -/
def Obligations.PortEvents : Prop :=
  (∀ (p : PortNo) (s : State),
    let x := s.port p
    let on := s.modPort p (fun x => { x with hostReady := true })
    let off := s.modPort p (fun x => { x with hostReady := false })
    (x.state ≠ .notReady → exec (.hostReadyOn p) s = .next on) ∧
    (x.state = .notReady → (x.role = .spare ∨ ∀ g, x.group = some g → (s.group g).queue = []) →
      exec (.hostReadyOn p) s = .next (on.modPort p (fun x => { x with state := .free }))) ∧
    (∀ g place rest e y n, x.state = .notReady → x.role = .ordinary → x.group = some g → (s.group g).queue = place :: rest →
      (s.line place.line).entryRef = some e → s.entry e = some y → (s.line place.line).account = some n →
      exec (.hostReadyOn p) s =
        .next ((on.modGroup g (fun q => { q with queue := rest })).called p place.line .calling n y.acct.cls)) ∧
    (x.state = .outOfService ∨ x.state = .notReady ∨ x.state = .faulted → exec (.hostReadyOff p) s = .next off) ∧
    (x.state = .free → exec (.hostReadyOff p) s = .next (off.modPort p (fun x => { x with state := .notReady })))) ∧
  (∀ (p : PortNo) (l : LineNo) (c : Byte) (s : State),
    let taken := s.modPort p (fun x => { x with state := .inUse, callTimer := none })
    ((s.port p).state = .calling → (s.port p).line = some l →
      ((s.line l).phase = .admitted .calling →
        exec (.accept p) s = .next (requestMessage (taken.modLine l (fun r =>
          { r with phase := .admitted .connected, portFaults := 0, idleCount := some 0 })) l 7 0)) ∧
      ((s.line l).phase = .admitted .moving →
        exec (.accept p) s = .next (requestMessage (taken.modLine l (fun r => { r with phase := .admitted .connected })) l 9 0))) ∧
    ((s.port p).state ≠ .calling →
      exec (.accept p) s = .next { s with pa := { s.pa with bus := s.pa.bus ++ [.hangUp p] } }) ∧
    ((s.port p).state = .inUse → (s.port p).line = some l →
      let active (f : LineRec → LineRec) : State := s.modLine l (fun r => f { r with idleCount := some 0, idleWarning := none })
      ((s.line l).phase = .admitted .connected →
        ((s.line l).portToLine ≠ none → exec (.portRxChar p c) s = .next (active (fun r => { r with overrun := true }))) ∧
        ((s.line l).portToLine = none → (s.line l).txBusy = true →
          exec (.portRxChar p c) s = .next (active (fun r => { r with portToLine := some c }))) ∧
        ((s.line l).portToLine = none → (s.line l).txBusy = false → (s.line l).current = none → (s.line l).pending = none →
          exec (.portRxChar p c) s = .next ((active id).sent l c))) ∧
      ((s.line l).phase = .admitted .escaped → exec (.portRxChar p c) s = .next s) ∧
      ((s.line l).phase.isAdmitted = true → ∃ t, exec (.hostDisconnect p) s = .next t ∧ CallEnded .hostEnded s t l ∧
        KeptAtEnd s t ∧ t.sup = s.sup)) ∧
    ((s.port p).state ≠ .inUse → exec (.portRxChar p c) s = .next s ∧ exec (.hostDisconnect p) s = .next s))

/-- The end of a session whose line names a port, for an account that stays NORMAL, by each cause a single command can give
it: HOST_DISCONNECT, QUIT, the carrier hold, the idle warning, the exhaustion and hours countdowns, FORCE_END, LINE_SERVICE
out and PORT_SERVICE out. Message 15 is requested with the charged credits (CallEnded). A residue of 30,000 or more posts one
credit in the last charged category and the residue becomes 0; the session leaves its entry, which at count 0 becomes CLOSING
and is queued. The port is sent HANG_UP and gives up its line and call timer: it is OUT_OF_SERVICE after PORT_SERVICE out,
NOT_READY with host ready clear, and otherwise FREE, an ORDINARY one going to the head of its group's queue at once, with the
CALL behind the HANG_UP. No other line, port, group or entry changes (R32, R132, R157, R161, R163, R184, R186, R188, R189,
R193). That a TX_CHAR of the line that still waits is taken off the list is log entry 21 (DESIGN CHOICE). -/
def Obligations.SessionEndReleasesPort : Prop :=
  ∀ (i : Instr) (cause : EndCause) (out : Bool) (p : PortNo) (l : LineNo) (e : EntryNo) (x : OatEntry) (s : State),
    (s.line l).port = some p → (s.port p).line = some l → (s.line l).phase.holdsPort = true →
    (s.line l).entryRef = some e → s.entry e = some x →
    x.acct.lowThreshold + 1 < x.acct.allotment → (s.line l).charged ≤ 16777215 → x.acct.waitTotal ≤ 16777215 →
    (∀ b : Band, x.acct.bandTotals.get b ≤ 16777215) →
    (cause = .hostEnded ∧ out = false ∧ i = .hostDisconnect p ∧ (s.port p).state = .inUse ∨
      cause = .userQuit ∧ out = false ∧ (i = .lineRxChar l.val 81 ∨ i = .lineRxChar l.val 113) ∧
        (s.line l).phase = .admitted .escaped ∨
      cause = .carrierLost ∧ out = false ∧ i = .carrierHoldExpiry l ∧ (s.line l).carrierHold = some 0 ∨
      cause = .idle ∧ out = false ∧ i = .idleWarningExpiry l ∧ (s.line l).phase = .admitted .connected ∧
        (s.line l).idleWarning = some 0 ∨
      cause = .exhausted ∧ out = false ∧ i = .exhaustionCountdownExpiry l ∧ (s.line l).exhaustion = some 0 ∨
      cause = .hours ∧ out = false ∧ i = .hoursCountdownExpiry l ∧ (s.line l).hours = some 0 ∧
        (s.line l).exhaustion ≠ some 0 ∨
      cause = .supervisor ∧ s.sup.busy = false ∧
        (out = false ∧ (i = .forceEnd l.val ∨ i = .lineServiceOut l.val) ∨
          out = true ∧ i = .portServiceOut p.val ∧ (s.port p).state = .inUse)) →
    let a := x.acct
    let rounded := 30000 ≤ (s.line l).residue ∧ (s.line l).lastCategory ≠ none
    let paid : Account :=
      if rounded then
        match (s.line l).lastCategory with
        | some (.band b) =>
          { a with allotment := a.allotment - 1, bandTotals := a.bandTotals.set b (min 16777215 (a.bandTotals.get b + 1)) }
        | _ => { a with allotment := a.allotment - 1, waitTotal := min 16777215 (a.waitTotal + 1) }
      else a
    let left : OatEntry := { x with acct := paid, dirty := x.dirty || decide rounded }
    ∃ t, exec i s = .next t ∧ CallEnded cause s t l ∧ KeptAtEnd s t ∧
      t.sup = (if cause = .supervisor then s.sup.answered 0 false [] else s.sup) ∧
      ((t.line l).residue = 0 ∧
        (t.line l).charged = if rounded then min 16777215 ((s.line l).charged + 1) else (s.line l).charged) ∧
      ((2 ≤ x.count → t.entry e = some { left with count := x.count - 1 } ∧ t.oat.writeBackList = s.oat.writeBackList) ∧
        (x.count ≤ 1 → e ∉ s.oat.writeBackList → s.ctl.inProgress = none →
          t.entry e = some { left with count := 0, state := .closing } ∧ t.oat.writeBackList = s.oat.writeBackList ++ [e]) ∧
        ∀ k, k ≠ e → t.entry k = s.entry k) ∧
      (∀ q, q ≠ p → t.port q = s.port q) ∧
      (∀ k, k ≠ l → (∀ g place rest, (s.port p).group = some g → (s.group g).queue = place :: rest → k ≠ place.line) →
        t.line k = s.line k) ∧
      let released (state : PortState) : Prop :=
        t.port p = { s.port p with state := state, line := none, callTimer := none } ∧ (∀ k, t.group k = s.group k) ∧
          t.pa.bus = dropSlotCommands l (s.pa.bus ++ [.hangUp p])
      (out = true → released .outOfService) ∧
      (out = false → (s.port p).hostReady = false → released .notReady) ∧
      (out = false → (s.port p).hostReady = true →
        ((s.port p).role = .spare ∨ ∀ g, (s.port p).group = some g → (s.group g).queue = []) → released .free) ∧
      ∀ g place rest, out = false → (s.port p).hostReady = true → (s.port p).role = .ordinary → (s.port p).group = some g →
        (s.group g).queue = place :: rest → place.line ≠ l →
        t.port p = { s.port p with state := .calling, line := some place.line, callTimer := some s.lc.params.callLimit } ∧
        t.line place.line = { s.line place.line with phase := .admitted .calling, port := some p, stageTimer := none } ∧
        t.group g = { s.group g with queue := rest } ∧ (∀ k, k ≠ g → t.group k = s.group k) ∧
        ∀ k y n, (s.line place.line).entryRef = some k → s.entry k = some y → (s.line place.line).account = some n →
          t.pa.bus = dropSlotCommands l (s.pa.bus ++ [.hangUp p, .call p place.line n y.acct.cls])

/-! ## The account store -/

/-- The rotation: nothing is chosen while an operation is in progress or nothing waits; otherwise the first class with waiting
work, from the one the pointer names, begins its first operation, and the pointer names the class after it. An operation on a
record that is not open waits for its store accesses (R11, R12, R37); one on an open account is complete at once (log entry
11). -/
def Obligations.RotationChoice : Prop :=
  ∀ s : State,
    let work (c : RotationClass) : Prop := match c with
      | .signOn => s.ctl.signOnQueue ≠ []
      | .writeBack => s.oat.writeBackList ≠ []
      | .supervisor => s.ctl.waiting ≠ none
    let after (c : RotationClass) : RotationClass := match c with
      | .signOn => .writeBack
      | .writeBack => .supervisor
      | .supervisor => .signOn
    let turn (c : RotationClass) : Prop := s.ctl.inProgress = none ∧ work c ∧ ∀ d, d ≠ c → work d →
      s.ctl.rotation ≠ d ∧ (s.ctl.rotation = c ∨ after d = s.ctl.rotation)
    (s.ctl.inProgress ≠ none → exec .rotationChoice s = .next s) ∧
    ((∀ c, ¬work c) → exec .rotationChoice s = .next s) ∧
    (∀ op rest, turn .signOn → s.ctl.signOnQueue = op :: rest → (∀ e x, s.entry e = some x → x.account ≠ op.account) →
      exec .rotationChoice s = .next { s with ctl := { s.ctl with
        rotation := .writeBack, signOnQueue := rest, inProgress := some (.signOn op) } }) ∧
    (∀ op rest, turn .signOn → s.ctl.signOnQueue = op :: rest → (∃ e x, s.entry e = some x ∧ x.account = op.account) →
      ∃ t, exec .rotationChoice s = .next t ∧ t.ctl.rotation = .writeBack ∧ t.ctl.inProgress = none ∧ t.store = s.store) ∧
    (∀ e rest x, turn .writeBack → s.oat.writeBackList = e :: rest → s.entry e = some x →
      exec .rotationChoice s = .next { s with
        ctl := { s.ctl with rotation := .supervisor, inProgress := some (.writeBack e x.account x.slot x.acct) },
        oat := { entries := s.oat.entries.set e (some { x with dirty := false }), writeBackList := rest } }) ∧
    ∀ r, turn .supervisor → s.ctl.waiting = some r →
      ((∃ n, r = .readAccount n) ∨ (∃ n k, r = .readSlots n k) ∨ (∃ n b, r = .replace n b) ∨
        (∃ n a, (r = .grant n a ∨ r = .revoke n a ∨ r = .forgive n ∨ r = .readAndClear n ∨ r = .retire n) ∧
          ∀ e x, s.entry e = some x → x.account ≠ n)) →
      exec .rotationChoice s = .next { s with ctl := { s.ctl with
        rotation := .signOn, waiting := none, inProgress := some (.supervisor r) } }

/-- A lookup follows the probe chain of R7 from the home slot: it ends found at the first slot that is IN_USE with the number,
with a fault at a damaged slot, and not found at an EMPTY slot or after the whole circle; a not-found lookup remembers the
first VACATED slot it passed, or else the EMPTY one (R7, R16). -/
def Obligations.LookupFollowsProbeChain : Prop :=
  ∀ (n : Nat) (s : State), 0 < s.ctl.capacity →
    let slot (k : Nat) : Nat := (n + k) % s.ctl.capacity
    let view (k : Nat) : SlotView := slotView s.store (slot k)
    let vacated (k : Nat) : Prop := ∃ m a, view k = .vacated m a
    let passed (k : Nat) : Prop := vacated k ∨ ∃ m a, view k = .inUse m a ∧ m ≠ n
    (∀ k a, k < s.ctl.capacity → (∀ j, j < k → passed j) → view k = .inUse n a → s.lookup n = .found (slot k) a) ∧
    (∀ k, k < s.ctl.capacity → (∀ j, j < k → passed j) → view k = .damaged → s.lookup n = .damaged) ∧
    (∀ k, k < s.ctl.capacity → (∀ j, j < k → passed j) → view k = .empty →
      (∀ v, v < k → vacated v → (∀ j, j < v → ¬vacated j) → s.lookup n = .notFound (some (slot v))) ∧
      ((∀ v, v < k → ¬vacated v) → s.lookup n = .notFound (some (slot k)))) ∧
    ((∀ j, j < s.ctl.capacity → passed j) →
      (∀ v, v < s.ctl.capacity → vacated v → (∀ j, j < v → ¬vacated j) → s.lookup n = .notFound (some (slot v))) ∧
      ((∀ v, v < s.ctl.capacity → ¬vacated v) → s.lookup n = .notFound none))

/-- A VERIFY of an account that is not open, completing with a good write, as a current result, with no watch that covers the
account: the credential tests in their order, the mismatch that counts and may lock, the hold, the admission checks in their
order, and the admission (R13, R30, R87 to R91, R93 to R96). The outcome of the write is an operand of the command (log entry
8, DESIGN CHOICE); that a mismatch which changes neither the failed count nor the status writes nothing is log entry 32
(DEDUCED); that a failed attempt requests message 1 with the number 0 is log entry 39 (DESIGN CHOICE). -/
def Obligations.VerifyOfClosedAccount : Prop :=
  ∀ (l : LineNo) (b : BitVec 8) (password n : Nat) (marker : Bool) (s : State),
    s.ctl.inProgress = some (.signOn { line := l, attempt := b, kind := .verify password marker, account := n }) →
    (s.line l).phase = .signon .checking → (s.line l).attempt = b → (∀ e x, s.entry e = some x → x.account ≠ n) →
    (∀ w : WatchNo, (s.watches.get w).inUse = true → n < (s.watches.get w).low ∨ (s.watches.get w).high < n) →
    let done : State := { s with ctl := { s.ctl with inProgress := none } }
    let fails (reason : Nat) (s' : State) : Prop :=
      ∃ t, exec (.storeOperationComplete [.good]) s = .next t ∧ AttemptFailed reason s' t l
    (∀ place, s.lookup n = .notFound place → fails 1 done) ∧
    (s.lookup n = .damaged →
      fails 5 { done with ctl := { done.ctl with uncertain := true }, attn := s.attn.raiseAccount n 2 }) ∧
    ∀ slot a, s.lookup n = .found slot a →
      let policy := s.cal.active.policies.get a.cls
      let allowed := policy.allowedBands.getLsbD s.cal.view.band.val = true
      let good := a.password ≠ 0 ∧ a.status = .live ∧ a.password = password
      let count := min 15 (a.failedCount + 1)
      let locks := s.lc.params.lockoutThreshold ≠ 0 ∧ s.lc.params.lockoutThreshold ≤ count
      let raised : Account := { a with failedCount := count, status := if locks then .locked else a.status }
      (a.password = 0 ∨ a.status ≠ .live → fails 1 done) ∧
      (a.password ≠ 0 → a.status = .live → a.password ≠ password → a.failedCount = 15 → ¬locks → fails 1 done) ∧
      (a.password ≠ 0 → a.status = .live → a.password ≠ password → a.failedCount < 15 ∨ locks →
        fails 1 { done with store := storeSlot s.store slot (encodeSlot .inUse n raised),
                            attn := if locks then s.attn.raiseAccount n 1 else s.attn }) ∧
      (good → marker = true → exec (.storeOperationComplete [.good]) s =
        .next { done.modLine l (fun r => { r with phase := .signon .held, holdTimer := some s.lc.params.holdLimit }) with
                attn := { s.attn with hold := s.attn.hold.set l true } }) ∧
      (good → marker = false →
        (a.allotment = 0 → fails 4 done) ∧
        (a.allotment ≠ 0 → ¬allowed → fails 2 done) ∧
        (a.allotment ≠ 0 → allowed → (∀ e, s.entry e ≠ none) → fails 5 done) ∧
        ∀ e, a.allotment ≠ 0 → allowed → s.entry e = none → (∀ k, k < e → s.entry k ≠ none) → ∀ h : slot < 8192,
          let admitted : Account := { a with failedCount := 0, lastSignOn := some (s.cal.view.minute, l) }
          let entry : OatEntry := ⟨.opened, n, ⟨slot, h⟩, 1, admitted, false, false⟩
          let entered := (done.setEntry e (some entry)).modLine l (fun r =>
              { r with phase := .admitted .selecting, entryRef := some e, grace := policy.grace, residue := 0, portFaults := 0,
                       port := none, stageTimer := some s.lc.params.selectionLimit })
          exec (.storeOperationComplete [.good]) s =
            .next (requestMessage { entered with store := storeSlot s.store slot (encodeSlot .inUse n admitted) } l 4
              ((List.range 6).filter (fun i => a.permitted.getLsbD i)).length))

/-- A VERIFY on an open account, chosen by the rotation, as a current result, with no watch that covers the account: the
credential tests on the working copies, the mismatch that counts in the entry, sets dirty and may lock, the hold, the
admission checks on the entry in their order, and the join (R13, R31, R87 to R91, R93 to R96; the operation completes at the
choice, log entry 11, DEDUCED). That a failed attempt requests message 1 with the number 0 is log entry 39 (DESIGN CHOICE). -/
def Obligations.VerifyOfOpenAccount : Prop :=
  ∀ (l : LineNo) (b : BitVec 8) (password n : Nat) (marker : Bool) (rest : List SignOnOp) (e : EntryNo) (x : OatEntry)
    (s : State), s.ctl.inProgress = none → s.ctl.rotation = .signOn →
    s.ctl.signOnQueue = { line := l, attempt := b, kind := .verify password marker, account := n } :: rest →
    s.entry e = some x → x.account = n → (∀ k y, s.entry k = some y → y.account = n → k = e) →
    (s.line l).phase = .signon .checking → (s.line l).attempt = b → x.acct.failedCount ≤ 15 →
    (∀ w : WatchNo, (s.watches.get w).inUse = true → n < (s.watches.get w).low ∨ (s.watches.get w).high < n) →
    let a := x.acct
    let policy := s.cal.active.policies.get a.cls
    let chosen : State := { s with ctl := { s.ctl with rotation := .writeBack, signOnQueue := rest } }
    let fails (reason : Nat) (s' : State) : Prop := ∃ t, exec .rotationChoice s = .next t ∧ AttemptFailed reason s' t l
    let allowed := policy.allowedBands.getLsbD s.cal.view.band.val = true
    let good := a.password ≠ 0 ∧ a.status = .live ∧ a.password = password
    let count := min 15 (a.failedCount + 1)
    let locks := s.lc.params.lockoutThreshold ≠ 0 ∧ s.lc.params.lockoutThreshold ≤ count
    let raised : Account := { a with failedCount := count, status := if locks then .locked else a.status }
    let joined : OatEntry := { x with state := .opened, count := x.count + 1, dirty := true,
                                      acct := { a with failedCount := 0, lastSignOn := some (s.cal.view.minute, l) } }
    (a.password = 0 ∨ a.status ≠ .live → fails 1 chosen) ∧
    (a.password ≠ 0 → a.status = .live → a.password ≠ password →
      fails 1 { chosen.setEntry e (some { x with acct := raised, dirty := true }) with
                attn := if locks then s.attn.raiseAccount n 1 else s.attn }) ∧
    (good → marker = true → exec .rotationChoice s =
      .next { chosen.modLine l (fun r => { r with phase := .signon .held, holdTimer := some s.lc.params.holdLimit }) with
              attn := { s.attn with hold := s.attn.hold.set l true } }) ∧
    (good → marker = false →
      (x.retirePending = true → fails 5 chosen) ∧
      (x.retirePending = false → a.allotment = 0 → fails 4 chosen) ∧
      (x.retirePending = false → a.allotment ≠ 0 → ¬allowed → fails 2 chosen) ∧
      (x.retirePending = false → a.allotment ≠ 0 → allowed → a.sessionLimit ≤ x.count → fails 3 chosen) ∧
      (x.retirePending = false → a.allotment ≠ 0 → allowed → x.count < a.sessionLimit →
        exec .rotationChoice s = .next (requestMessage ((chosen.setEntry e (some joined)).modLine l (fun r =>
          { r with phase := .admitted .selecting, entryRef := some e, grace := policy.grace, residue := 0, portFaults := 0,
                   port := none, stageTimer := some s.lc.params.selectionLimit })) l 4
          ((List.range 6).filter (fun i => a.permitted.getLsbD i)).length)))

/-- An ADMIT on an open account, chosen by the rotation: the admission checks on the entry in their order, the join, and the
leave that undoes a stale admission: at count 0 the entry is CLOSING and queued (R31, R32, R36, R90, R91, R94, R101; the
operation completes at the choice, log entry 11, DEDUCED). That a failed attempt requests message 1 with the number 0 is log
entry 39 (DESIGN CHOICE). -/
def Obligations.AdmitOfOpenAccount : Prop :=
  ∀ (l : LineNo) (b : BitVec 8) (n : Nat) (rest : List SignOnOp) (e : EntryNo) (x : OatEntry) (s : State),
    s.ctl.inProgress = none → s.ctl.rotation = .signOn →
    s.ctl.signOnQueue = { line := l, attempt := b, kind := .admitOp, account := n } :: rest →
    s.entry e = some x → x.account = n → (∀ k y, s.entry k = some y → y.account = n → k = e) →
    let policy := s.cal.active.policies.get x.acct.cls
    let chosen : State := { s with ctl := { s.ctl with rotation := .writeBack, signOnQueue := rest } }
    let joined : OatEntry := { x with state := .opened, count := x.count + 1, dirty := true,
                                      acct := { x.acct with failedCount := 0, lastSignOn := some (s.cal.view.minute, l) } }
    let current := (s.line l).phase = .signon .admitting ∧ (s.line l).attempt = b
    let fails (reason : Nat) : Prop := ∃ t, exec .rotationChoice s = .next t ∧ AttemptFailed reason chosen t l
    let allowed := policy.allowedBands.getLsbD s.cal.view.band.val = true
    (current →
      (x.retirePending = true → fails 5) ∧
      (x.retirePending = false → x.acct.allotment = 0 → fails 4) ∧
      (x.retirePending = false → x.acct.allotment ≠ 0 → ¬allowed → fails 2) ∧
      (x.retirePending = false → x.acct.allotment ≠ 0 → allowed → x.acct.sessionLimit ≤ x.count → fails 3) ∧
      (x.retirePending = false → x.acct.allotment ≠ 0 → allowed → x.count < x.acct.sessionLimit →
        exec .rotationChoice s = .next (requestMessage ((chosen.setEntry e (some joined)).modLine l (fun r =>
          { r with phase := .admitted .selecting, entryRef := some e, grace := policy.grace, residue := 0, portFaults := 0,
                   port := none, stageTimer := some s.lc.params.selectionLimit })) l 4
          ((List.range 6).filter (fun i => x.acct.permitted.getLsbD i)).length))) ∧
    (¬current → x.retirePending = false → x.acct.allotment ≠ 0 → allowed → 1 ≤ x.count → x.count < x.acct.sessionLimit →
      exec .rotationChoice s = .next (chosen.setEntry e (some { joined with count := x.count }))) ∧
    (¬current → x.retirePending = false → x.acct.allotment ≠ 0 → allowed → x.count = 0 → 1 ≤ x.acct.sessionLimit →
      exec .rotationChoice s = .next { chosen with oat :=
        { entries := s.oat.entries.set e (some { joined with state := .closing, count := 0 })
          writeBackList := if e ∈ s.oat.writeBackList then s.oat.writeBackList else s.oat.writeBackList ++ [e] } })

/-- An ADMIT of an account that is not open, completing: with no account or a damaged slot the attempt fails with reason 5;
the admission checks come in their order; the admission writes the slot and opens an entry; a write that does not match fails
the attempt with reason 5, sets the counts-uncertain flag and raises the item; and an admission whose result is stale is
undone, so that the entry is CLOSING and queued (R4, R10, R13, R30, R32, R90 to R94, R101). The outcome of the write is an
operand of the command (log entry 8, DESIGN CHOICE), and that a failed attempt requests message 1 with the number 0 is log
entry 39 (DESIGN CHOICE). -/
def Obligations.AdmitOfClosedAccount : Prop :=
  ∀ (l : LineNo) (b : BitVec 8) (n : Nat) (s : State),
    s.ctl.inProgress = some (.signOn { line := l, attempt := b, kind := .admitOp, account := n }) →
    (∀ e x, s.entry e = some x → x.account ≠ n) →
    let done : State := { s with ctl := { s.ctl with inProgress := none } }
    let faulted : State := { done with ctl := { done.ctl with uncertain := true }, attn := s.attn.raiseAccount n 2 }
    let current := (s.line l).phase = .signon .admitting ∧ (s.line l).attempt = b
    let fails (reason : Nat) (writes : List WriteOutcome) (s' : State) : Prop :=
      ∃ t, exec (.storeOperationComplete writes) s = .next t ∧ AttemptFailed reason s' t l
    (current → (∃ place, s.lookup n = .notFound place) → fails 5 [] done) ∧
    (current → s.lookup n = .damaged → fails 5 [] faulted) ∧
    ∀ slot a, s.lookup n = .found slot a →
      let policy := s.cal.active.policies.get a.cls
      let allowed := policy.allowedBands.getLsbD s.cal.view.band.val = true
      (current → a.allotment = 0 → fails 4 [] done) ∧
      (current → a.allotment ≠ 0 → ¬allowed → fails 2 [] done) ∧
      (current → a.allotment ≠ 0 → allowed → (∀ e, s.entry e ≠ none) → fails 5 [] done) ∧
      ∀ e, a.allotment ≠ 0 → allowed → s.entry e = none → (∀ k, k < e → s.entry k ≠ none) → ∀ h : slot < 8192,
        let admitted : Account := { a with failedCount := 0, lastSignOn := some (s.cal.view.minute, l) }
        let image := encodeSlot .inUse n admitted
        let entry : OatEntry := ⟨.opened, n, ⟨slot, h⟩, 1, admitted, false, false⟩
        (current → exec (.storeOperationComplete [.good]) s =
          .next (requestMessage { (done.setEntry e (some entry)).modLine l (fun r =>
              { r with phase := .admitted .selecting, entryRef := some e, grace := policy.grace, residue := 0, portFaults := 0,
                       port := none, stageTimer := some s.lc.params.selectionLimit }) with store := storeSlot s.store slot image }
            l 4 ((List.range 6).filter (fun i => a.permitted.getLsbD i)).length)) ∧
        (∀ bytes : List Byte, current → bytes.length = 40 →
          fails 5 [.left bytes] { faulted with store := storeSlot s.store slot bytes }) ∧
        (¬current → e ∉ s.oat.writeBackList → exec (.storeOperationComplete [.good]) s =
          .next { done with
            store := storeSlot s.store slot image
            oat := { entries := s.oat.entries.set e (some { entry with state := .closing, count := 0 })
                     writeBackList := s.oat.writeBackList ++ [e] } })

/-- The completion of a write-back: the slot's forty bytes are the captured IN_USE image, and then by the entry's session
count, dirty mark and retire pending mark it stays, is queued again, is freed, or is freed with its slot written VACATED and
the counts moved. A mismatch raises WRITEBACK_FAILED, sets dirty and the counts-uncertain flag, and an entry with no session
that is not queued becomes STUCK; what the read-back finds is an operand of the command (log entry 8) (R4, R14, R38, R39). -/
def Obligations.WriteBackCompletes : Prop :=
  ∀ (e : EntryNo) (n : Nat) (slot : SlotNo) (a : Account) (x : OatEntry) (s : State),
    s.ctl.inProgress = some (.writeBack e n slot a) → s.entry e = some x → storeWf s.store = true →
    let done : State := { s with ctl := { s.ctl with inProgress := none } }
    let holds (t : State) (image : List Byte) : Prop := ∀ address,
      storeRead t.store address = if slot.val * 40 ≤ address ∧ address < slot.val * 40 + 40
        then image.getD (address - slot.val * 40) 0 else storeRead s.store address
    let completes (writes : List WriteOutcome) (t : State) : Prop := exec (.storeOperationComplete writes) s = .next t
    let freed : OatCtl := { entries := s.oat.entries.set e none,
                            writeBackList := s.oat.writeBackList.filter (fun k => decide (k ≠ e)) }
    (1 ≤ x.count → ∃ t, completes [.good] t ∧ t = { done with store := t.store } ∧ holds t (encodeSlot .inUse n a)) ∧
    (x.count = 0 → x.dirty = true → e ∉ s.oat.writeBackList → x.state = .closing → ∃ t, completes [.good] t ∧
      t = { done with store := t.store, oat := { s.oat with writeBackList := s.oat.writeBackList ++ [e] } } ∧
      holds t (encodeSlot .inUse n a)) ∧
    (x.count = 0 → x.dirty = false → x.retirePending = false → ∃ t, completes [.good] t ∧
      t = { done with store := t.store, oat := freed } ∧ holds t (encodeSlot .inUse n a)) ∧
    (x.count = 0 → x.dirty = false → x.retirePending = true → 0 < s.ctl.inUse → s.ctl.vacated < s.ctl.capacity →
      ∃ t, completes [.good, .good] t ∧
        t = { done with store := t.store, oat := freed,
                        ctl := { done.ctl with inUse := s.ctl.inUse - 1, vacated := s.ctl.vacated + 1 } } ∧
        holds t (encodeSlot .vacated n a)) ∧
    ∀ bytes : List Byte, bytes.length = 40 → ∃ t, completes [.left bytes] t ∧ holds t bytes ∧
      t = { done with store := t.store, ctl := { done.ctl with uncertain := true }, attn := s.attn.raiseAccount n 4,
                      oat := { s.oat with entries := t.oat.entries } } ∧
      (∀ k, k ≠ e → t.entry k = s.entry k) ∧
      t.entry e = some (if 1 ≤ x.count then { x with dirty := true } else
        { x with dirty := true, retirePending := false,
                 state := if e ∈ s.oat.writeBackList then .closing else .stuck })

/-- The requests on an open account, chosen by the rotation: they change the entry's working copies, mark it dirty, and
answer; the Meter acts where the credit state changes. CHANGE_ACCOUNT is stated for every subset of its fields, each at every
value the account can hold. READ_AND_CLEAR_TOTALS answers with the values it clears, RETIRE sets the mark, and DISCARD_OPEN frees
a STUCK entry alone (R17 to R20, R23, R25, R43 to R45; the operation completes at the choice, log entry 11, DEDUCED). -/
def Obligations.RequestsOnOpenAccount : Prop :=
  ∀ (n : Nat) (e : EntryNo) (x : OatEntry) (s : State), s.sup.busy = false → s.ctl.attachment ≠ .noStore →
    s.ctl.inProgress = none → s.ctl.rotation = .supervisor → 1 ≤ n → n ≤ 9999999 →
    s.entry e = some x → x.account = n → x.acct.allotment ≤ 16777215 → (∀ k y, s.entry k = some y → y.account = n → k = e) →
    let turned : State := { s with ctl := { s.ctl with rotation := .signOn, waiting := none } }
    let runs (i : Instr) (t : State) : Prop := execAll [i, .rotationChoice] s = .next t
    let answered (s' : State) (clamped : Bool) (result : List Byte) : State :=
      { s' with sup := s.sup.answered (okCode clamped) clamped result }
    let changed (a : Account) : State :=
      meterAction noSecond (turned.setEntry e (some { x with acct := a, dirty := true })) e (creditState x.acct)
    let a := x.acct
    let balance (b : Account) : List Byte := beBytes 3 b.allotment ++ beBytes 2 b.overdraft
    (runs (.grant n 0) (answered turned false (balance a))) ∧
    (∀ amount, amount ≠ 0 →
      let after : Account := { a with overdraft := a.overdraft - amount,
                                      allotment := min 16777215 (a.allotment + (amount - a.overdraft)) }
      runs (.grant n amount)
        (answered (changed after) (decide (16777215 < a.allotment + (amount - a.overdraft))) (balance after))) ∧
    (∀ amount, let after : Account := { a with allotment := a.allotment - amount }
      runs (.revoke n amount) (answered (changed after) (decide (a.allotment < amount)) (balance after))) ∧
    (let after : Account := { a with overdraft := 0 };
      runs (.forgive n) (answered (changed after) false (balance after))) ∧
    (∀ chars : List Byte, PasswordFits chars →
      runs (.setPassword n chars) (answered (changed { a with password := passwordCode chars }) false [])) ∧
    (∀ f : ChangeFields, runs (.changeAccount n f.frame) (answered (changed (f.applied a)) f.clamps [])) ∧
    (runs (.readAndClearTotals n) (answered
      (turned.setEntry e (some { x with dirty := true, acct := { a with bandTotals := Vector.replicate 4 0, waitTotal := 0,
                                                                        connectSeconds := 0 } })) false
      ((a.bandTotals.toList.flatMap (beBytes 3)) ++ beBytes 3 a.waitTotal ++ beBytes 3 a.connectSeconds))) ∧
    (x.retirePending = true → runs (.retire n) (answered turned false [1])) ∧
    (x.retirePending = false → x.state ≠ .stuck →
      runs (.retire n) (answered (turned.setEntry e (some { x with retirePending := true })) false [1])) ∧
    (x.retirePending = false → x.state = .stuck → e ∉ s.oat.writeBackList →
      let queued := turned.setEntry e (some { x with retirePending := true, state := .closing })
      runs (.retire n) (answered
        { queued with oat := { queued.oat with writeBackList := s.oat.writeBackList ++ [e] } } false [1])) ∧
    (x.state ≠ .stuck → runs (.discardOpen n) { turned with sup := s.sup.answered 10 false [] }) ∧
    (x.state = .stuck → e ∉ s.oat.writeBackList →
      runs (.discardOpen n) (answered (turned.setEntry e none) false []))

/-- READ_ACCOUNT of an open account returns its slot with every copied field replaced by the entry's copy and the check byte
computed anew, the open flag and the session count, and READ_SLOTS merges in the same way each slot it returns that an entry
names and that holds the entry's account; a damaged slot comes back as read from READ_SLOTS and completes READ_ACCOUNT with
STORE_FAULT (R15, R21, R22, R46, R207). A count of 0 reads 8 slots without a clamp (log entry 17, DEDUCED). -/
def Obligations.OpenAccountRead : Prop :=
  ∀ s : State, s.sup.busy = false → s.ctl.attachment ≠ .noStore → s.ctl.inProgress = none → s.ctl.rotation = .supervisor →
    (∀ e k x y, s.entry e = some x → s.entry k = some y → x.account = y.account → e = k) →
    let turned : State := { s with ctl := { s.ctl with rotation := .signOn, waiting := none } }
    let runs (i : Instr) (t : State) : Prop := execAll [i, .rotationChoice, .storeOperationComplete []] s = .next t
    let answers (s' : State) (code : Byte) (clamped : Bool) (result : List Byte) : State :=
      { s' with sup := s.sup.answered code clamped result }
    (∀ e x, s.entry e = some x → 1 ≤ x.account → x.account ≤ 9999999 →
      let returns (image : List Byte) : Prop := runs (.readAccount x.account)
        (answers turned 0 false (beBytes 2 x.slot.val ++ [1, BitVec.ofNat 8 x.count] ++ image))
      (∀ m a, slotView s.store x.slot.val = .inUse m a → returns (encodeSlot .inUse m x.acct)) ∧
      (∀ m a, slotView s.store x.slot.val = .vacated m a → returns (encodeSlot .vacated m x.acct)) ∧
      (slotView s.store x.slot.val = .damaged → runs (.readAccount x.account) (answers
        { turned with ctl := { turned.ctl with uncertain := true }, attn := s.attn.raiseAccount x.account 2 } 8 false []))) ∧
    ∀ first count, first < s.ctl.capacity →
      let k := min (if count = 0 then 8 else min count 8) (s.ctl.capacity - first)
      ∃ record : Nat → Byte × List Byte, runs (.readSlots first count)
          (answers turned (okCode (decide (8 < count))) (decide (8 < count))
            ((List.range k).flatMap (fun j => beBytes 2 (first + j) ++ (record (first + j)).1 :: (record (first + j)).2))) ∧
        ∀ j,
          let merged (e : EntryNo) (x : OatEntry) : Prop :=
            s.entry e = some x ∧ x.slot.val = j ∧ ∃ a, slotView s.store j = .inUse x.account a
          (slotView s.store j = .damaged → record j = (1, slotBytes s.store j)) ∧
          (∀ e x, merged e x → record j = (2, encodeSlot .inUse x.account x.acct)) ∧
          (slotView s.store j ≠ .damaged → (∀ e x, ¬merged e x) → record j = (0, slotBytes s.store j))

/-- The requests on an account that is not open, from acceptance to completion: found in the store, the slot is written with
the changed record and read back; a write that does not match completes with STORE_FAULT, sets the counts-uncertain flag and
raises the item; an account not found completes with NOT_FOUND, and a lookup that ends at a damaged slot with STORE_FAULT,
whatever the request and its operands: a GRANT of 0 too, which writes nothing where the account is found. CHANGE_ACCOUNT is stated
for every subset of its fields and SET_PASSWORD for every password, the empty one too. What the read-back finds is an operand of
the command (log entry 8, DESIGN CHOICE), and the clamped flag beside NOT_FOUND and STORE_FAULT is log entry 18 (DEDUCED) (R4,
R15, R17 to R21, R23, R25, R43). -/
def Obligations.RequestsOnClosedAccount : Prop :=
  ∀ (n : Nat) (o : WriteOutcome) (s : State), s.sup.busy = false → s.ctl.attachment ≠ .noStore →
    s.ctl.inProgress = none → s.ctl.rotation = .supervisor → 1 ≤ n → n ≤ 9999999 →
    (∀ e x, s.entry e = some x → x.account ≠ n) →
    let turned : State := { s with ctl := { s.ctl with rotation := .signOn, waiting := none } }
    let runs (i : Instr) (t : State) : Prop := execAll [i, .rotationChoice, .storeOperationComplete [o]] s = .next t
    let faulted : State := { turned with ctl := { turned.ctl with uncertain := true }, attn := s.attn.raiseAccount n 2 }
    let answers (s' : State) (code : Byte) (clamped : Bool) (result : List Byte) : State :=
      { s' with sup := s.sup.answered code clamped result }
    (∀ i clamped, AccountRequest n i clamped →
      (∀ place, s.lookup n = .notFound place → runs i (answers turned 5 clamped [])) ∧
      (s.lookup n = .damaged → runs i (answers faulted 8 clamped []))) ∧
    (runs (.discardOpen n) (answers turned 5 false [])) ∧
    ∀ slot a, s.lookup n = .found slot a →
      let after (state : SlotState) (b : Account) (s' : State) : State :=
        { s' with store := slotWrite s.store o slot (encodeSlot state n b) }
      let writes (i : Instr) (b : Account) (clamped : Bool) (result : List Byte) : Prop :=
        (o = .good → runs i (answers (after .inUse b turned) (okCode clamped) clamped result)) ∧
        (o ≠ .good → runs i (answers (after .inUse b faulted) 8 clamped []))
      let balance (b : Account) : List Byte := beBytes 3 b.allotment ++ beBytes 2 b.overdraft
      let totals := (a.bandTotals.toList.flatMap (beBytes 3)) ++ beBytes 3 a.waitTotal ++ beBytes 3 a.connectSeconds
      let cleared : Account := { a with bandTotals := Vector.replicate 4 0, waitTotal := 0, connectSeconds := 0 }
      (runs (.grant n 0) (answers turned 0 false (balance a))) ∧
      (∀ amount, amount ≠ 0 →
        let b : Account := { a with overdraft := a.overdraft - amount,
                                    allotment := min 16777215 (a.allotment + (amount - a.overdraft)) }
        writes (.grant n amount) b (decide (16777215 < a.allotment + (amount - a.overdraft))) (balance b)) ∧
      (∀ amount, let b : Account := { a with allotment := a.allotment - amount }
        writes (.revoke n amount) b (decide (a.allotment < amount)) (balance b)) ∧
      (let b : Account := { a with overdraft := 0 };
        writes (.forgive n) b false (balance b)) ∧
      (∀ chars : List Byte, PasswordFits chars →
        writes (.setPassword n chars) { a with password := passwordCode chars } false []) ∧
      (∀ f : ChangeFields, writes (.changeAccount n f.frame) (f.applied a) f.clamps []) ∧
      (runs (.readAccount n) (answers turned 0 false (beBytes 2 slot ++ [0, 0] ++ slotBytes s.store slot))) ∧
      (o = .good → runs (.readAndClearTotals n) (answers (after .inUse cleared turned) 0 false totals)) ∧
      (o ≠ .good → runs (.readAndClearTotals n) (answers (after .inUse cleared faulted) 8 false totals)) ∧
      (o = .good → 0 < s.ctl.inUse → s.ctl.vacated < s.ctl.capacity →
        let done := after .vacated a turned
        runs (.retire n) (answers { done with ctl := { done.ctl with inUse := s.ctl.inUse - 1,
                                                                     vacated := s.ctl.vacated + 1 } } 0 false [0])) ∧
      (o ≠ .good → runs (.retire n) (answers (after .vacated a faulted) 8 false []))

/-- ADD_ACCOUNT, REPLACE_SLOT, READ_SLOTS, FLUSH and ATTACH_STORE from acceptance to completion. ADD_ACCOUNT, whatever other
accounts are open and with the default group present or absent: STORE_FULL at the fill limit and where a full circle finds no
place; EXISTS for an account that is open or found; STORE_FAULT where the lookup ends at a damaged slot; and otherwise the record
placed with the fields given and the counts moved, or, on a mismatch, the counts-uncertain flag and the item. Its lookup is that of
a store in which every sound slot that an entry names holds another account in use. Of the others: the slots returned as read; the dirty and STUCK entries queued; the store attached, cleared
or scanned. REPLACE_SLOT for each of the three images: WRONG_STATE where the target or the image's account is open or an entry
names the slot; the duplicate check of an IN_USE image, which passes over the target as though VACATED, with EXISTS and
STORE_FAULT; and the write, whatever the target held, with a check byte of the controller's own, zeros for an EMPTY image, the
counts of both views, or, on a mismatch, the counts-uncertain flag and an item for an IN_USE image alone (R2, R4, R16, R22,
R24, R41). FLUSH, STORE_FULL, EXISTS for an open account and an ATTACH_STORE with WRONG_STATE complete at the choice (log
entry 11, DEDUCED); the clamped flag beside a code of refusal is log entry 18 (DEDUCED); what a write left is an operand of the
command (log entry 8, DESIGN CHOICE); a count of 0 in READ_SLOTS is log entry 17 (DEDUCED). -/
def Obligations.StoreWideRequests : Prop :=
  ∀ s : State, s.sup.busy = false → s.ctl.inProgress = none → s.ctl.rotation = .supervisor → storeWf s.store = true →
    let turned : State := { s with ctl := { s.ctl with rotation := .signOn, waiting := none } }
    let runs (i : Instr) (t : State) : Prop := execAll [i, .rotationChoice, .storeOperationComplete [.good]] s = .next t
    let answers (s' : State) (code : Byte) (clamped : Bool) (result : List Byte) : State :=
      { s' with sup := s.sup.answered code clamped result }
    (∀ (p : NewAccount) (cls : ClassNo) (g : Option GroupNo) (o : WriteOutcome), s.ctl.attachment ≠ .noStore →
      1 ≤ p.account → p.account ≤ 9999999 → p.cls = cls.val → p.permitted ≤ 63 → p.defaultGroup = groupByte g →
      let adds (t : State) : Prop := execAll [.addAccount p, .rotationChoice, .storeOperationComplete [o]] s = .next t
      let limit := nearest 1 4 p.sessionLimit
      let clamped := decide (limit ≠ p.sessionLimit)
      let full := s.ctl.capacity - s.ctl.capacity / 8 ≤ s.ctl.inUse
      let held := ∃ e x, s.entry e = some x ∧ x.account = p.account
      let named (j : Nat) := ∃ e x, s.entry e = some x ∧ x.slot.val = j
      let faulted : State :=
        { turned with ctl := { turned.ctl with uncertain := true }, attn := s.attn.raiseAccount p.account 2 }
      let a : Account := { status := .live, cls := cls, sessionLimit := limit, permitted := BitVec.ofNat 6 p.permitted,
                           defaultGroup := g, password := 0, failedCount := 0, allotment := p.allotment, overdraft := 0,
                           lowThreshold := p.lowThreshold, bandTotals := Vector.replicate 4 0, waitTotal := 0,
                           connectSeconds := 0, lastSignOn := none }
      (full → adds (answers turned 7 clamped [])) ∧
      (¬full → held → adds (answers turned 6 clamped [])) ∧
      ∀ taken : State, taken.ctl = s.ctl →
        (∀ j, (named j → slotView s.store j ≠ .damaged → ∃ m b, m ≠ p.account ∧ slotView taken.store j = .inUse m b) ∧
          (¬named j ∨ slotView s.store j = .damaged → slotView taken.store j = slotView s.store j)) →
        ¬full → ¬held →
        (∀ slot b, taken.lookup p.account = .found slot b → adds (answers turned 6 clamped [])) ∧
        (taken.lookup p.account = .damaged → adds (answers faulted 8 clamped [])) ∧
        (taken.lookup p.account = .notFound none → adds (answers turned 7 clamped [])) ∧
        ∀ slot, taken.lookup p.account = .notFound (some slot) →
          let written (vacated : Nat) : State := { turned with
            store := storeSlot s.store slot (encodeSlot .inUse p.account a),
            ctl := { turned.ctl with inUse := s.ctl.inUse + 1, vacated := vacated } }
          (o = .good → slotView s.store slot = .empty →
            adds (answers (written s.ctl.vacated) (okCode clamped) clamped (beBytes 2 slot))) ∧
          (∀ m b, o = .good → slotView s.store slot = .vacated m b → 0 < s.ctl.vacated →
            adds (answers (written (s.ctl.vacated - 1)) (okCode clamped) clamped (beBytes 2 slot))) ∧
          (o ≠ .good → adds (answers { faulted with
            store := slotWrite s.store o slot (encodeSlot .inUse p.account a) } 8 clamped []))) ∧
    (∀ (o : WriteOutcome) slot image, s.ctl.attachment ≠ .noStore → slot < s.ctl.capacity → image.length = 40 →
      let before := slotView s.store slot
      let replaces (t : State) : Prop := execAll [.replaceSlot slot image, .rotationChoice, .storeOperationComplete [o]] s = .next t
      let forbidden := ∃ e x, s.entry e = some x ∧ (x.slot.val = slot ∨ ∃ b, before = .inUse x.account b)
      let uncertain (s' : State) : State := { s' with ctl := { s'.ctl with uncertain := true } }
      let writes (bytes : List Byte) (inUse vacated : Nat) (items : Attention) : Prop :=
        let fallen := if before.isInUse then 1 else 0
        let emptied := if before.isVacated then 1 else 0
        (o = .good → fallen ≤ s.ctl.inUse → emptied ≤ s.ctl.vacated → s.ctl.inUse - fallen + inUse ≤ s.ctl.capacity →
          s.ctl.vacated - emptied + vacated ≤ s.ctl.capacity → ∃ t, replaces t ∧
          t = answers { turned with store := t.store, ctl :=
            { turned.ctl with inUse := s.ctl.inUse - fallen + inUse, vacated := s.ctl.vacated - emptied + vacated } } 0 false [] ∧
          ∀ address, storeRead t.store address = if slot * 40 ≤ address ∧ address < slot * 40 + 40
            then bytes.getD (address - slot * 40) 0 else storeRead s.store address) ∧
        (o ≠ .good → replaces (answers { uncertain turned with
          store := slotWrite s.store o slot bytes, attn := items } 8 false []))
      (imageView image = .empty → (forbidden → replaces (answers turned 10 false [])) ∧
        (¬forbidden → writes (List.replicate 40 0) 0 0 s.attn)) ∧
      (∀ n a, imageView image = .vacated n a → a.allotment = 0 ∨ a.overdraft = 0 →
        (forbidden → replaces (answers turned 10 false [])) ∧
        (¬forbidden → writes (encodeSlot .vacated n a) 0 1 s.attn)) ∧
      ∀ n a, imageView image = .inUse n a → a.allotment = 0 ∨ a.overdraft = 0 →
        let held := ∃ e x, s.entry e = some x ∧ x.account = n
        let passing : State := { s with store := storeSlot s.store slot (encodeSlot .vacated n a) }
        (forbidden ∨ held → replaces (answers turned 10 false [])) ∧
        (¬forbidden → ¬held → (∃ k b, passing.lookup n = .found k b) → replaces (answers turned 6 false [])) ∧
        (¬forbidden → ¬held → passing.lookup n = .damaged →
          replaces (answers { uncertain turned with attn := s.attn.raiseAccount n 2 } 8 false [])) ∧
        (¬forbidden → ¬held → (∃ place, passing.lookup n = .notFound place) →
          writes (encodeSlot .inUse n a) 1 0 (s.attn.raiseAccount n 2))) ∧
    (∀ first count, s.ctl.attachment ≠ .noStore → first < s.ctl.capacity → (∀ e x, s.entry e ≠ some x) →
      let k := min (if count = 0 then 8 else min count 8) (s.ctl.capacity - first)
      let flag (j : Nat) : Byte := if slotView s.store j = .damaged then 1 else 0
      let clamped := decide (8 < count)
      runs (.readSlots first count) (answers turned (okCode clamped) clamped ((List.range k).flatMap (fun j =>
        beBytes 2 (first + j) ++ [flag (first + j)] ++ slotBytes s.store (first + j))))) ∧
    (s.ctl.attachment ≠ .noStore → ∃ added : List EntryNo, ∃ t, execAll [.flush, .rotationChoice] s = .next t ∧
      t = answers { turned with oat := t.oat } 0 false [BitVec.ofNat 8 added.length] ∧
      t.oat.writeBackList = s.oat.writeBackList ++ added ∧ added.Pairwise (· < ·) ∧
      (∀ e, e ∈ added ↔ e ∉ s.oat.writeBackList ∧ ∃ x, s.entry e = some x ∧ (x.dirty = true ∨ x.state = .stuck)) ∧
      ∀ e, t.entry e = (s.entry e).map (fun x =>
        if e ∈ added ∧ x.state = .stuck then { x with state := .closing } else x)) ∧
    (∀ size clear, clear ≤ 1 → (∃ e x, s.entry e = some x) → ∃ t, execAll [.attachStore size clear, .rotationChoice] s = .next t ∧
      t = answers turned 10 (decide (3 < size)) []) ∧
    ∀ size, (∀ e x, s.entry e ≠ some x) →
      let capacity := 1024 * 2 ^ min size 3
      let clamped := decide (3 < size)
      let attached (store : List Host.Cell) (inUse vacated : Nat) : State :=
        { turned with store := store, ctl := { turned.ctl with attachment := .attached, capacity := capacity, inUse := inUse,
                                                               vacated := vacated, uncertain := false } }
      let count (test : SlotView → Bool) : Nat := ((List.range capacity).filter (fun i => test (slotView s.store i))).length
      let inUse := count SlotView.isInUse
      let vacated := count SlotView.isVacated
      let damaged := count (fun v => decide (v = .damaged))
      runs (.attachStore size 0) (answers (attached s.store inUse vacated) (okCode clamped) clamped
        (beBytes 2 capacity ++ beBytes 2 inUse ++ beBytes 2 vacated ++ beBytes 2 damaged)) ∧
      ∃ t, execAll [.attachStore size 1, .rotationChoice, .storeOperationComplete []] s = .next t ∧
        t = answers (attached t.store 0 0) (okCode clamped) clamped (beBytes 2 capacity ++ [0, 0, 0, 0, 0, 0]) ∧
        ∀ address, storeRead t.store address = if address < capacity * 40 then 0 else storeRead s.store address

/-- RESTART, from its frame to its response. It sets accepting calls off; ends every call with a closing summary of cause RESTART,
the closing credit posted; sends HANG_UP to every port that named a line and RELEASE to every line that had a call; leaves every
line IDLE with its out-of-service mark clear, but for the DOWN lines, which keep their records; keeps the other summaries, the
carrier, overrun and echo suppressed flags, and the settings of ports and groups; gives up every queue place and releases every
port; withdraws every sign-on operation; writes back and frees every entry, moving the counts by the retired ones; and clears the
attention set. It completes with OK, or with STORE_FAULT where a write did not match, and returns the calls ended, the entries
written and the entries lost (R26, R36, R47, R77, R168, R191, R196, R197, R206). The outcomes of the writes are operands of the
command, in the order of the write-backs (log entry 8, DESIGN CHOICE); that a failed one sets the counts-uncertain flag is R47
against R26 (log entry 38, DEDUCED). -/
def Obligations.RestartClears : Prop :=
  ∀ (writes : List WriteOutcome) (s : State), LinksLawful s → SessionsLawful s → SignOnQueueLawful s → s.sup.busy = false →
    s.ctl.inProgress = none → s.ctl.rotation = .supervisor → storeWf s.store = true → WriteBackListOnce s →
    ∃ (t : State) (order : List EntryNo), execAll [.restart, .rotationChoice, .storeOperationComplete writes] s = .next t ∧
      order.Nodup ∧ (∀ e, e ∈ order ↔ s.entry e ≠ none) ∧
      s.oat.writeBackList.filter (fun e => (s.entry e).isSome) <+: order ∧
      let retires := order.map (fun e => (s.entry e).any (fun x => x.retirePending))
      let matched := restartMatches retires writes
      let lost := matched.count false
      let vacated := (retires.zip matched).count (true, true)
      let ended := (allLines.filter (fun l => (s.line l).phase.inCall)).length
      t.sup = s.sup.answered (if lost = 0 then 0 else 8) false
        [BitVec.ofNat 8 ended, BitVec.ofNat 8 (matched.count true), BitVec.ofNat 8 lost] ∧
      t.ctl = { s.ctl with rotation := .signOn, waiting := none, signOnQueue := [],
                           uncertain := s.ctl.uncertain || decide (lost ≠ 0), inUse := t.ctl.inUse, vacated := t.ctl.vacated } ∧
      (vacated ≤ s.ctl.inUse → s.ctl.vacated + vacated ≤ s.ctl.capacity →
        t.ctl.inUse = s.ctl.inUse - vacated ∧ t.ctl.vacated = s.ctl.vacated + vacated) ∧
      (∀ address, (∀ e x, s.entry e = some x → ¬(x.slot.val * 40 ≤ address ∧ address < x.slot.val * 40 + 40)) →
        storeRead t.store address = storeRead s.store address) ∧
      (∀ e, t.entry e = none) ∧ t.oat.writeBackList = [] ∧ t.attn.asserted = false ∧ t.attn.overflow = false ∧
      t.lc.params = { s.lc.params with acceptingCalls := false } ∧ t.lc.messages = s.lc.messages ∧ t.cal = s.cal ∧
      t.pending = s.pending ∧
      (∀ l, let was := s.line l
        let now := t.line l
        let credit := if 30000 ≤ was.residue ∧ was.lastCategory ≠ none ∧ was.charged < 16777215 then 1 else 0
        let admitted := was.phase.isAdmitted
        (was.phase = .down → now = was) ∧
        (was.phase ≠ .down → now.phase = .idle ∧ now.outOfService = false ∧ now.stageTimer = none ∧ now.current = none ∧
          now.pending = none ∧ now.carrier = was.carrier ∧ now.overrun = was.overrun ∧
          now.echoSuppressed = was.echoSuppressed ∧ now.attempt = was.attempt) ∧
        (was.phase.inCall = true → now.port = none ∧ now.entryRef = none ∧ now.summary = some
          { account := was.account, cause := .restart,
            admittedSeconds := if admitted then was.admittedSeconds else 0,
            connectedSeconds := if admitted then was.connectedSeconds else 0,
            credits := if admitted then was.charged + credit else 0, minute := s.cal.view.minute }) ∧
        (was.phase.inCall = false → now.summary = was.summary) ∧
        (was.phase.inCall = true ∨ was.phase = .closing → LineCmd.release l ∈ t.lc.bus)) ∧
      (∀ p, let was := s.port p
        t.port p = if was.line = none then was else
          { was with state := if was.hostReady then .free else .notReady, line := none, callTimer := none }) ∧
      (∀ p, (s.port p).line ≠ none → PortCmd.hangUp p ∈ t.pa.bus) ∧
      ∀ g, t.group g = { s.group g with queue := [] }

/-! ## The Meter and the second event -/

/-- A second of a session is counted and, with its grace used up, charged: the residue takes the rate of the line's class and
category modulo 60,000, and each whole credit lowers the allotment, or raises the overdraft up to 65,535, and counts in the
total of its category and in the line's charge, each up to its ceiling (R124 to R129). -/
def Obligations.SecondCharged : Prop :=
  ∀ (l : LineNo) (e : EntryNo) (x : OatEntry) (st : AdmittedStage) (v : View) (s : State), s.entry e = some x →
    (s.line l).entryRef = some e → x.acct.overdraft ≤ 65535 → (∀ b : Band, x.acct.bandTotals.get b ≤ 16777215) →
    x.acct.waitTotal ≤ 16777215 → x.acct.connectSeconds ≤ 16777215 → (s.line l).charged ≤ 16777215 →
    (s.line l).admittedSeconds ≤ 16777215 → (s.line l).connectedSeconds ≤ 16777215 →
    let t := chargeSecond s v l e st
    let linked := st = .connected ∨ st = .escaped
    let r := s.line l
    let waits := st = .selecting ∨ st = .waiting ∨ st = .calling
    let rate := if linked then v.bandRates.get x.acct.cls else v.waitRates.get x.acct.cls
    let sum := r.residue + rate
    let credits := if 0 < r.grace ∨ st = .moving then 0 else sum / 60000
    let a := x.acct
    OnlyLine l { s with oat := t.oat } t ∧ t.oat.writeBackList = s.oat.writeBackList ∧ (∀ k, k ≠ e → t.entry k = s.entry k) ∧
    t.line l =
      { r with
        admittedSeconds := min 16777215 (r.admittedSeconds + 1)
        connectedSeconds := if linked then min 16777215 (r.connectedSeconds + 1) else r.connectedSeconds
        grace := r.grace - 1
        residue := if 0 < r.grace ∨ st = .moving then r.residue else sum % 60000
        lastCategory := if 0 < r.grace ∨ st = .moving then r.lastCategory
          else if linked then some (.band v.band) else some .wait
        charged := min 16777215 (r.charged + credits) } ∧
    t.entry e = some
      { x with
        dirty := x.dirty || decide linked || decide (0 < credits)
        acct :=
          { a with
            allotment := a.allotment - credits
            overdraft := min 65535 (a.overdraft + (credits - a.allotment))
            waitTotal := if waits then min 16777215 (a.waitTotal + credits) else a.waitTotal
            bandTotals := if linked then
              a.bandTotals.set v.band (min 16777215 (a.bandTotals.get v.band + credits)) else a.bandTotals
            connectSeconds := if linked then min 16777215 (a.connectSeconds + 1) else a.connectSeconds } }

/-- What the Meter does for the sessions of an entry when its credit state changes: the low-balance warning once, the
exhaustion countdown with message 11, the end of a session where the grace is 0, and the cancelling of the countdown when
credit returns; nothing where the state did not change. First for an entry with one session, the whole state; then for any
number of sessions, each of them the same way, whichever posting made the change, and no other line touched (R133 to R135).
That the credits posted by sessions ending at once here change no credit state is log entry 24. -/
def Obligations.CreditStateChanges : Prop :=
  (∀ (l : LineNo) (e : EntryNo) (x : OatEntry) (old : CreditState) (s : State), s.entry e = some x → s.sessions e = [l] →
    let now := creditState x.acct
    let act := meterAction noSecond s e old
    let r := s.line l
    let grace := (s.cal.active.policies.get x.acct.cls).exhaustionGrace
    let warned (s' : State) : State := if r.lowWarned then s' else
      (requestMessage s' l 10 x.acct.allotment).modLine l (fun r => { r with lowWarned := true })
    let cancelled := s.modLine l (fun r => { r with exhaustion := none })
    (now = if x.acct.allotment = 0 then .exhausted else if x.acct.allotment ≤ x.acct.lowThreshold then .low else .normal) ∧
    (old = now ∨ (old = .low ∧ now = .normal) → act = s) ∧ (old = .normal → now = .low → act = warned s) ∧
    (old = .exhausted → now = .normal → act = cancelled) ∧ (old = .exhausted → now = .low → act = warned cancelled) ∧
    (old ≠ .exhausted → now = .exhausted →
      (r.exhaustion ≠ none → act = s) ∧
      (r.exhaustion = none → 0 < grace →
        act = requestMessage (s.modLine l (fun r => { r with exhaustion := some grace })) l 11 grace) ∧
      (r.exhaustion = none → grace = 0 →
        CallEnded .exhausted (requestMessage (s.modLine l (fun r => { r with exhaustion := some 0 })) l 11 0) act l ∧
        KeptAtEnd s act))) ∧
  ∀ (e : EntryNo) (x : OatEntry) (old : CreditState) (s : State), s.entry e = some x →
    let now := creditState x.acct
    let act := meterAction noSecond s e old
    let grace := (s.cal.active.policies.get x.acct.cls).exhaustionGrace
    let begins := old ≠ .exhausted ∧ now = .exhausted
    let warned (s' : State) (l : LineNo) : State := if (s.line l).lowWarned then s' else
      (requestMessage s' l 10 x.acct.allotment).modLine l (fun r => { r with lowWarned := true })
    let cancelled (l : LineNo) : State := s.modLine l (fun r => { r with exhaustion := none })
    (¬begins ∨ 0 < grace →
      act = { s with lc := { s.lc with lines := act.lc.lines, bus := act.lc.bus } } ∧
      (∀ k, k ∉ s.sessions e → act.line k = s.line k) ∧
      ∀ l ∈ s.sessions e, act.line l =
        (if old = .normal ∧ now = .low then warned s l else if old = .exhausted ∧ now = .normal then cancelled l
          else if old = .exhausted ∧ now = .low then warned (cancelled l) l
          else if begins ∧ (s.line l).exhaustion = none then
            requestMessage (s.modLine l (fun r => { r with exhaustion := some grace })) l 11 grace
          else s).line l) ∧
    (begins → grace = 0 → LinksLawful s → ∀ l ∈ s.sessions e,
      ((s.line l).exhaustion = none → (act.line l).entryRef = none ∧
        ((act.line l).phase = .closing ∨ (act.line l).phase = .guard) ∧
        ((act.line l).summary.map (fun m => m.cause)) = some .exhausted) ∧
      ((s.line l).exhaustion ≠ none → (act.line l).entryRef = some e ∧ (act.line l).exhaustion = (s.line l).exhaustion))

/-- Every second event advances the calendar by one second, swaps the tariff sets at a minute event with the arm flag set, and
latches the view of the second now beginning, whatever the lines and ports hold (R106, R109, R117, R118). -/
def Obligations.SecondAdvancesCalendar : Prop :=
  ∀ (order : SecondOrder) (s : State), s.cal.minute < 10080 → s.cal.second < 60 →
    ∃ t, exec (.secondEvent order) s = .next t ∧
      let c := s.cal
      let minuteEvent := c.second = 59
      let swapped := minuteEvent ∧ c.armed = true
      t.cal.second = (if minuteEvent then 0 else c.second + 1) ∧
      t.cal.minute = (if minuteEvent then (c.minute + 1) % 10080 else c.minute) ∧
      t.cal.clockSet = c.clockSet ∧ t.cal.pendingSet = c.pendingSet ∧
      t.cal.active = (if swapped then c.pendingSet else c.active) ∧
      t.cal.generation = (if swapped then c.generation + 1 else c.generation) ∧
      t.cal.armed = (if swapped then false else c.armed) ∧ t.cal.prevView = c.view ∧
      ∃ h : t.cal.minute / 30 < 336, let band := t.cal.active.schedule.get ⟨t.cal.minute / 30, h⟩
        t.cal.view = { minute := t.cal.minute, second := t.cal.second, band := band, generation := t.cal.generation,
                       bandRates := t.cal.active.rates.get band, waitRates := t.cal.active.waitRates }

/-- A second event with every line IDLE or DOWN, no port CALLING and every queue empty, and with no store operation among its
moments, changes the calendar alone, but for the quarter-hour flush at a minute event whose minute is a multiple of 15, which
queues what FLUSH queues. A quiet second of one CONNECTED session, with nothing to warn of, is counted and charged at the band
rate of the view that ended, and its idle count rises; nothing else changes but the calendar; the order of the parts of the
event is the model's (log entry 5) (R40, R51, R65, R106, R122 to R129, R166). -/
def Obligations.OneSecondPasses : Prop :=
  (∀ (order : SecondOrder) (s : State), (∀ l, (s.line l).phase = .idle ∨ (s.line l).phase = .down) →
    (∀ p, (s.port p).state ≠ .calling) → (∀ g, (s.group g).queue = [] ∧ 1 ≤ (s.group g).congestionThreshold) →
    (∀ m ∈ order.moments, m ≠ .rotationChoice ∧ ∀ writes, m ≠ .storeOperationComplete writes) →
    ∃ t, exec (.secondEvent order) s = .next t ∧
      (s.cal.second < 59 ∨ t.cal.view.minute % 15 ≠ 0 → t = { s with cal := t.cal }) ∧
      (59 ≤ s.cal.second → t.cal.view.minute % 15 = 0 → t = { flushEntries s with cal := t.cal })) ∧
  (∀ (l : LineNo) (e : EntryNo) (x : OatEntry) (s : State), s.cal.second < 59 →
    (∀ k, k ≠ l → (s.line k).phase = .idle ∨ (s.line k).phase = .down) → (∀ p, (s.port p).state ≠ .calling) →
    (∀ g, (s.group g).queue = [] ∧ 1 ≤ (s.group g).congestionThreshold) →
    (s.line l).phase = .admitted .connected → (s.line l).entryRef = some e → s.entry e = some x →
    (s.line l).carrierHold = none → (s.line l).exhaustion = none → (s.line l).hours = none → (s.line l).idleWarning = none →
    (s.cal.active.policies.get x.acct.cls).idleLimit = 0 →
    (∀ b : Band, (s.cal.active.policies.get x.acct.cls).allowedBands.getLsbD b.val = true) →
    x.acct.lowThreshold + 2 < x.acct.allotment → (s.line l).residue < 60000 →
    s.cal.view.bandRates.get x.acct.cls ≤ 65535 → (s.line l).idleCount.getD 0 ≤ 65535 →
    ∃ t, exec (.secondEvent {}) s = .next t ∧
      let charged := chargeSecond (s.modLine l (fun r =>
        { r with idleCount := some (min 65535 (r.idleCount.getD 0 + 1)) })) s.cal.view l e .connected
      t = { charged with cal := t.cal })

/-- A second of one CONNECTED session at which the idle limit is reached or a band edge is taken. At the limit the
idle-warning countdown is loaded and message 13 requested with it. At a band edge the line is judged against the band now in
force: where its class allows the band an hours countdown is cancelled; where it does not, a countdown that runs keeps its
count, and one that is absent is loaded with the hours grace, with message 12, or with a grace of 0 ends the session with
HOURS. A minute that is a multiple of 15 flushes as well. The order of the parts of the event is the model's (log entry 5), and
a count at its ceiling is still compared with the limit (log entry 44, DESIGN CHOICE) (R40, R51, R65, R119, R122, R140). -/
def Obligations.SecondWarnsSession : Prop :=
  ∀ (l : LineNo) (e : EntryNo) (x : OatEntry) (s : State), s.cal.minute < 10080 → s.cal.second < 60 →
    (∀ k, k ≠ l → (s.line k).phase = .idle ∨ (s.line k).phase = .down) → (∀ p, (s.port p).state ≠ .calling) →
    (∀ g, (s.group g).queue = [] ∧ 1 ≤ (s.group g).congestionThreshold) →
    (s.line l).phase = .admitted .connected → (s.line l).entryRef = some e → s.entry e = some x →
    (s.line l).carrierHold = none → (s.line l).exhaustion = none → (s.line l).idleWarning = none → (s.line l).hours ≠ some 0 →
    x.acct.lowThreshold + 2 < x.acct.allotment → (s.line l).residue < 60000 →
    s.cal.view.bandRates.get x.acct.cls ≤ 65535 → (s.line l).idleCount.getD 0 ≤ 65535 →
    ∃ t, exec (.secondEvent {}) s = .next t ∧
      let policy := t.cal.active.policies.get x.acct.cls
      let idle := min 65535 ((s.line l).idleCount.getD 0 + 1)
      let counted : State := { s.modLine l (fun r =>
        { r with idleCount := some idle, hours := r.hours.map (fun n => n - 1) }) with cal := t.cal }
      let warned := if policy.idleLimit ≠ 0 ∧ policy.idleLimit * 30 ≤ idle then
        requestMessage (counted.modLine l (fun r => { r with idleWarning := some policy.idleWarning })) l 13 policy.idleWarning
        else counted
      let charged := chargeSecond warned s.cal.view l e .connected
      let edge := t.cal.view.band ≠ s.cal.view.band ∨ t.cal.view.generation ≠ s.cal.view.generation
      let allowed := policy.allowedBands.getLsbD t.cal.view.band.val = true
      let judged := if allowed then charged.modLine l (fun r => { r with hours := none })
        else if (s.line l).hours = none then
          requestMessage (charged.modLine l (fun r => { r with hours := some policy.hoursGrace })) l 12 policy.hoursGrace
        else charged
      let flushed (s' : State) : State := if s.cal.second = 59 ∧ t.cal.view.minute % 15 = 0 then flushEntries s' else s'
      (¬edge → t = flushed charged) ∧
      (edge → allowed ∨ (s.line l).hours ≠ none ∨ policy.hoursGrace ≠ 0 → t = flushed judged) ∧
      (edge → ¬allowed → (s.line l).hours = none → policy.hoursGrace = 0 → CallEnded .hours judged t l)

/-- What a second event does to the groups while lines wait: in LEVEL mode the congestion count rises where the queue has
reached the threshold; at a minute event every place takes its position as the announced one, and a caller whose position
differed is sent message 5 with it; a waiting line's time and grace run on. The order of the parts of the event is the model's
(log entry 5) (R51, R122, R124, R155, R166). -/
def Obligations.GroupsAtSecondEvents : Prop :=
  ∀ s : State, LinksLawful s → s.cal.minute < 10080 → s.cal.second < 60 → (∀ p, (s.port p).state ≠ .calling) →
    (∀ l, (s.line l).phase = .idle ∨ (s.line l).phase = .down ∨
      ((s.line l).phase = .admitted .waiting ∧ (s.line l).entryRef ≠ none ∧ 0 < (s.line l).grace ∧
        (s.line l).stageTimer ≠ some 0 ∧ (s.line l).carrierHold = none ∧ (s.line l).exhaustion = none ∧
        (s.line l).hours = none)) →
    (∀ (c : ClassNo) (b : Band), (s.cal.active.policies.get c).allowedBands.getLsbD b.val = true ∧
      (s.cal.pendingSet.policies.get c).allowedBands.getLsbD b.val = true) →
    ∃ t, exec (.secondEvent {}) s = .next t ∧
      (∀ g, let x := s.group g
        t.group g = { x with
          congestionCount := if x.congestionMode = .level ∧ x.congestionThreshold ≤ x.queue.length ∧
            x.congestionCount < 16777215 then x.congestionCount + 1 else x.congestionCount
          queue := if s.cal.second = 59 then x.queue.zipIdx.map (fun (q, i) => { q with announced := i + 1 }) else x.queue }) ∧
      ∀ (g : GroupNo) (i : Nat) (place : Place), (s.group g).queue[i]? = some place →
        let l := place.line
        let waited := s.modLine l (fun r =>
          { r with stageTimer := r.stageTimer.map (fun n => n - 1), grace := r.grace - 1,
                   admittedSeconds := if r.admittedSeconds < 16777215 then r.admittedSeconds + 1 else r.admittedSeconds })
        t.line l = (if s.cal.second = 59 ∧ place.announced ≠ i + 1 then requestMessage waited l 5 (i + 1) else waited).line l

/-- Two sessions of one exhausted account, whose countdowns run out at a second event at which a GRANT is taken. Granted
before both steps, both sessions live and their credits come from the grant; granted between the steps, the session stepped
before it ends with EXHAUSTED, its second and its closing credit in the overdraft the grant repays, and the one stepped after
it is charged and carries on; granted after both, both have ended and the grant acts on the CLOSING entry. Without the grant,
the order of the two steps makes no difference (R123, R129, R131, R132, R136 to R138; that the grant completes at the choice
is log entry 11, DEDUCED). -/
def Obligations.GrantBetweenSteps : Prop :=
  ∀ (l k : LineNo) (e : EntryNo) (x : OatEntry) (amount : Nat) (s : State), l ≠ k → LinksLawful s → SessionsLawful s →
    s.cal.second < 59 → (∀ j, j ≠ l → j ≠ k → (s.line j).phase = .idle ∨ (s.line j).phase = .down) →
    (∀ j, j = l ∨ j = k → (s.line j).phase = .admitted .connected ∧ (s.line j).entryRef = some e ∧ (s.line j).grace = 0 ∧
      (s.line j).exhaustion = some 1 ∧ (s.line j).carrierHold = none ∧ (s.line j).hours = none ∧
      (s.line j).idleWarning = none ∧ (s.line j).residue < 60000) →
    s.entry e = some x → x.acct.allotment = 0 → x.acct.overdraft ≤ 65535 →
    (s.cal.active.policies.get x.acct.cls).idleLimit = 0 →
    (∀ b : Band, (s.cal.active.policies.get x.acct.cls).allowedBands.getLsbD b.val = true) →
    s.cal.view.bandRates.get x.acct.cls ≤ 65535 → s.ctl.inProgress = none → s.ctl.rotation = .supervisor →
    s.ctl.waiting = some (.grant x.account amount) → x.acct.overdraft + x.acct.lowThreshold + 10 < amount →
    amount ≤ 16777215 →
    let sum (j : LineNo) : Nat := (s.line j).residue + s.cal.view.bandRates.get x.acct.cls
    let credits (j : LineNo) : Nat := sum j / 60000
    let closing (j : LineNo) : Nat := if 30000 ≤ sum j % 60000 then 1 else 0
    let owed (n : Nat) : Nat := min 65535 (x.acct.overdraft + n)
    let lives (t : State) (j : LineNo) : Prop := (t.line j).phase = .admitted .connected ∧ (t.line j).exhaustion = none ∧
      (t.line j).residue = sum j % 60000
    let ended (t : State) (j : LineNo) : Prop := (t.line j).entryRef = none ∧
      (t.line j).summary.map (fun m => m.cause) = some .exhausted
    let leaves (moments : List SecondMoment) (allotment count : Nat) (p : State → Prop) : Prop :=
      ∃ t, exec (.secondEvent { moments := moments }) s = .next t ∧ p t ∧
        ∃ y, t.entry e = some y ∧ y.acct.allotment = allotment ∧ y.acct.overdraft = 0 ∧ y.count = count
    leaves [.rotationChoice, .step l, .step k] (amount - x.acct.overdraft - credits l - credits k) 2
      (fun t => lives t l ∧ lives t k) ∧
    leaves [.step l, .expiry (.exhaustion l), .rotationChoice, .step k]
      (amount - owed (credits l + closing l) - credits k) 1 (fun t => ended t l ∧ lives t k) ∧
    leaves [.step l, .expiry (.exhaustion l), .step k, .expiry (.exhaustion k), .rotationChoice]
      (amount - owed (credits l + closing l + credits k + closing k)) 0
      (fun t => ended t l ∧ ended t k ∧ e ∈ t.oat.writeBackList) ∧
    ∃ t, exec (.secondEvent { moments := [.step l, .step k] }) s = .next t ∧
      exec (.secondEvent { moments := [.step k, .step l] }) s = .next t
end

