-- ==== Sys2Proof/Laws/State.lean ====
section
/-! SUPPORT. One lemma per field for each update of the state: what an update leaves alone, and what it sets. -/
namespace Sys2Proof.Machine

/-! ### onLines -/

@[simp] theorem onLines_store (s : State) (f : LineCtl → LineCtl) : (s.onLines f).store = s.store := rfl
@[simp] theorem onLines_ctl (s : State) (f : LineCtl → LineCtl) : (s.onLines f).ctl = s.ctl := rfl
@[simp] theorem onLines_oat (s : State) (f : LineCtl → LineCtl) : (s.onLines f).oat = s.oat := rfl
@[simp] theorem onLines_watches (s : State) (f : LineCtl → LineCtl) : (s.onLines f).watches = s.watches := rfl
@[simp] theorem onLines_cal (s : State) (f : LineCtl → LineCtl) : (s.onLines f).cal = s.cal := rfl
@[simp] theorem onLines_pa (s : State) (f : LineCtl → LineCtl) : (s.onLines f).pa = s.pa := rfl
@[simp] theorem onLines_sup (s : State) (f : LineCtl → LineCtl) : (s.onLines f).sup = s.sup := rfl
@[simp] theorem onLines_attn (s : State) (f : LineCtl → LineCtl) : (s.onLines f).attn = s.attn := rfl
@[simp] theorem onLines_pending (s : State) (f : LineCtl → LineCtl) : (s.onLines f).pending = s.pending := rfl
@[simp] theorem onLines_port_of (s : State) (f : LineCtl → LineCtl) (k : PortNo) : (s.onLines f).port k = s.port k := rfl
@[simp] theorem onLines_group_of (s : State) (f : LineCtl → LineCtl) (k : GroupNo) : (s.onLines f).group k = s.group k := rfl
@[simp] theorem onLines_entry_of (s : State) (f : LineCtl → LineCtl) (k : EntryNo) : (s.onLines f).entry k = s.entry k := rfl

/-! ### modLine -/

@[simp] theorem modLine_store (s : State) (l : LineNo) (f : LineRec → LineRec) : (s.modLine l f).store = s.store := rfl
@[simp] theorem modLine_ctl (s : State) (l : LineNo) (f : LineRec → LineRec) : (s.modLine l f).ctl = s.ctl := rfl
@[simp] theorem modLine_oat (s : State) (l : LineNo) (f : LineRec → LineRec) : (s.modLine l f).oat = s.oat := rfl
@[simp] theorem modLine_watches (s : State) (l : LineNo) (f : LineRec → LineRec) : (s.modLine l f).watches = s.watches := rfl
@[simp] theorem modLine_cal (s : State) (l : LineNo) (f : LineRec → LineRec) : (s.modLine l f).cal = s.cal := rfl
@[simp] theorem modLine_pa (s : State) (l : LineNo) (f : LineRec → LineRec) : (s.modLine l f).pa = s.pa := rfl
@[simp] theorem modLine_sup (s : State) (l : LineNo) (f : LineRec → LineRec) : (s.modLine l f).sup = s.sup := rfl
@[simp] theorem modLine_attn (s : State) (l : LineNo) (f : LineRec → LineRec) : (s.modLine l f).attn = s.attn := rfl
@[simp] theorem modLine_pending (s : State) (l : LineNo) (f : LineRec → LineRec) : (s.modLine l f).pending = s.pending := rfl
@[simp] theorem modLine_port_of (s : State) (l : LineNo) (f : LineRec → LineRec) (k : PortNo) :
    (s.modLine l f).port k = s.port k := rfl
@[simp] theorem modLine_group_of (s : State) (l : LineNo) (f : LineRec → LineRec) (k : GroupNo) :
    (s.modLine l f).group k = s.group k := rfl
@[simp] theorem modLine_entry_of (s : State) (l : LineNo) (f : LineRec → LineRec) (k : EntryNo) :
    (s.modLine l f).entry k = s.entry k := rfl

/-! ### modPort -/

@[simp] theorem modPort_store (s : State) (p : PortNo) (f : PortRec → PortRec) : (s.modPort p f).store = s.store := rfl
@[simp] theorem modPort_ctl (s : State) (p : PortNo) (f : PortRec → PortRec) : (s.modPort p f).ctl = s.ctl := rfl
@[simp] theorem modPort_oat (s : State) (p : PortNo) (f : PortRec → PortRec) : (s.modPort p f).oat = s.oat := rfl
@[simp] theorem modPort_lc (s : State) (p : PortNo) (f : PortRec → PortRec) : (s.modPort p f).lc = s.lc := rfl
@[simp] theorem modPort_watches (s : State) (p : PortNo) (f : PortRec → PortRec) : (s.modPort p f).watches = s.watches := rfl
@[simp] theorem modPort_cal (s : State) (p : PortNo) (f : PortRec → PortRec) : (s.modPort p f).cal = s.cal := rfl
@[simp] theorem modPort_sup (s : State) (p : PortNo) (f : PortRec → PortRec) : (s.modPort p f).sup = s.sup := rfl
@[simp] theorem modPort_attn (s : State) (p : PortNo) (f : PortRec → PortRec) : (s.modPort p f).attn = s.attn := rfl
@[simp] theorem modPort_pending (s : State) (p : PortNo) (f : PortRec → PortRec) : (s.modPort p f).pending = s.pending := rfl
@[simp] theorem modPort_line_of (s : State) (p : PortNo) (f : PortRec → PortRec) (k : LineNo) :
    (s.modPort p f).line k = s.line k := rfl
@[simp] theorem modPort_entry_of (s : State) (p : PortNo) (f : PortRec → PortRec) (k : EntryNo) :
    (s.modPort p f).entry k = s.entry k := rfl

/-! ### issuePort -/

@[simp] theorem issuePort_store (s : State) (c : PortCmd) : (s.issuePort c).store = s.store := rfl
@[simp] theorem issuePort_ctl (s : State) (c : PortCmd) : (s.issuePort c).ctl = s.ctl := rfl
@[simp] theorem issuePort_oat (s : State) (c : PortCmd) : (s.issuePort c).oat = s.oat := rfl
@[simp] theorem issuePort_lc (s : State) (c : PortCmd) : (s.issuePort c).lc = s.lc := rfl
@[simp] theorem issuePort_watches (s : State) (c : PortCmd) : (s.issuePort c).watches = s.watches := rfl
@[simp] theorem issuePort_cal (s : State) (c : PortCmd) : (s.issuePort c).cal = s.cal := rfl
@[simp] theorem issuePort_sup (s : State) (c : PortCmd) : (s.issuePort c).sup = s.sup := rfl
@[simp] theorem issuePort_attn (s : State) (c : PortCmd) : (s.issuePort c).attn = s.attn := rfl
@[simp] theorem issuePort_pending (s : State) (c : PortCmd) : (s.issuePort c).pending = s.pending := rfl
@[simp] theorem issuePort_line_of (s : State) (c : PortCmd) (k : LineNo) : (s.issuePort c).line k = s.line k := rfl
@[simp] theorem issuePort_entry_of (s : State) (c : PortCmd) (k : EntryNo) : (s.issuePort c).entry k = s.entry k := rfl

/-! ### modGroup -/

@[simp] theorem modGroup_store (s : State) (g : GroupNo) (f : GroupRec → GroupRec) : (s.modGroup g f).store = s.store := rfl
@[simp] theorem modGroup_ctl (s : State) (g : GroupNo) (f : GroupRec → GroupRec) : (s.modGroup g f).ctl = s.ctl := rfl
@[simp] theorem modGroup_oat (s : State) (g : GroupNo) (f : GroupRec → GroupRec) : (s.modGroup g f).oat = s.oat := rfl
@[simp] theorem modGroup_lc (s : State) (g : GroupNo) (f : GroupRec → GroupRec) : (s.modGroup g f).lc = s.lc := rfl
@[simp] theorem modGroup_watches (s : State) (g : GroupNo) (f : GroupRec → GroupRec) :
    (s.modGroup g f).watches = s.watches := rfl
@[simp] theorem modGroup_cal (s : State) (g : GroupNo) (f : GroupRec → GroupRec) : (s.modGroup g f).cal = s.cal := rfl
@[simp] theorem modGroup_sup (s : State) (g : GroupNo) (f : GroupRec → GroupRec) : (s.modGroup g f).sup = s.sup := rfl
@[simp] theorem modGroup_attn (s : State) (g : GroupNo) (f : GroupRec → GroupRec) : (s.modGroup g f).attn = s.attn := rfl
@[simp] theorem modGroup_pending (s : State) (g : GroupNo) (f : GroupRec → GroupRec) :
    (s.modGroup g f).pending = s.pending := rfl
@[simp] theorem modGroup_line_of (s : State) (g : GroupNo) (f : GroupRec → GroupRec) (k : LineNo) :
    (s.modGroup g f).line k = s.line k := rfl
@[simp] theorem modGroup_entry_of (s : State) (g : GroupNo) (f : GroupRec → GroupRec) (k : EntryNo) :
    (s.modGroup g f).entry k = s.entry k := rfl

/-! ### setEntry -/

@[simp] theorem setEntry_store (s : State) (e : EntryNo) (x : Option OatEntry) : (s.setEntry e x).store = s.store := rfl
@[simp] theorem setEntry_ctl (s : State) (e : EntryNo) (x : Option OatEntry) : (s.setEntry e x).ctl = s.ctl := rfl
@[simp] theorem setEntry_lc (s : State) (e : EntryNo) (x : Option OatEntry) : (s.setEntry e x).lc = s.lc := rfl
@[simp] theorem setEntry_watches (s : State) (e : EntryNo) (x : Option OatEntry) :
    (s.setEntry e x).watches = s.watches := rfl
@[simp] theorem setEntry_cal (s : State) (e : EntryNo) (x : Option OatEntry) : (s.setEntry e x).cal = s.cal := rfl
@[simp] theorem setEntry_pa (s : State) (e : EntryNo) (x : Option OatEntry) : (s.setEntry e x).pa = s.pa := rfl
@[simp] theorem setEntry_sup (s : State) (e : EntryNo) (x : Option OatEntry) : (s.setEntry e x).sup = s.sup := rfl
@[simp] theorem setEntry_attn (s : State) (e : EntryNo) (x : Option OatEntry) : (s.setEntry e x).attn = s.attn := rfl
@[simp] theorem setEntry_pending (s : State) (e : EntryNo) (x : Option OatEntry) :
    (s.setEntry e x).pending = s.pending := rfl
@[simp] theorem setEntry_line_of (s : State) (e : EntryNo) (x : Option OatEntry) (k : LineNo) :
    (s.setEntry e x).line k = s.line k := rfl
@[simp] theorem setEntry_port_of (s : State) (e : EntryNo) (x : Option OatEntry) (k : PortNo) :
    (s.setEntry e x).port k = s.port k := rfl
@[simp] theorem setEntry_group_of (s : State) (e : EntryNo) (x : Option OatEntry) (k : GroupNo) :
    (s.setEntry e x).group k = s.group k := rfl

/-! ### modEntry -/

@[simp] theorem modEntry_store (s : State) (e : EntryNo) (f : OatEntry → OatEntry) : (s.modEntry e f).store = s.store := rfl
@[simp] theorem modEntry_ctl (s : State) (e : EntryNo) (f : OatEntry → OatEntry) : (s.modEntry e f).ctl = s.ctl := rfl
@[simp] theorem modEntry_lc (s : State) (e : EntryNo) (f : OatEntry → OatEntry) : (s.modEntry e f).lc = s.lc := rfl
@[simp] theorem modEntry_watches (s : State) (e : EntryNo) (f : OatEntry → OatEntry) :
    (s.modEntry e f).watches = s.watches := rfl
@[simp] theorem modEntry_cal (s : State) (e : EntryNo) (f : OatEntry → OatEntry) : (s.modEntry e f).cal = s.cal := rfl
@[simp] theorem modEntry_pa (s : State) (e : EntryNo) (f : OatEntry → OatEntry) : (s.modEntry e f).pa = s.pa := rfl
@[simp] theorem modEntry_sup (s : State) (e : EntryNo) (f : OatEntry → OatEntry) : (s.modEntry e f).sup = s.sup := rfl
@[simp] theorem modEntry_attn (s : State) (e : EntryNo) (f : OatEntry → OatEntry) : (s.modEntry e f).attn = s.attn := rfl
@[simp] theorem modEntry_pending (s : State) (e : EntryNo) (f : OatEntry → OatEntry) :
    (s.modEntry e f).pending = s.pending := rfl
@[simp] theorem modEntry_line_of (s : State) (e : EntryNo) (f : OatEntry → OatEntry) (k : LineNo) :
    (s.modEntry e f).line k = s.line k := rfl
@[simp] theorem modEntry_port_of (s : State) (e : EntryNo) (f : OatEntry → OatEntry) (k : PortNo) :
    (s.modEntry e f).port k = s.port k := rfl
@[simp] theorem modEntry_group_of (s : State) (e : EntryNo) (f : OatEntry → OatEntry) (k : GroupNo) :
    (s.modEntry e f).group k = s.group k := rfl

/-! ### modWatch -/

@[simp] theorem modWatch_store (s : State) (w : WatchNo) (f : Watch → Watch) : (s.modWatch w f).store = s.store := rfl
@[simp] theorem modWatch_ctl (s : State) (w : WatchNo) (f : Watch → Watch) : (s.modWatch w f).ctl = s.ctl := rfl
@[simp] theorem modWatch_oat (s : State) (w : WatchNo) (f : Watch → Watch) : (s.modWatch w f).oat = s.oat := rfl
@[simp] theorem modWatch_lc (s : State) (w : WatchNo) (f : Watch → Watch) : (s.modWatch w f).lc = s.lc := rfl
@[simp] theorem modWatch_cal (s : State) (w : WatchNo) (f : Watch → Watch) : (s.modWatch w f).cal = s.cal := rfl
@[simp] theorem modWatch_pa (s : State) (w : WatchNo) (f : Watch → Watch) : (s.modWatch w f).pa = s.pa := rfl
@[simp] theorem modWatch_sup (s : State) (w : WatchNo) (f : Watch → Watch) : (s.modWatch w f).sup = s.sup := rfl
@[simp] theorem modWatch_attn (s : State) (w : WatchNo) (f : Watch → Watch) : (s.modWatch w f).attn = s.attn := rfl
@[simp] theorem modWatch_pending (s : State) (w : WatchNo) (f : Watch → Watch) : (s.modWatch w f).pending = s.pending := rfl
@[simp] theorem modWatch_line_of (s : State) (w : WatchNo) (f : Watch → Watch) (k : LineNo) :
    (s.modWatch w f).line k = s.line k := rfl
@[simp] theorem modWatch_port_of (s : State) (w : WatchNo) (f : Watch → Watch) (k : PortNo) :
    (s.modWatch w f).port k = s.port k := rfl
@[simp] theorem modWatch_group_of (s : State) (w : WatchNo) (f : Watch → Watch) (k : GroupNo) :
    (s.modWatch w f).group k = s.group k := rfl
@[simp] theorem modWatch_entry_of (s : State) (w : WatchNo) (f : Watch → Watch) (k : EntryNo) :
    (s.modWatch w f).entry k = s.entry k := rfl

/-! ### onAttention -/

@[simp] theorem onAttention_store (s : State) (f : Attention → Attention) : (s.onAttention f).store = s.store := rfl
@[simp] theorem onAttention_ctl (s : State) (f : Attention → Attention) : (s.onAttention f).ctl = s.ctl := rfl
@[simp] theorem onAttention_oat (s : State) (f : Attention → Attention) : (s.onAttention f).oat = s.oat := rfl
@[simp] theorem onAttention_lc (s : State) (f : Attention → Attention) : (s.onAttention f).lc = s.lc := rfl
@[simp] theorem onAttention_watches (s : State) (f : Attention → Attention) : (s.onAttention f).watches = s.watches := rfl
@[simp] theorem onAttention_cal (s : State) (f : Attention → Attention) : (s.onAttention f).cal = s.cal := rfl
@[simp] theorem onAttention_pa (s : State) (f : Attention → Attention) : (s.onAttention f).pa = s.pa := rfl
@[simp] theorem onAttention_sup (s : State) (f : Attention → Attention) : (s.onAttention f).sup = s.sup := rfl
@[simp] theorem onAttention_pending (s : State) (f : Attention → Attention) : (s.onAttention f).pending = s.pending := rfl
@[simp] theorem onAttention_line_of (s : State) (f : Attention → Attention) (k : LineNo) :
    (s.onAttention f).line k = s.line k := rfl
@[simp] theorem onAttention_port_of (s : State) (f : Attention → Attention) (k : PortNo) :
    (s.onAttention f).port k = s.port k := rfl
@[simp] theorem onAttention_group_of (s : State) (f : Attention → Attention) (k : GroupNo) :
    (s.onAttention f).group k = s.group k := rfl
@[simp] theorem onAttention_entry_of (s : State) (f : Attention → Attention) (k : EntryNo) :
    (s.onAttention f).entry k = s.entry k := rfl

/-! ### onCtl -/

@[simp] theorem onCtl_store (s : State) (f : StoreCtl → StoreCtl) : (s.onCtl f).store = s.store := rfl
@[simp] theorem onCtl_oat (s : State) (f : StoreCtl → StoreCtl) : (s.onCtl f).oat = s.oat := rfl
@[simp] theorem onCtl_lc (s : State) (f : StoreCtl → StoreCtl) : (s.onCtl f).lc = s.lc := rfl
@[simp] theorem onCtl_watches (s : State) (f : StoreCtl → StoreCtl) : (s.onCtl f).watches = s.watches := rfl
@[simp] theorem onCtl_cal (s : State) (f : StoreCtl → StoreCtl) : (s.onCtl f).cal = s.cal := rfl
@[simp] theorem onCtl_pa (s : State) (f : StoreCtl → StoreCtl) : (s.onCtl f).pa = s.pa := rfl
@[simp] theorem onCtl_sup (s : State) (f : StoreCtl → StoreCtl) : (s.onCtl f).sup = s.sup := rfl
@[simp] theorem onCtl_attn (s : State) (f : StoreCtl → StoreCtl) : (s.onCtl f).attn = s.attn := rfl
@[simp] theorem onCtl_pending (s : State) (f : StoreCtl → StoreCtl) : (s.onCtl f).pending = s.pending := rfl
@[simp] theorem onCtl_line_of (s : State) (f : StoreCtl → StoreCtl) (k : LineNo) : (s.onCtl f).line k = s.line k := rfl
@[simp] theorem onCtl_port_of (s : State) (f : StoreCtl → StoreCtl) (k : PortNo) : (s.onCtl f).port k = s.port k := rfl
@[simp] theorem onCtl_group_of (s : State) (f : StoreCtl → StoreCtl) (k : GroupNo) : (s.onCtl f).group k = s.group k := rfl
@[simp] theorem onCtl_entry_of (s : State) (f : StoreCtl → StoreCtl) (k : EntryNo) : (s.onCtl f).entry k = s.entry k := rfl

/-! ### onCal -/

@[simp] theorem onCal_store (s : State) (f : Calendar → Calendar) : (s.onCal f).store = s.store := rfl
@[simp] theorem onCal_ctl (s : State) (f : Calendar → Calendar) : (s.onCal f).ctl = s.ctl := rfl
@[simp] theorem onCal_oat (s : State) (f : Calendar → Calendar) : (s.onCal f).oat = s.oat := rfl
@[simp] theorem onCal_lc (s : State) (f : Calendar → Calendar) : (s.onCal f).lc = s.lc := rfl
@[simp] theorem onCal_watches (s : State) (f : Calendar → Calendar) : (s.onCal f).watches = s.watches := rfl
@[simp] theorem onCal_pa (s : State) (f : Calendar → Calendar) : (s.onCal f).pa = s.pa := rfl
@[simp] theorem onCal_sup (s : State) (f : Calendar → Calendar) : (s.onCal f).sup = s.sup := rfl
@[simp] theorem onCal_attn (s : State) (f : Calendar → Calendar) : (s.onCal f).attn = s.attn := rfl
@[simp] theorem onCal_pending (s : State) (f : Calendar → Calendar) : (s.onCal f).pending = s.pending := rfl
@[simp] theorem onCal_line_of (s : State) (f : Calendar → Calendar) (k : LineNo) : (s.onCal f).line k = s.line k := rfl
@[simp] theorem onCal_port_of (s : State) (f : Calendar → Calendar) (k : PortNo) : (s.onCal f).port k = s.port k := rfl
@[simp] theorem onCal_group_of (s : State) (f : Calendar → Calendar) (k : GroupNo) : (s.onCal f).group k = s.group k := rfl
@[simp] theorem onCal_entry_of (s : State) (f : Calendar → Calendar) (k : EntryNo) : (s.onCal f).entry k = s.entry k := rfl

/-! ### onSup -/

@[simp] theorem onSup_store (s : State) (f : SupPort → SupPort) : (s.onSup f).store = s.store := rfl
@[simp] theorem onSup_ctl (s : State) (f : SupPort → SupPort) : (s.onSup f).ctl = s.ctl := rfl
@[simp] theorem onSup_oat (s : State) (f : SupPort → SupPort) : (s.onSup f).oat = s.oat := rfl
@[simp] theorem onSup_lc (s : State) (f : SupPort → SupPort) : (s.onSup f).lc = s.lc := rfl
@[simp] theorem onSup_watches (s : State) (f : SupPort → SupPort) : (s.onSup f).watches = s.watches := rfl
@[simp] theorem onSup_cal (s : State) (f : SupPort → SupPort) : (s.onSup f).cal = s.cal := rfl
@[simp] theorem onSup_pa (s : State) (f : SupPort → SupPort) : (s.onSup f).pa = s.pa := rfl
@[simp] theorem onSup_attn (s : State) (f : SupPort → SupPort) : (s.onSup f).attn = s.attn := rfl
@[simp] theorem onSup_pending (s : State) (f : SupPort → SupPort) : (s.onSup f).pending = s.pending := rfl
@[simp] theorem onSup_line_of (s : State) (f : SupPort → SupPort) (k : LineNo) : (s.onSup f).line k = s.line k := rfl
@[simp] theorem onSup_port_of (s : State) (f : SupPort → SupPort) (k : PortNo) : (s.onSup f).port k = s.port k := rfl
@[simp] theorem onSup_group_of (s : State) (f : SupPort → SupPort) (k : GroupNo) : (s.onSup f).group k = s.group k := rfl
@[simp] theorem onSup_entry_of (s : State) (f : SupPort → SupPort) (k : EntryNo) : (s.onSup f).entry k = s.entry k := rfl

/-! ### writeSlot -/

@[simp] theorem writeSlot_ctl (s : State) (o : WriteOutcome) (slot : Nat) (b : List Byte) :
    (s.writeSlot o slot b).ctl = s.ctl := by simp only [State.writeSlot]
@[simp] theorem writeSlot_oat (s : State) (o : WriteOutcome) (slot : Nat) (b : List Byte) :
    (s.writeSlot o slot b).oat = s.oat := by simp only [State.writeSlot]
@[simp] theorem writeSlot_lc (s : State) (o : WriteOutcome) (slot : Nat) (b : List Byte) :
    (s.writeSlot o slot b).lc = s.lc := by simp only [State.writeSlot]
@[simp] theorem writeSlot_watches (s : State) (o : WriteOutcome) (slot : Nat) (b : List Byte) :
    (s.writeSlot o slot b).watches = s.watches := by simp only [State.writeSlot]
@[simp] theorem writeSlot_cal (s : State) (o : WriteOutcome) (slot : Nat) (b : List Byte) :
    (s.writeSlot o slot b).cal = s.cal := by simp only [State.writeSlot]
@[simp] theorem writeSlot_pa (s : State) (o : WriteOutcome) (slot : Nat) (b : List Byte) :
    (s.writeSlot o slot b).pa = s.pa := by simp only [State.writeSlot]
@[simp] theorem writeSlot_sup (s : State) (o : WriteOutcome) (slot : Nat) (b : List Byte) :
    (s.writeSlot o slot b).sup = s.sup := by simp only [State.writeSlot]
@[simp] theorem writeSlot_attn (s : State) (o : WriteOutcome) (slot : Nat) (b : List Byte) :
    (s.writeSlot o slot b).attn = s.attn := by simp only [State.writeSlot]
@[simp] theorem writeSlot_pending (s : State) (o : WriteOutcome) (slot : Nat) (b : List Byte) :
    (s.writeSlot o slot b).pending = s.pending := by simp only [State.writeSlot]
@[simp] theorem writeSlot_line_of (s : State) (o : WriteOutcome) (slot : Nat) (b : List Byte) (k : LineNo) :
    (s.writeSlot o slot b).line k = s.line k := by simp only [State.writeSlot, State.line]
@[simp] theorem writeSlot_port_of (s : State) (o : WriteOutcome) (slot : Nat) (b : List Byte) (k : PortNo) :
    (s.writeSlot o slot b).port k = s.port k := by simp only [State.writeSlot, State.port]
@[simp] theorem writeSlot_group_of (s : State) (o : WriteOutcome) (slot : Nat) (b : List Byte) (k : GroupNo) :
    (s.writeSlot o slot b).group k = s.group k := by simp only [State.writeSlot, State.group]
@[simp] theorem writeSlot_entry_of (s : State) (o : WriteOutcome) (slot : Nat) (b : List Byte) (k : EntryNo) :
    (s.writeSlot o slot b).entry k = s.entry k := by simp only [State.writeSlot, State.entry]

/-! ### respond -/

@[simp] theorem respond_store (s : State) (c : Code) (k : Bool) (b : List Byte) : (respond s c k b).store = s.store := rfl
@[simp] theorem respond_ctl (s : State) (c : Code) (k : Bool) (b : List Byte) : (respond s c k b).ctl = s.ctl := rfl
@[simp] theorem respond_oat (s : State) (c : Code) (k : Bool) (b : List Byte) : (respond s c k b).oat = s.oat := rfl
@[simp] theorem respond_lc (s : State) (c : Code) (k : Bool) (b : List Byte) : (respond s c k b).lc = s.lc := rfl
@[simp] theorem respond_watches (s : State) (c : Code) (k : Bool) (b : List Byte) :
    (respond s c k b).watches = s.watches := rfl
@[simp] theorem respond_cal (s : State) (c : Code) (k : Bool) (b : List Byte) : (respond s c k b).cal = s.cal := rfl
@[simp] theorem respond_pa (s : State) (c : Code) (k : Bool) (b : List Byte) : (respond s c k b).pa = s.pa := rfl
@[simp] theorem respond_attn (s : State) (c : Code) (k : Bool) (b : List Byte) : (respond s c k b).attn = s.attn := rfl
@[simp] theorem respond_pending (s : State) (c : Code) (k : Bool) (b : List Byte) :
    (respond s c k b).pending = s.pending := rfl
@[simp] theorem respond_line_of (s : State) (c : Code) (v : Bool) (b : List Byte) (k : LineNo) :
    (respond s c v b).line k = s.line k := rfl
@[simp] theorem respond_port_of (s : State) (c : Code) (v : Bool) (b : List Byte) (k : PortNo) :
    (respond s c v b).port k = s.port k := rfl
@[simp] theorem respond_group_of (s : State) (c : Code) (v : Bool) (b : List Byte) (k : GroupNo) :
    (respond s c v b).group k = s.group k := rfl
@[simp] theorem respond_entry_of (s : State) (c : Code) (v : Bool) (b : List Byte) (k : EntryNo) :
    (respond s c v b).entry k = s.entry k := rfl

/-! ### raiseAccount -/

@[simp] theorem raiseAccount_store (s : State) (n : Nat) (c : BitVec 3) : (raiseAccount s n c).store = s.store := rfl
@[simp] theorem raiseAccount_ctl (s : State) (n : Nat) (c : BitVec 3) : (raiseAccount s n c).ctl = s.ctl := rfl
@[simp] theorem raiseAccount_oat (s : State) (n : Nat) (c : BitVec 3) : (raiseAccount s n c).oat = s.oat := rfl
@[simp] theorem raiseAccount_lc (s : State) (n : Nat) (c : BitVec 3) : (raiseAccount s n c).lc = s.lc := rfl
@[simp] theorem raiseAccount_watches (s : State) (n : Nat) (c : BitVec 3) : (raiseAccount s n c).watches = s.watches := rfl
@[simp] theorem raiseAccount_cal (s : State) (n : Nat) (c : BitVec 3) : (raiseAccount s n c).cal = s.cal := rfl
@[simp] theorem raiseAccount_pa (s : State) (n : Nat) (c : BitVec 3) : (raiseAccount s n c).pa = s.pa := rfl
@[simp] theorem raiseAccount_sup (s : State) (n : Nat) (c : BitVec 3) : (raiseAccount s n c).sup = s.sup := rfl
@[simp] theorem raiseAccount_pending (s : State) (n : Nat) (c : BitVec 3) : (raiseAccount s n c).pending = s.pending := rfl
@[simp] theorem raiseAccount_line_of (s : State) (n : Nat) (c : BitVec 3) (k : LineNo) :
    (raiseAccount s n c).line k = s.line k := rfl
@[simp] theorem raiseAccount_port_of (s : State) (n : Nat) (c : BitVec 3) (k : PortNo) :
    (raiseAccount s n c).port k = s.port k := rfl
@[simp] theorem raiseAccount_group_of (s : State) (n : Nat) (c : BitVec 3) (k : GroupNo) :
    (raiseAccount s n c).group k = s.group k := rfl
@[simp] theorem raiseAccount_entry_of (s : State) (n : Nat) (c : BitVec 3) (k : EntryNo) :
    (raiseAccount s n c).entry k = s.entry k := rfl

/-! ### raisePortFault -/

@[simp] theorem raisePortFault_store (s : State) (p : PortNo) (c : FaultCause) :
    (raisePortFault s p c).store = s.store := rfl
@[simp] theorem raisePortFault_ctl (s : State) (p : PortNo) (c : FaultCause) : (raisePortFault s p c).ctl = s.ctl := rfl
@[simp] theorem raisePortFault_oat (s : State) (p : PortNo) (c : FaultCause) : (raisePortFault s p c).oat = s.oat := rfl
@[simp] theorem raisePortFault_lc (s : State) (p : PortNo) (c : FaultCause) : (raisePortFault s p c).lc = s.lc := rfl
@[simp] theorem raisePortFault_watches (s : State) (p : PortNo) (c : FaultCause) :
    (raisePortFault s p c).watches = s.watches := rfl
@[simp] theorem raisePortFault_cal (s : State) (p : PortNo) (c : FaultCause) : (raisePortFault s p c).cal = s.cal := rfl
@[simp] theorem raisePortFault_pa (s : State) (p : PortNo) (c : FaultCause) : (raisePortFault s p c).pa = s.pa := rfl
@[simp] theorem raisePortFault_sup (s : State) (p : PortNo) (c : FaultCause) : (raisePortFault s p c).sup = s.sup := rfl
@[simp] theorem raisePortFault_pending (s : State) (p : PortNo) (c : FaultCause) :
    (raisePortFault s p c).pending = s.pending := rfl
@[simp] theorem raisePortFault_line_of (s : State) (p : PortNo) (c : FaultCause) (k : LineNo) :
    (raisePortFault s p c).line k = s.line k := rfl
@[simp] theorem raisePortFault_port_of (s : State) (p : PortNo) (c : FaultCause) (k : PortNo) :
    (raisePortFault s p c).port k = s.port k := rfl
@[simp] theorem raisePortFault_group_of (s : State) (p : PortNo) (c : FaultCause) (k : GroupNo) :
    (raisePortFault s p c).group k = s.group k := rfl
@[simp] theorem raisePortFault_entry_of (s : State) (p : PortNo) (c : FaultCause) (k : EntryNo) :
    (raisePortFault s p c).entry k = s.entry k := rfl

/-! ### raiseHold -/

@[simp] theorem raiseHold_store (s : State) (l : LineNo) : (raiseHold s l).store = s.store := rfl
@[simp] theorem raiseHold_ctl (s : State) (l : LineNo) : (raiseHold s l).ctl = s.ctl := rfl
@[simp] theorem raiseHold_oat (s : State) (l : LineNo) : (raiseHold s l).oat = s.oat := rfl
@[simp] theorem raiseHold_lc (s : State) (l : LineNo) : (raiseHold s l).lc = s.lc := rfl
@[simp] theorem raiseHold_watches (s : State) (l : LineNo) : (raiseHold s l).watches = s.watches := rfl
@[simp] theorem raiseHold_cal (s : State) (l : LineNo) : (raiseHold s l).cal = s.cal := rfl
@[simp] theorem raiseHold_pa (s : State) (l : LineNo) : (raiseHold s l).pa = s.pa := rfl
@[simp] theorem raiseHold_sup (s : State) (l : LineNo) : (raiseHold s l).sup = s.sup := rfl
@[simp] theorem raiseHold_pending (s : State) (l : LineNo) : (raiseHold s l).pending = s.pending := rfl
@[simp] theorem raiseHold_line_of (s : State) (l : LineNo) (k : LineNo) : (raiseHold s l).line k = s.line k := rfl
@[simp] theorem raiseHold_port_of (s : State) (l : LineNo) (k : PortNo) : (raiseHold s l).port k = s.port k := rfl
@[simp] theorem raiseHold_group_of (s : State) (l : LineNo) (k : GroupNo) : (raiseHold s l).group k = s.group k := rfl
@[simp] theorem raiseHold_entry_of (s : State) (l : LineNo) (k : EntryNo) : (raiseHold s l).entry k = s.entry k := rfl

/-! ### dropHold -/

@[simp] theorem dropHold_store (s : State) (l : LineNo) : (dropHold s l).store = s.store := rfl
@[simp] theorem dropHold_ctl (s : State) (l : LineNo) : (dropHold s l).ctl = s.ctl := rfl
@[simp] theorem dropHold_oat (s : State) (l : LineNo) : (dropHold s l).oat = s.oat := rfl
@[simp] theorem dropHold_lc (s : State) (l : LineNo) : (dropHold s l).lc = s.lc := rfl
@[simp] theorem dropHold_watches (s : State) (l : LineNo) : (dropHold s l).watches = s.watches := rfl
@[simp] theorem dropHold_cal (s : State) (l : LineNo) : (dropHold s l).cal = s.cal := rfl
@[simp] theorem dropHold_pa (s : State) (l : LineNo) : (dropHold s l).pa = s.pa := rfl
@[simp] theorem dropHold_sup (s : State) (l : LineNo) : (dropHold s l).sup = s.sup := rfl
@[simp] theorem dropHold_pending (s : State) (l : LineNo) : (dropHold s l).pending = s.pending := rfl
@[simp] theorem dropHold_line_of (s : State) (l : LineNo) (k : LineNo) : (dropHold s l).line k = s.line k := rfl
@[simp] theorem dropHold_port_of (s : State) (l : LineNo) (k : PortNo) : (dropHold s l).port k = s.port k := rfl
@[simp] theorem dropHold_group_of (s : State) (l : LineNo) (k : GroupNo) : (dropHold s l).group k = s.group k := rfl
@[simp] theorem dropHold_entry_of (s : State) (l : LineNo) (k : EntryNo) : (dropHold s l).entry k = s.entry k := rfl

/-! ### raiseFailoverSpent -/

@[simp] theorem raiseFailoverSpent_store (s : State) (g : GroupNo) : (raiseFailoverSpent s g).store = s.store := rfl
@[simp] theorem raiseFailoverSpent_ctl (s : State) (g : GroupNo) : (raiseFailoverSpent s g).ctl = s.ctl := rfl
@[simp] theorem raiseFailoverSpent_oat (s : State) (g : GroupNo) : (raiseFailoverSpent s g).oat = s.oat := rfl
@[simp] theorem raiseFailoverSpent_lc (s : State) (g : GroupNo) : (raiseFailoverSpent s g).lc = s.lc := rfl
@[simp] theorem raiseFailoverSpent_watches (s : State) (g : GroupNo) : (raiseFailoverSpent s g).watches = s.watches := rfl
@[simp] theorem raiseFailoverSpent_cal (s : State) (g : GroupNo) : (raiseFailoverSpent s g).cal = s.cal := rfl
@[simp] theorem raiseFailoverSpent_pa (s : State) (g : GroupNo) : (raiseFailoverSpent s g).pa = s.pa := rfl
@[simp] theorem raiseFailoverSpent_sup (s : State) (g : GroupNo) : (raiseFailoverSpent s g).sup = s.sup := rfl
@[simp] theorem raiseFailoverSpent_pending (s : State) (g : GroupNo) : (raiseFailoverSpent s g).pending = s.pending := rfl
@[simp] theorem raiseFailoverSpent_line_of (s : State) (g : GroupNo) (k : LineNo) :
    (raiseFailoverSpent s g).line k = s.line k := rfl
@[simp] theorem raiseFailoverSpent_port_of (s : State) (g : GroupNo) (k : PortNo) :
    (raiseFailoverSpent s g).port k = s.port k := rfl
@[simp] theorem raiseFailoverSpent_group_of (s : State) (g : GroupNo) (k : GroupNo) :
    (raiseFailoverSpent s g).group k = s.group k := rfl
@[simp] theorem raiseFailoverSpent_entry_of (s : State) (g : GroupNo) (k : EntryNo) :
    (raiseFailoverSpent s g).entry k = s.entry k := rfl

/-! ### raiseNote -/

@[simp] theorem raiseNote_store (s : State) (l : LineNo) (w : WatchNo) : (raiseNote s l w).store = s.store := rfl
@[simp] theorem raiseNote_ctl (s : State) (l : LineNo) (w : WatchNo) : (raiseNote s l w).ctl = s.ctl := rfl
@[simp] theorem raiseNote_oat (s : State) (l : LineNo) (w : WatchNo) : (raiseNote s l w).oat = s.oat := rfl
@[simp] theorem raiseNote_lc (s : State) (l : LineNo) (w : WatchNo) : (raiseNote s l w).lc = s.lc := rfl
@[simp] theorem raiseNote_watches (s : State) (l : LineNo) (w : WatchNo) : (raiseNote s l w).watches = s.watches := rfl
@[simp] theorem raiseNote_cal (s : State) (l : LineNo) (w : WatchNo) : (raiseNote s l w).cal = s.cal := rfl
@[simp] theorem raiseNote_pa (s : State) (l : LineNo) (w : WatchNo) : (raiseNote s l w).pa = s.pa := rfl
@[simp] theorem raiseNote_sup (s : State) (l : LineNo) (w : WatchNo) : (raiseNote s l w).sup = s.sup := rfl
@[simp] theorem raiseNote_pending (s : State) (l : LineNo) (w : WatchNo) : (raiseNote s l w).pending = s.pending := rfl
@[simp] theorem raiseNote_line_of (s : State) (l : LineNo) (w : WatchNo) (k : LineNo) :
    (raiseNote s l w).line k = s.line k := rfl
@[simp] theorem raiseNote_port_of (s : State) (l : LineNo) (w : WatchNo) (k : PortNo) :
    (raiseNote s l w).port k = s.port k := rfl
@[simp] theorem raiseNote_group_of (s : State) (l : LineNo) (w : WatchNo) (k : GroupNo) :
    (raiseNote s l w).group k = s.group k := rfl
@[simp] theorem raiseNote_entry_of (s : State) (l : LineNo) (w : WatchNo) (k : EntryNo) :
    (raiseNote s l w).entry k = s.entry k := rfl

/-! ### requestMessage -/

@[simp] theorem requestMessage_store (s : State) (l : LineNo) (n : MsgNo) (k : Nat) :
    (requestMessage s l n k).store = s.store := rfl
@[simp] theorem requestMessage_ctl (s : State) (l : LineNo) (n : MsgNo) (k : Nat) :
    (requestMessage s l n k).ctl = s.ctl := rfl
@[simp] theorem requestMessage_oat (s : State) (l : LineNo) (n : MsgNo) (k : Nat) :
    (requestMessage s l n k).oat = s.oat := rfl
@[simp] theorem requestMessage_watches (s : State) (l : LineNo) (n : MsgNo) (k : Nat) :
    (requestMessage s l n k).watches = s.watches := rfl
@[simp] theorem requestMessage_cal (s : State) (l : LineNo) (n : MsgNo) (k : Nat) :
    (requestMessage s l n k).cal = s.cal := rfl
@[simp] theorem requestMessage_pa (s : State) (l : LineNo) (n : MsgNo) (k : Nat) : (requestMessage s l n k).pa = s.pa := rfl
@[simp] theorem requestMessage_sup (s : State) (l : LineNo) (n : MsgNo) (k : Nat) :
    (requestMessage s l n k).sup = s.sup := rfl
@[simp] theorem requestMessage_attn (s : State) (l : LineNo) (n : MsgNo) (k : Nat) :
    (requestMessage s l n k).attn = s.attn := rfl
@[simp] theorem requestMessage_pending (s : State) (l : LineNo) (n : MsgNo) (k : Nat) :
    (requestMessage s l n k).pending = s.pending := rfl
@[simp] theorem requestMessage_port_of (s : State) (l : LineNo) (n : MsgNo) (v : Nat) (k : PortNo) :
    (requestMessage s l n v).port k = s.port k := rfl
@[simp] theorem requestMessage_group_of (s : State) (l : LineNo) (n : MsgNo) (v : Nat) (k : GroupNo) :
    (requestMessage s l n v).group k = s.group k := rfl
@[simp] theorem requestMessage_entry_of (s : State) (l : LineNo) (n : MsgNo) (v : Nat) (k : EntryNo) :
    (requestMessage s l n v).entry k = s.entry k := rfl

/-! ### withdraw -/

@[simp] theorem withdraw_store (s : State) (l : LineNo) : (withdraw s l).store = s.store := rfl
@[simp] theorem withdraw_oat (s : State) (l : LineNo) : (withdraw s l).oat = s.oat := rfl
@[simp] theorem withdraw_lc (s : State) (l : LineNo) : (withdraw s l).lc = s.lc := rfl
@[simp] theorem withdraw_watches (s : State) (l : LineNo) : (withdraw s l).watches = s.watches := rfl
@[simp] theorem withdraw_cal (s : State) (l : LineNo) : (withdraw s l).cal = s.cal := rfl
@[simp] theorem withdraw_pa (s : State) (l : LineNo) : (withdraw s l).pa = s.pa := rfl
@[simp] theorem withdraw_sup (s : State) (l : LineNo) : (withdraw s l).sup = s.sup := rfl
@[simp] theorem withdraw_attn (s : State) (l : LineNo) : (withdraw s l).attn = s.attn := rfl
@[simp] theorem withdraw_pending (s : State) (l : LineNo) : (withdraw s l).pending = s.pending := rfl
@[simp] theorem withdraw_line_of (s : State) (l : LineNo) (k : LineNo) : (withdraw s l).line k = s.line k := rfl
@[simp] theorem withdraw_port_of (s : State) (l : LineNo) (k : PortNo) : (withdraw s l).port k = s.port k := rfl
@[simp] theorem withdraw_group_of (s : State) (l : LineNo) (k : GroupNo) : (withdraw s l).group k = s.group k := rfl
@[simp] theorem withdraw_entry_of (s : State) (l : LineNo) (k : EntryNo) : (withdraw s l).entry k = s.entry k := rfl

/-! ### markUncertain -/

@[simp] theorem markUncertain_store (s : State) : (markUncertain s).store = s.store := rfl
@[simp] theorem markUncertain_oat (s : State) : (markUncertain s).oat = s.oat := rfl
@[simp] theorem markUncertain_lc (s : State) : (markUncertain s).lc = s.lc := rfl
@[simp] theorem markUncertain_watches (s : State) : (markUncertain s).watches = s.watches := rfl
@[simp] theorem markUncertain_cal (s : State) : (markUncertain s).cal = s.cal := rfl
@[simp] theorem markUncertain_pa (s : State) : (markUncertain s).pa = s.pa := rfl
@[simp] theorem markUncertain_sup (s : State) : (markUncertain s).sup = s.sup := rfl
@[simp] theorem markUncertain_attn (s : State) : (markUncertain s).attn = s.attn := rfl
@[simp] theorem markUncertain_pending (s : State) : (markUncertain s).pending = s.pending := rfl
@[simp] theorem markUncertain_line_of (s : State) (k : LineNo) : (markUncertain s).line k = s.line k := rfl
@[simp] theorem markUncertain_port_of (s : State) (k : PortNo) : (markUncertain s).port k = s.port k := rfl
@[simp] theorem markUncertain_group_of (s : State) (k : GroupNo) : (markUncertain s).group k = s.group k := rfl
@[simp] theorem markUncertain_entry_of (s : State) (k : EntryNo) : (markUncertain s).entry k = s.entry k := rfl

/-! ### setPointer -/

@[simp] theorem setPointer_store (s : State) (c : RotationClass) : (setPointer s c).store = s.store := rfl
@[simp] theorem setPointer_oat (s : State) (c : RotationClass) : (setPointer s c).oat = s.oat := rfl
@[simp] theorem setPointer_lc (s : State) (c : RotationClass) : (setPointer s c).lc = s.lc := rfl
@[simp] theorem setPointer_watches (s : State) (c : RotationClass) : (setPointer s c).watches = s.watches := rfl
@[simp] theorem setPointer_cal (s : State) (c : RotationClass) : (setPointer s c).cal = s.cal := rfl
@[simp] theorem setPointer_pa (s : State) (c : RotationClass) : (setPointer s c).pa = s.pa := rfl
@[simp] theorem setPointer_sup (s : State) (c : RotationClass) : (setPointer s c).sup = s.sup := rfl
@[simp] theorem setPointer_attn (s : State) (c : RotationClass) : (setPointer s c).attn = s.attn := rfl
@[simp] theorem setPointer_pending (s : State) (c : RotationClass) : (setPointer s c).pending = s.pending := rfl
@[simp] theorem setPointer_line_of (s : State) (c : RotationClass) (k : LineNo) : (setPointer s c).line k = s.line k := rfl
@[simp] theorem setPointer_port_of (s : State) (c : RotationClass) (k : PortNo) : (setPointer s c).port k = s.port k := rfl
@[simp] theorem setPointer_group_of (s : State) (c : RotationClass) (k : GroupNo) :
    (setPointer s c).group k = s.group k := rfl
@[simp] theorem setPointer_entry_of (s : State) (c : RotationClass) (k : EntryNo) :
    (setPointer s c).entry k = s.entry k := rfl

/-! ### hitWatch -/

@[simp] theorem hitWatch_store (s : State) (w : WatchNo) (l : LineNo) : (hitWatch s w l).store = s.store := rfl
@[simp] theorem hitWatch_ctl (s : State) (w : WatchNo) (l : LineNo) : (hitWatch s w l).ctl = s.ctl := rfl
@[simp] theorem hitWatch_oat (s : State) (w : WatchNo) (l : LineNo) : (hitWatch s w l).oat = s.oat := rfl
@[simp] theorem hitWatch_lc (s : State) (w : WatchNo) (l : LineNo) : (hitWatch s w l).lc = s.lc := rfl
@[simp] theorem hitWatch_cal (s : State) (w : WatchNo) (l : LineNo) : (hitWatch s w l).cal = s.cal := rfl
@[simp] theorem hitWatch_pa (s : State) (w : WatchNo) (l : LineNo) : (hitWatch s w l).pa = s.pa := rfl
@[simp] theorem hitWatch_sup (s : State) (w : WatchNo) (l : LineNo) : (hitWatch s w l).sup = s.sup := rfl
@[simp] theorem hitWatch_attn (s : State) (w : WatchNo) (l : LineNo) : (hitWatch s w l).attn = s.attn := rfl
@[simp] theorem hitWatch_pending (s : State) (w : WatchNo) (l : LineNo) : (hitWatch s w l).pending = s.pending := rfl
@[simp] theorem hitWatch_line_of (s : State) (w : WatchNo) (l : LineNo) (k : LineNo) :
    (hitWatch s w l).line k = s.line k := rfl
@[simp] theorem hitWatch_port_of (s : State) (w : WatchNo) (l : LineNo) (k : PortNo) :
    (hitWatch s w l).port k = s.port k := rfl
@[simp] theorem hitWatch_group_of (s : State) (w : WatchNo) (l : LineNo) (k : GroupNo) :
    (hitWatch s w l).group k = s.group k := rfl
@[simp] theorem hitWatch_entry_of (s : State) (w : WatchNo) (l : LineNo) (k : EntryNo) :
    (hitWatch s w l).entry k = s.entry k := rfl

/-! ### enterSelecting -/

@[simp] theorem enterSelecting_store (s : State) (l : LineNo) : (enterSelecting s l).store = s.store := rfl
@[simp] theorem enterSelecting_ctl (s : State) (l : LineNo) : (enterSelecting s l).ctl = s.ctl := rfl
@[simp] theorem enterSelecting_oat (s : State) (l : LineNo) : (enterSelecting s l).oat = s.oat := rfl
@[simp] theorem enterSelecting_watches (s : State) (l : LineNo) : (enterSelecting s l).watches = s.watches := rfl
@[simp] theorem enterSelecting_cal (s : State) (l : LineNo) : (enterSelecting s l).cal = s.cal := rfl
@[simp] theorem enterSelecting_pa (s : State) (l : LineNo) : (enterSelecting s l).pa = s.pa := rfl
@[simp] theorem enterSelecting_sup (s : State) (l : LineNo) : (enterSelecting s l).sup = s.sup := rfl
@[simp] theorem enterSelecting_attn (s : State) (l : LineNo) : (enterSelecting s l).attn = s.attn := rfl
@[simp] theorem enterSelecting_pending (s : State) (l : LineNo) : (enterSelecting s l).pending = s.pending := rfl
@[simp] theorem enterSelecting_port_of (s : State) (l : LineNo) (k : PortNo) : (enterSelecting s l).port k = s.port k := rfl
@[simp] theorem enterSelecting_group_of (s : State) (l : LineNo) (k : GroupNo) :
    (enterSelecting s l).group k = s.group k := rfl
@[simp] theorem enterSelecting_entry_of (s : State) (l : LineNo) (k : EntryNo) :
    (enterSelecting s l).entry k = s.entry k := rfl

/-! ### removePlace -/

@[simp] theorem removePlace_store (s : State) (g : GroupNo) (l : LineNo) : (removePlace s g l).store = s.store := rfl
@[simp] theorem removePlace_ctl (s : State) (g : GroupNo) (l : LineNo) : (removePlace s g l).ctl = s.ctl := rfl
@[simp] theorem removePlace_oat (s : State) (g : GroupNo) (l : LineNo) : (removePlace s g l).oat = s.oat := rfl
@[simp] theorem removePlace_lc (s : State) (g : GroupNo) (l : LineNo) : (removePlace s g l).lc = s.lc := rfl
@[simp] theorem removePlace_watches (s : State) (g : GroupNo) (l : LineNo) : (removePlace s g l).watches = s.watches := rfl
@[simp] theorem removePlace_cal (s : State) (g : GroupNo) (l : LineNo) : (removePlace s g l).cal = s.cal := rfl
@[simp] theorem removePlace_sup (s : State) (g : GroupNo) (l : LineNo) : (removePlace s g l).sup = s.sup := rfl
@[simp] theorem removePlace_attn (s : State) (g : GroupNo) (l : LineNo) : (removePlace s g l).attn = s.attn := rfl
@[simp] theorem removePlace_pending (s : State) (g : GroupNo) (l : LineNo) : (removePlace s g l).pending = s.pending := rfl
@[simp] theorem removePlace_line_of (s : State) (g : GroupNo) (l : LineNo) (k : LineNo) :
    (removePlace s g l).line k = s.line k := rfl
@[simp] theorem removePlace_entry_of (s : State) (g : GroupNo) (l : LineNo) (k : EntryNo) :
    (removePlace s g l).entry k = s.entry k := rfl

/-! ### hangUp -/

@[simp] theorem hangUp_store (s : State) (p : PortNo) : (hangUp s p).store = s.store := rfl
@[simp] theorem hangUp_ctl (s : State) (p : PortNo) : (hangUp s p).ctl = s.ctl := rfl
@[simp] theorem hangUp_oat (s : State) (p : PortNo) : (hangUp s p).oat = s.oat := rfl
@[simp] theorem hangUp_lc (s : State) (p : PortNo) : (hangUp s p).lc = s.lc := rfl
@[simp] theorem hangUp_watches (s : State) (p : PortNo) : (hangUp s p).watches = s.watches := rfl
@[simp] theorem hangUp_cal (s : State) (p : PortNo) : (hangUp s p).cal = s.cal := rfl
@[simp] theorem hangUp_sup (s : State) (p : PortNo) : (hangUp s p).sup = s.sup := rfl
@[simp] theorem hangUp_attn (s : State) (p : PortNo) : (hangUp s p).attn = s.attn := rfl
@[simp] theorem hangUp_pending (s : State) (p : PortNo) : (hangUp s p).pending = s.pending := rfl
@[simp] theorem hangUp_line_of (s : State) (p : PortNo) (k : LineNo) : (hangUp s p).line k = s.line k := rfl
@[simp] theorem hangUp_entry_of (s : State) (p : PortNo) (k : EntryNo) : (hangUp s p).entry k = s.entry k := rfl

/-! ### Reading back what was written -/

theorem vector_get_set {α : Type} {n : Nat} (v : Vector α n) (i j : Fin n) (x : α) :
    (v.set i x).get j = if j = i then x else v.get j := by
  simp only [Vector.get_eq_getElem, Vector.getElem_set, Fin.ext_iff, eq_comm]

@[simp] theorem setLine_line (c : LineCtl) (l k : LineNo) (r : LineRec) :
    (c.setLine l r).line k = if k = l then r else c.line k := vector_get_set _ _ _ _

@[simp] theorem setLine_params (c : LineCtl) (l : LineNo) (r : LineRec) : (c.setLine l r).params = c.params := rfl
@[simp] theorem setLine_messages (c : LineCtl) (l : LineNo) (r : LineRec) : (c.setLine l r).messages = c.messages := rfl
@[simp] theorem setLine_bus (c : LineCtl) (l : LineNo) (r : LineRec) : (c.setLine l r).bus = c.bus := rfl

@[simp] theorem ctl_modLine_line (c : LineCtl) (l k : LineNo) (f : LineRec → LineRec) :
    (c.modLine l f).line k = if k = l then f (c.line l) else c.line k := vector_get_set _ _ _ _

@[simp] theorem ctl_modLine_params (c : LineCtl) (l : LineNo) (f : LineRec → LineRec) :
    (c.modLine l f).params = c.params := rfl
@[simp] theorem ctl_modLine_messages (c : LineCtl) (l : LineNo) (f : LineRec → LineRec) :
    (c.modLine l f).messages = c.messages := rfl
@[simp] theorem ctl_modLine_bus (c : LineCtl) (l : LineNo) (f : LineRec → LineRec) : (c.modLine l f).bus = c.bus := rfl

@[simp] theorem issue_line (c : LineCtl) (cmd : LineCmd) (l : LineNo) : (c.issue cmd).line l = c.line l := rfl
@[simp] theorem issue_params (c : LineCtl) (cmd : LineCmd) : (c.issue cmd).params = c.params := rfl
@[simp] theorem issue_messages (c : LineCtl) (cmd : LineCmd) : (c.issue cmd).messages = c.messages := rfl
@[simp] theorem issue_bus (c : LineCtl) (cmd : LineCmd) : (c.issue cmd).bus = c.bus ++ [cmd] := rfl

@[simp] theorem modLine_line (s : State) (l k : LineNo) (f : LineRec → LineRec) :
    (s.modLine l f).line k = if k = l then f (s.line l) else s.line k := vector_get_set _ _ _ _

@[simp] theorem modLine_params (s : State) (l : LineNo) (f : LineRec → LineRec) :
    (s.modLine l f).lc.params = s.lc.params := rfl
@[simp] theorem modLine_messages (s : State) (l : LineNo) (f : LineRec → LineRec) :
    (s.modLine l f).lc.messages = s.lc.messages := rfl
@[simp] theorem modLine_bus (s : State) (l : LineNo) (f : LineRec → LineRec) : (s.modLine l f).lc.bus = s.lc.bus := rfl

@[simp] theorem onLines_line (s : State) (f : LineCtl → LineCtl) (k : LineNo) : (s.onLines f).line k = (f s.lc).line k := rfl
@[simp] theorem onLines_lc (s : State) (f : LineCtl → LineCtl) : (s.onLines f).lc = f s.lc := rfl

@[simp] theorem modPort_port (s : State) (p k : PortNo) (f : PortRec → PortRec) :
    (s.modPort p f).port k = if k = p then f (s.port p) else s.port k := vector_get_set _ _ _ _
@[simp] theorem modPort_group (s : State) (p : PortNo) (f : PortRec → PortRec) (g : GroupNo) :
    (s.modPort p f).group g = s.group g := rfl
@[simp] theorem modPort_bus (s : State) (p : PortNo) (f : PortRec → PortRec) : (s.modPort p f).pa.bus = s.pa.bus := rfl

@[simp] theorem issuePort_port (s : State) (c : PortCmd) (p : PortNo) : (s.issuePort c).port p = s.port p := rfl
@[simp] theorem issuePort_group (s : State) (c : PortCmd) (g : GroupNo) : (s.issuePort c).group g = s.group g := rfl
@[simp] theorem issuePort_bus (s : State) (c : PortCmd) : (s.issuePort c).pa.bus = s.pa.bus ++ [c] := rfl

@[simp] theorem modGroup_group (s : State) (g k : GroupNo) (f : GroupRec → GroupRec) :
    (s.modGroup g f).group k = if k = g then f (s.group g) else s.group k := vector_get_set _ _ _ _
@[simp] theorem modGroup_port (s : State) (g : GroupNo) (f : GroupRec → GroupRec) (p : PortNo) :
    (s.modGroup g f).port p = s.port p := rfl
@[simp] theorem modGroup_bus (s : State) (g : GroupNo) (f : GroupRec → GroupRec) : (s.modGroup g f).pa.bus = s.pa.bus := rfl

@[simp] theorem setEntry_entry (s : State) (e k : EntryNo) (x : Option OatEntry) :
    (s.setEntry e x).entry k = if k = e then x else s.entry k := vector_get_set _ _ _ _
@[simp] theorem setEntry_list (s : State) (e : EntryNo) (x : Option OatEntry) :
    (s.setEntry e x).oat.writeBackList = s.oat.writeBackList := rfl

@[simp] theorem modEntry_entry (s : State) (e k : EntryNo) (f : OatEntry → OatEntry) :
    (s.modEntry e f).entry k = if k = e then (s.entry e).map f else s.entry k := vector_get_set _ _ _ _
@[simp] theorem modEntry_list (s : State) (e : EntryNo) (f : OatEntry → OatEntry) :
    (s.modEntry e f).oat.writeBackList = s.oat.writeBackList := rfl

@[simp] theorem onCtl_ctl (s : State) (f : StoreCtl → StoreCtl) : (s.onCtl f).ctl = f s.ctl := rfl
@[simp] theorem onCal_cal (s : State) (f : Calendar → Calendar) : (s.onCal f).cal = f s.cal := rfl
@[simp] theorem onSup_sup (s : State) (f : SupPort → SupPort) : (s.onSup f).sup = f s.sup := rfl
@[simp] theorem onAttention_attn (s : State) (f : Attention → Attention) : (s.onAttention f).attn = f s.attn := rfl

@[simp] theorem respond_response (s : State) (c : Code) (k : Bool) (b : List Byte) :
    (respond s c k b).sup.response = responseFrame c k b := rfl
@[simp] theorem respond_busy (s : State) (c : Code) (k : Bool) (b : List Byte) : (respond s c k b).sup.busy = false := rfl
@[simp] theorem respond_ready (s : State) (c : Code) (k : Bool) (b : List Byte) : (respond s c k b).sup.ready = true := rfl

end Sys2Proof.Machine
end

