-- ==== Sys2Proof/Laws/Ops.lean ====
section
/-! SUPPORT. For each shared operation, what it can do, said once: messages and releases of one line, and what the end of a call
touches. What it leaves of its line stands in Laws/Ending.lean. -/
namespace Sys2Proof.Machine

/-! ## Messages and characters of one line -/

/-- One Line Controller differs from another in one line's record and in commands issued; on that line only the messages, the
transmitter flag, the port-to-line slot, the phase and the stage timer. -/
structure SpeaksOnly (l : LineNo) (c c' : LineCtl) : Prop where
  params : c'.params = c.params
  messages : c'.messages = c.messages
  others : ∀ k, k ≠ l → c'.line k = c.line k
  line : ∃ phase stage current pending busy slot, c'.line l =
    { c.line l with
      phase := phase, stageTimer := stage, current := current, pending := pending, txBusy := busy, portToLine := slot }

theorem SpeaksOnly.refl (l : LineNo) (c : LineCtl) : SpeaksOnly l c c := ⟨rfl, rfl, fun _ _ => rfl, _, _, _, _, _, _, rfl⟩

theorem SpeaksOnly.trans {l : LineNo} {a b c : LineCtl} (h : SpeaksOnly l a b) (k : SpeaksOnly l b c) : SpeaksOnly l a c := by
  obtain ⟨p, st, cu, pe, bu, sl, hl⟩ := h.line
  obtain ⟨p', st', cu', pe', bu', sl', kl⟩ := k.line
  exact ⟨k.params.trans h.params, k.messages.trans h.messages, fun j hj => (k.others j hj).trans (h.others j hj),
    p', st', cu', pe', bu', sl', by rw [kl, hl]⟩

/-- A change of the message fields of a record alone. -/
theorem speaksOnly_modLine {l : LineNo} {c : LineCtl} {f : LineRec → LineRec}
    (h : ∃ phase stage current pending busy slot, f (c.line l) =
      { c.line l with
        phase := phase, stageTimer := stage, current := current, pending := pending, txBusy := busy, portToLine := slot }) :
    SpeaksOnly l c (c.modLine l f) := by
  refine ⟨rfl, rfl, fun k hk => ?_, ?_⟩
  · simp [hk]
  · simpa using h

theorem speaksOnly_issue (l : LineNo) (c : LineCtl) (cmd : LineCmd) : SpeaksOnly l c (c.issue cmd) :=
  ⟨rfl, rfl, fun _ _ => rfl, _, _, _, _, _, _, rfl⟩

theorem speaksOnly_transmit (l : LineNo) (c : LineCtl) (ch : Byte) : SpeaksOnly l c (c.transmit l ch) :=
  (speaksOnly_modLine (l := l) (c := c) ⟨_, _, _, _, _, _, rfl⟩).trans (speaksOnly_issue l _ _)

theorem speaksOnly_sendNext (l : LineNo) (c : LineCtl) : SpeaksOnly l c (c.sendNext l) := by
  unfold LineCtl.sendNext
  split
  · exact .refl l c
  · split
    · exact .refl l c
    · exact (speaksOnly_modLine (l := l) (c := c) ⟨_, _, _, _, _, _, rfl⟩).trans (speaksOnly_transmit l _ _)

theorem speaksOnly_release (l : LineNo) (c : LineCtl) : SpeaksOnly l c (c.release l) :=
  (speaksOnly_issue l c _).trans (speaksOnly_modLine ⟨_, _, _, _, _, _, rfl⟩)

theorem speaksOnly_beginMessage (l : LineNo) (c : LineCtl) (n : MsgNo) (k : Nat) : SpeaksOnly l c (c.beginMessage l n k) := by
  unfold LineCtl.beginMessage
  simp only
  split
  · exact speaksOnly_modLine ⟨_, _, _, _, _, _, rfl⟩
  · have h := speaksOnly_modLine (l := l) (c := c) (f := fun r => { r with
      current := some { number := n, inserted := k, text := expandText (c.messages.get n) k, position := 0 } })
      ⟨_, _, _, _, _, _, rfl⟩
    split
    · exact h
    · exact h.trans (speaksOnly_sendNext l _)

theorem speaksOnly_sendSlot (l : LineNo) (c : LineCtl) : SpeaksOnly l c (c.sendSlot l) := by
  unfold LineCtl.sendSlot
  split
  · exact (speaksOnly_modLine (l := l) (c := c) ⟨_, _, _, _, _, _, rfl⟩).trans (speaksOnly_transmit l _ _)
  · exact .refl l c

theorem speaksOnly_request (l : LineNo) (c : LineCtl) (n : MsgNo) (k : Nat) : SpeaksOnly l c (c.request l n k) := by
  unfold LineCtl.request
  split
  · exact speaksOnly_beginMessage l c n k
  · exact speaksOnly_modLine ⟨_, _, _, _, _, _, rfl⟩

theorem speaksOnly_beginGoodbye (l : LineNo) (c : LineCtl) (k : Nat) : SpeaksOnly l c (c.beginGoodbye l k) := by
  unfold LineCtl.beginGoodbye
  split
  · exact speaksOnly_release l c
  · exact (speaksOnly_modLine (l := l) (c := c) ⟨_, _, _, _, _, _, rfl⟩).trans (speaksOnly_beginMessage l _ _ _)

theorem speaksOnly_boundary (l : LineNo) (c : LineCtl) : SpeaksOnly l c (c.boundary l) := by
  unfold LineCtl.boundary
  simp only
  split
  · exact speaksOnly_beginGoodbye l c _
  · split
    · split
      · exact speaksOnly_sendNext l c
      · split
        · exact speaksOnly_release l c
        · split
          · have h := (speaksOnly_modLine (l := l) (c := c) (f := fun r => { r with current := none, pending := none })
              ⟨_, _, _, _, _, _, rfl⟩).trans (speaksOnly_beginMessage l _ (by assumption : PendingMsg).number
                (by assumption : PendingMsg).inserted)
            split
            · exact h.trans (speaksOnly_sendSlot l _)
            · exact h
          · exact (speaksOnly_modLine (l := l) (c := c) ⟨_, _, _, _, _, _, rfl⟩).trans (speaksOnly_sendSlot l _)
    · exact speaksOnly_sendSlot l c

theorem speaksOnly_requestGoodbye (l : LineNo) (c : LineCtl) (k : Nat) : SpeaksOnly l c (c.requestGoodbye l k) := by
  unfold LineCtl.requestGoodbye
  have h := speaksOnly_modLine (l := l) (c := c) (f := fun r => { r with pending := some { number := 15, inserted := k } })
    ⟨_, _, _, _, _, _, rfl⟩
  split
  · exact h
  · exact h.trans (speaksOnly_boundary l _)

/-- A message request leaves the phase, the stage timer and the slot of its line. -/
theorem request_line (l : LineNo) (c : LineCtl) (n : MsgNo) (k : Nat) :
    ∃ current pending busy, (c.request l n k).line l =
      { c.line l with current := current, pending := pending, txBusy := busy } := by
  have e : ∀ f : LineRec → LineRec, (∃ current pending busy, f (c.line l) =
      { c.line l with current := current, pending := pending, txBusy := busy }) →
      ∃ current pending busy, (c.modLine l f).line l =
        { c.line l with current := current, pending := pending, txBusy := busy } := by
    intro f hf; simpa using hf
  unfold LineCtl.request
  split
  · unfold LineCtl.beginMessage
    simp only
    split
    · exact e _ ⟨_, _, _, rfl⟩
    · split
      · exact e _ ⟨_, _, _, rfl⟩
      · unfold LineCtl.sendNext
        split
        · exact e _ ⟨_, _, _, rfl⟩
        · split
          · exact e _ ⟨_, _, _, rfl⟩
          · rename_i m _ _ ch _
            refine ⟨some { m with position := m.position + 1 }, (c.line l).pending, true, ?_⟩
            simp only [LineCtl.transmit, issue_line, ctl_modLine_line, if_true]
  · exact e _ ⟨_, _, _, rfl⟩

/-! ## What the end of a call, and the Meter's actions, leave -/

/-- What the end of a call touches on no line and in no block: the store, the calendar, the supervisor port, the settings, the
Account Store Controller but for withdrawn sign-on operations, the attention items but for HOLD and NOTE, and of each line the
account number, the selected group, the attempt number and the carrier. A HANG_UP once issued stays on the host port bus. -/
structure EndKeeps (s t : State) : Prop where
  store : t.store = s.store
  cal : t.cal = s.cal
  pending : t.pending = s.pending
  sup : t.sup = s.sup
  params : t.lc.params = s.lc.params
  messages : t.lc.messages = s.lc.messages
  ctl : t.ctl = { s.ctl with signOnQueue := t.ctl.signOnQueue }
  queue : ∀ op ∈ t.ctl.signOnQueue, op ∈ s.ctl.signOnQueue
  hold : ∀ l : LineNo, t.attn.hold.get l = true → s.attn.hold.get l = true
  attn : t.attn = { s.attn with hold := t.attn.hold, notes := t.attn.notes }
  account : ∀ l, (t.line l).account = (s.line l).account
  selectedGroup : ∀ l, (t.line l).selectedGroup = (s.line l).selectedGroup
  attempt : ∀ l, (t.line l).attempt = (s.line l).attempt
  carrier : ∀ l, (t.line l).carrier = (s.line l).carrier
  hangUp : ∀ p, PortCmd.hangUp p ∈ s.pa.bus → PortCmd.hangUp p ∈ t.pa.bus

theorem EndKeeps.refl (s : State) : EndKeeps s s :=
  ⟨rfl, rfl, rfl, rfl, rfl, rfl, rfl, fun _ h => h, fun _ h => h, rfl, fun _ => rfl, fun _ => rfl, fun _ => rfl, fun _ => rfl,
    fun _ h => h⟩

theorem EndKeeps.trans {a b c : State} (h : EndKeeps a b) (k : EndKeeps b c) : EndKeeps a c where
  store := k.store.trans h.store
  cal := k.cal.trans h.cal
  pending := k.pending.trans h.pending
  sup := k.sup.trans h.sup
  params := k.params.trans h.params
  messages := k.messages.trans h.messages
  ctl := by rw [k.ctl, h.ctl]
  queue := fun op ho => h.queue op (k.queue op ho)
  hold := fun l hl => h.hold l (k.hold l hl)
  attn := by rw [k.attn, h.attn]
  account := fun l => (k.account l).trans (h.account l)
  selectedGroup := fun l => (k.selectedGroup l).trans (h.selectedGroup l)
  attempt := fun l => (k.attempt l).trans (h.attempt l)
  carrier := fun l => (k.carrier l).trans (h.carrier l)
  hangUp := fun p hp => k.hangUp p (h.hangUp p hp)

theorem EndKeeps.foldl {α : Type} {f : State → α → State} (h : ∀ s a, EndKeeps s (f s a)) (xs : List α) (s : State) :
    EndKeeps s (xs.foldl f s) := by
  induction xs generalizing s with
  | nil => exact .refl s
  | cons x xs ih => exact (h s x).trans (ih _)

/-- A change of the Line Controller that keeps the settings and four fields of every line. -/
theorem endKeeps_onLines {s : State} {f : LineCtl → LineCtl} (hp : (f s.lc).params = s.lc.params)
    (hm : (f s.lc).messages = s.lc.messages)
    (hl : ∀ l, ((f s.lc).line l).account = (s.lc.line l).account ∧
      ((f s.lc).line l).selectedGroup = (s.lc.line l).selectedGroup ∧
      ((f s.lc).line l).attempt = (s.lc.line l).attempt ∧ ((f s.lc).line l).carrier = (s.lc.line l).carrier) :
    EndKeeps s (s.onLines f) :=
  { EndKeeps.refl s with
    params := hp, messages := hm, account := fun l => (hl l).1, selectedGroup := fun l => (hl l).2.1,
    attempt := fun l => (hl l).2.2.1, carrier := fun l => (hl l).2.2.2 }

theorem endKeeps_speaks {s : State} {l : LineNo} {f : LineCtl → LineCtl} (h : SpeaksOnly l s.lc (f s.lc)) :
    EndKeeps s (s.onLines f) := by
  refine endKeeps_onLines h.params h.messages fun k => ?_
  by_cases hk : k = l
  · subst hk
    obtain ⟨_, _, _, _, _, _, e⟩ := h.line
    rw [e]; exact ⟨rfl, rfl, rfl, rfl⟩
  · rw [h.others k hk]; exact ⟨rfl, rfl, rfl, rfl⟩

theorem endKeeps_requestMessage (s : State) (l : LineNo) (n : MsgNo) (k : Nat) : EndKeeps s (requestMessage s l n k) :=
  endKeeps_speaks (speaksOnly_request l s.lc n k)

theorem endKeeps_modLine {s : State} {l : LineNo} {f : LineRec → LineRec}
    (h : (f (s.line l)).account = (s.line l).account ∧ (f (s.line l)).selectedGroup = (s.line l).selectedGroup ∧
      (f (s.line l)).attempt = (s.line l).attempt ∧ (f (s.line l)).carrier = (s.line l).carrier) :
    EndKeeps s (s.modLine l f) := by
  refine endKeeps_onLines rfl rfl fun k => ?_
  by_cases hk : k = l
  · subst hk; simpa [State.line] using h
  · simp [hk]

theorem endKeeps_oat (s : State) (o : OatCtl) : EndKeeps s { s with oat := o } := { EndKeeps.refl s with }

theorem endKeeps_modPort (s : State) (p : PortNo) (f : PortRec → PortRec) : EndKeeps s (s.modPort p f) :=
  { EndKeeps.refl s with }

theorem endKeeps_modGroup (s : State) (g : GroupNo) (f : GroupRec → GroupRec) : EndKeeps s (s.modGroup g f) :=
  { EndKeeps.refl s with }

theorem endKeeps_issuePort (s : State) (c : PortCmd) : EndKeeps s (s.issuePort c) :=
  { EndKeeps.refl s with hangUp := fun _ h => List.mem_append_left _ h }

/-- Dropping the character commands of a line leaves every HANG_UP where it is. -/
theorem hangUp_mem_dropSlotCommands (l : LineNo) (p : PortNo) (cs : List PortCmd) :
    PortCmd.hangUp p ∈ dropSlotCommands l cs ↔ PortCmd.hangUp p ∈ cs := by
  cases cs with
  | nil => rfl
  | cons c cs =>
    simp only [dropSlotCommands, List.mem_cons, List.mem_filter, and_true]
    refine or_congr ?_ Iff.rfl
    cases c with
    | txChar _ _ k => cases k <;> simp
    | call => rfl
    | hangUp => rfl

theorem endKeeps_dropSlots (s : State) (l : LineNo) :
    EndKeeps s { s with pa := { s.pa with bus := dropSlotCommands l s.pa.bus } } :=
  { EndKeeps.refl s with hangUp := fun _ h => (hangUp_mem_dropSlotCommands l _ _).2 h }

theorem endKeeps_hangUp (s : State) (p : PortNo) : EndKeeps s (hangUp s p) :=
  (endKeeps_modPort s p _).trans (endKeeps_issuePort _ _)

theorem endKeeps_queueEntry (s : State) (e : EntryNo) : EndKeeps s (queueEntry s e) := by
  unfold queueEntry
  split
  · exact .refl s
  · exact { EndKeeps.refl s with }

theorem endKeeps_leaveEntry (s : State) (e : EntryNo) : EndKeeps s (leaveEntry s e) := by
  unfold leaveEntry
  split
  · exact .refl s
  · split
    · split
      · exact endKeeps_oat s _
      · exact (endKeeps_oat s _).trans (endKeeps_queueEntry _ e)
    · exact endKeeps_oat s _

theorem endKeeps_postCredit (s : State) (e : EntryNo) (l : LineNo) (c : Category) : EndKeeps s (postCredit s e l c) :=
  (endKeeps_oat s _).trans (endKeeps_modLine ⟨rfl, rfl, rfl, rfl⟩)

theorem endKeeps_postCredits (s : State) (e : EntryNo) (l : LineNo) (c : Category) (n : Nat) :
    EndKeeps s (postCredits s e l c n) := by
  induction n generalizing s with
  | zero => exact .refl s
  | succ n ih => exact (endKeeps_postCredit s e l c).trans (ih _)

theorem endKeeps_countSecond (s : State) (l : LineNo) (e : EntryNo) (st : AdmittedStage) :
    EndKeeps s (countSecond s l e st) := by
  unfold countSecond
  have h := endKeeps_modLine (s := s) (l := l) (f := fun r => { r with admittedSeconds := satSucc max24 r.admittedSeconds })
    ⟨rfl, rfl, rfl, rfl⟩
  split
  · exact h.trans ((endKeeps_modLine (l := l) ⟨rfl, rfl, rfl, rfl⟩).trans (endKeeps_oat _ _))
  · exact h

theorem endKeeps_chargeSecond (s : State) (v : View) (l : LineNo) (e : EntryNo) (st : AdmittedStage) :
    EndKeeps s (chargeSecond s v l e st) := by
  unfold chargeSecond
  have h := endKeeps_countSecond s l e st
  split
  · exact h.trans (endKeeps_modLine ⟨rfl, rfl, rfl, rfl⟩)
  · split
    · exact h
    · exact h.trans ((endKeeps_modLine (l := l) ⟨rfl, rfl, rfl, rfl⟩).trans (endKeeps_postCredits _ e l _ _))

theorem endKeeps_warnLow (s : State) (e : EntryNo) : EndKeeps s (warnLow s e) := by
  unfold warnLow
  refine EndKeeps.foldl (fun s l => ?_) _ s
  split
  · exact .refl s
  · exact (endKeeps_requestMessage s l _ _).trans (endKeeps_modLine ⟨rfl, rfl, rfl, rfl⟩)

theorem endKeeps_cancelExhaustion (s : State) (e : EntryNo) : EndKeeps s (cancelExhaustion s e) :=
  EndKeeps.foldl (fun _ _ => endKeeps_modLine ⟨rfl, rfl, rfl, rfl⟩) _ s

theorem endKeeps_beginExhaustion {endNow : State → LineNo → State} (h : ∀ s l, EndKeeps s (endNow s l)) (s : State)
    (e : EntryNo) : EndKeeps s (beginExhaustion endNow s e) := by
  unfold beginExhaustion
  refine EndKeeps.foldl (fun s l => ?_) _ s
  split
  · exact .refl s
  · have k := (endKeeps_modLine (s := s) (l := l)
      (f := fun r => { r with exhaustion := some (s.policy (s.lineClass l)).exhaustionGrace }) ⟨rfl, rfl, rfl, rfl⟩).trans
      (endKeeps_requestMessage _ l 11 (s.policy (s.lineClass l)).exhaustionGrace)
    simp only
    split
    · exact k.trans (h _ l)
    · exact k

theorem endKeeps_creditAction {endNow : State → LineNo → State} (h : ∀ s l, EndKeeps s (endNow s l)) (s : State)
    (e : EntryNo) (old : CreditState) : EndKeeps s (creditAction endNow s e old) := by
  unfold creditAction
  split
  · exact .refl s
  · split <;> first
      | exact .refl s
      | exact endKeeps_warnLow s e
      | exact endKeeps_beginExhaustion h s e
      | exact endKeeps_cancelExhaustion s e
      | exact (endKeeps_cancelExhaustion s e).trans (endKeeps_warnLow _ e)

theorem endKeeps_offerPort (s : State) (p : PortNo) (l : LineNo) (st : AdmittedStage) : EndKeeps s (offerPort s p l st) := by
  unfold offerPort
  exact (endKeeps_modPort s p _).trans ((endKeeps_modLine (l := l) ⟨rfl, rfl, rfl, rfl⟩).trans (endKeeps_issuePort _ _))

theorem endKeeps_serveQueue (s : State) (p : PortNo) : EndKeeps s (serveQueue s p) := by
  unfold serveQueue
  split
  · exact .refl s
  · split
    · split
      · exact .refl s
      · exact (endKeeps_modGroup s _ _).trans (endKeeps_offerPort _ p _ _)
    · exact .refl s

theorem endKeeps_portByReady (s : State) (p : PortNo) : EndKeeps s (portByReady s p) := by
  unfold portByReady
  split
  · exact (endKeeps_modPort s p _).trans (endKeeps_serveQueue _ p)
  · exact endKeeps_modPort s p _

theorem endKeeps_releasePort (s : State) (p : PortNo) (l : LineNo) (out : Bool) : EndKeeps s (releasePort s p l out) := by
  unfold releasePort
  have h : EndKeeps s ((hangUp s p).modLine l (fun r => { r with port := none })) :=
    (endKeeps_hangUp s p).trans (endKeeps_modLine ⟨rfl, rfl, rfl, rfl⟩)
  simp only
  split
  · exact h.trans (endKeeps_modPort _ p _)
  · exact h.trans (endKeeps_portByReady _ p)

theorem endKeeps_examineWatches (s : State) (k : WatchKind) (n : Nat) (l : LineNo) (held : Bool) :
    EndKeeps s (examineWatches s k n l held) := by
  unfold examineWatches
  refine EndKeeps.foldl (fun s w => ?_) _ s
  simp only
  split
  · split
    · exact { EndKeeps.refl s with }
    · exact { EndKeeps.refl s with attn := rfl }
  · exact .refl s

theorem endKeeps_writeSummary (s : State) (l : LineNo) (cause : EndCause) (admitted : Bool) :
    EndKeeps s (writeSummary s l cause admitted) := endKeeps_modLine ⟨rfl, rfl, rfl, rfl⟩

theorem endKeeps_dropHold (s : State) (l : LineNo) : EndKeeps s (dropHold s l) :=
  { EndKeeps.refl s with
    attn := rfl
    hold := fun k hk => by
      rw [dropHold, onAttention_attn, vector_get_set] at hk
      split at hk
      · cases hk
      · exact hk }

theorem endKeeps_withdraw (s : State) (l : LineNo) : EndKeeps s (withdraw s l) :=
  { EndKeeps.refl s with ctl := rfl, queue := fun _ h => (List.mem_filter.1 h).1 }

theorem endKeeps_emptySlots (s : State) (l : LineNo) : EndKeeps s (emptySlots s l) :=
  (endKeeps_modLine (l := l) ⟨rfl, rfl, rfl, rfl⟩).trans (endKeeps_dropSlots _ l)

theorem endKeeps_dropCounts (s : State) (l : LineNo) : EndKeeps s (dropCounts s l) :=
  (((endKeeps_dropHold s l).trans (endKeeps_withdraw _ l)).trans (endKeeps_emptySlots _ l)).trans
    (endKeeps_modLine ⟨rfl, rfl, rfl, rfl⟩)

theorem endKeeps_closeMeter {act : State → EntryNo → CreditState → State} (h : ∀ s e o, EndKeeps s (act s e o)) (s : State)
    (l : LineNo) (e : EntryNo) (st : AdmittedStage) (ended : Option View) : EndKeeps s (closeMeter act s l e st ended) := by
  have tail : ∀ s1 : State, EndKeeps s1 ((if Config.roundUp ≤ (s1.line l).residue then
      match (s1.line l).lastCategory with
      | none => s1
      | some c => act (postCredit s1 e l c) e (s1.creditOf e)
      else s1).modLine l (fun r => { r with residue := 0 })) := by
    intro s1
    refine EndKeeps.trans ?_ (endKeeps_modLine ⟨rfl, rfl, rfl, rfl⟩)
    split
    · split
      · exact .refl _
      · exact (endKeeps_postCredit _ e l _).trans (h _ _ _)
    · exact .refl _
  cases ended with
  | none => exact tail s
  | some v => exact ((endKeeps_chargeSecond s v l e st).trans (h _ _ _)).trans (tail _)

theorem endKeeps_settleSession {act : State → EntryNo → CreditState → State} (h : ∀ s e o, EndKeeps s (act s e o)) (s : State)
    (l : LineNo) (st : AdmittedStage) (ended : Option View) : EndKeeps s (settleSession act s l st ended) := by
  have tail : ∀ s1 : State, EndKeeps s1 (match (s.line l).account with
      | none => s1
      | some n => examineWatches s1 .sessionEnd n l false) := by
    intro s1
    split
    · exact .refl _
    · exact endKeeps_examineWatches _ _ _ _ _
  unfold settleSession
  cases hr : (s.line l).entryRef with
  | none => exact tail s
  | some e =>
    exact (((endKeeps_closeMeter h s l _ st ended).trans (endKeeps_modLine ⟨rfl, rfl, rfl, rfl⟩)).trans
        (endKeeps_leaveEntry _ _)).trans (tail _)

theorem endKeeps_settleClaims (s : State) (l : LineNo) (out : Bool) : EndKeeps s (settleClaims s l out) := by
  have k0 := endKeeps_modLine (s := s) (l := l) (f := fun r => { r with phase := .closing }) ⟨rfl, rfl, rfl, rfl⟩
  have ports : EndKeeps s (match (s.line l).port with
      | none => s.modLine l (fun r => { r with phase := .closing })
      | some p => releasePort (s.modLine l (fun r => { r with phase := .closing })) p l out) := by
    split
    · exact k0
    · exact k0.trans (endKeeps_releasePort _ _ l out)
  unfold settleClaims
  simp only
  split
  · exact ports.trans (endKeeps_modGroup _ _ _)
  · exact ports

theorem endKeeps_settleWork {act : State → EntryNo → CreditState → State} (h : ∀ s e o, EndKeeps s (act s e o)) (s : State)
    (l : LineNo) (out : Bool) (ended : Option View) : EndKeeps s (settleWork act s l out ended) := by
  unfold settleWork
  split
  · exact (endKeeps_settleClaims s l out).trans (endKeeps_settleSession h _ l _ ended)
  · exact endKeeps_settleClaims s l out

theorem endKeeps_settle {act : State → EntryNo → CreditState → State} (h : ∀ s e o, EndKeeps s (act s e o)) (s : State)
    (l : LineNo) (cause : EndCause) (out : Bool) (ended : Option View) : EndKeeps s (settle act s l cause out ended) :=
  (endKeeps_settleWork h s l out ended).trans ((endKeeps_writeSummary _ _ _ _).trans (endKeeps_dropCounts _ _))

theorem endKeeps_enterClosing (s : State) (l : LineNo) (k : Nat) : EndKeeps s (enterClosing s l k) := by
  unfold enterClosing
  have h := endKeeps_modLine (s := s) (l := l) (f := fun r => { r with stageTimer := some Config.closingLimit })
    ⟨rfl, rfl, rfl, rfl⟩
  simp only
  split
  · exact h.trans (endKeeps_speaks (speaksOnly_requestGoodbye l _ k))
  · exact h.trans (endKeeps_speaks (speaksOnly_release l _))

theorem endKeeps_endCallWith {act : State → EntryNo → CreditState → State} (h : ∀ s e o, EndKeeps s (act s e o)) (s : State)
    (l : LineNo) (cause : EndCause) (out : Bool) (ended : Option View) : EndKeeps s (endCallWith act s l cause out ended) := by
  unfold endCallWith
  split
  · exact (endKeeps_settle h s l cause out ended).trans (endKeeps_enterClosing _ _ _)
  · exact .refl s

theorem endKeeps_meterAction (co : EndedSecond) (s : State) (e : EntryNo) (old : CreditState) :
    EndKeeps s (meterAction co s e old) :=
  endKeeps_creditAction (fun s l => endKeeps_endCallWith (fun s _ _ => .refl s) s l _ _ _) s e old

theorem endKeeps_endCall (co : EndedSecond) (s : State) (l : LineNo) (cause : EndCause) (out : Bool) :
    EndKeeps s (endCall co s l cause out) := endKeeps_endCallWith (endKeeps_meterAction co) s l cause out _

/-! ## Transfers of the buses -/

/-- A transfer taken from the line scanner bus queues its event, or nothing where its code names none (R52). -/
theorem takeLineTransfer_spec (s : State) (t : LineTransfer) :
    s.takeLineTransfer t = { s with pending := s.pending ++ t.event.toList } := by
  unfold State.takeLineTransfer State.offered; cases t.event <;> simp

/-- A transfer taken from the host port bus queues its event, or nothing where its code names none (R147). -/
theorem takePortTransfer_spec (s : State) (t : PortTransfer) :
    s.takePortTransfer t = { s with pending := s.pending ++ t.event.toList } := by
  unfold State.takePortTransfer State.offered; cases t.event <;> simp

/-! ## The moments of a second event -/

@[simp] theorem takeMoments_nil (v : View) (owed : List LineNo) (s : State) : takeMoments v owed [] s = meterSteps v owed s := rfl

@[simp] theorem takeMoments_cons (v : View) (owed : List LineNo) (m : SecondMoment) (ms : List SecondMoment) (s : State) :
    takeMoments v owed (m :: ms) s = takeMoments v (owedAfter owed m) ms (takeMoment v owed s m) := rfl

/-- A line that is not ADMITTED has no step (R122). -/
theorem meterStep_of_not_admitted (co : EndedSecond) (v : View) (s : State) (l : LineNo)
    (h : (s.line l).phase.isAdmitted = false) : meterStep co v s l = s := by
  unfold meterStep
  cases hp : (s.line l).phase <;> simp_all [Phase.isAdmitted]

/-- A line that is owed no step takes none at a moment that names it (R122, R123). -/
theorem takeMoment_step_of_not_owed (v : View) (owed : List LineNo) (s : State) (l : LineNo) (h : l ∉ owed) :
    takeMoment v owed s (.step l) = s := by
  simp [takeMoment, h]

/-- An expiry of a line that is owed its step and whose countdown the Meter keeps is not taken before the step (R136, R141). -/
theorem takeMoment_expiry_of_owed (v : View) (owed : List LineNo) (s : State) (l : LineNo) (h : l ∈ owed) :
    takeMoment v owed s (.expiry (.exhaustion l)) = s ∧ takeMoment v owed s (.expiry (.hours l)) = s := by
  simp [takeMoment, mayExpire, h]

end Sys2Proof.Machine
end

