-- ==== Sys2Proof/Laws/Ending.lean ====
section
/-! SUPPORT. What the end of a call leaves of its line: the goodbye, the closing summary and the port (R58, R70, R184 to R192). -/
namespace Sys2Proof.Machine

/-! ## The goodbye -/

theorem decimal_ne_nil (n : Nat) : decimal n ≠ [] := by
  simp [decimal]

/-- Only the empty text expands to nothing. -/
theorem expandText_eq_nil_iff {text : List Byte} {n : Nat} : expandText text n = [] ↔ text = [] := by
  cases text with
  | nil => simp [expandText]
  | cons c cs => simp only [expandText]; split <;> simp [decimal_ne_nil]

/-- What a goodbye requested on a line in CLOSING leaves of the line (R58, R70): it waits for the character that is going out, or
is current with its first character sent, or, without characters, has released the line. -/
theorem requestGoodbye_line (l : LineNo) (c : LineCtl) (k : Nat) (hp : (c.line l).phase = .closing) :
    ((c.line l).txBusy = true →
      (c.requestGoodbye l k).line l = { c.line l with pending := some { number := 15, inserted := k } }) ∧
    ((c.line l).txBusy = false → c.messages.get 15 ≠ [] →
      (c.requestGoodbye l k).line l =
        { c.line l with
          txBusy := true, pending := none,
          current := some { number := 15, inserted := k, text := expandText (c.messages.get 15) k, position := 1 } } ∧
      ∃ ch, (expandText (c.messages.get 15) k).head? = some ch ∧
        (c.requestGoodbye l k).bus.getLast? = some (.txChar l ch)) ∧
    ((c.line l).txBusy = false → c.messages.get 15 = [] →
      (c.requestGoodbye l k).line l =
        { c.line l with phase := .guard, stageTimer := some 5, current := none, pending := none } ∧
      (c.requestGoodbye l k).bus.getLast? = some (.release l)) := by
  refine ⟨fun h => ?_, fun h he => ?_, fun h he => ?_⟩
  · simp [LineCtl.requestGoodbye, h]
  · obtain ⟨ch, cs, hx⟩ := List.exists_cons_of_ne_nil (mt (expandText_eq_nil_iff (n := k)).1 he)
    simp [LineCtl.requestGoodbye, LineCtl.boundary, LineCtl.beginGoodbye, LineCtl.beginMessage, LineCtl.sendNext,
      LineCtl.transmit, h, hp, hx]
  · simp [LineCtl.requestGoodbye, LineCtl.boundary, LineCtl.beginGoodbye, LineCtl.release, h, hp, he, expandText,
      Config.guardTime]

/-! ## A line at rest: in CLOSING, with no queue place -/

/-- A line whose settlement has taken its port and its queue place: it is in CLOSING and no queue holds a place of it. -/
def AtRest (l : LineNo) (s : State) : Prop :=
  (s.line l).phase = .closing ∧ ∀ g, ∀ q ∈ (s.group g).queue, q.line ≠ l

/-- A line at rest stays at rest, and its transmitter and current message are left alone. -/
def Rests (l : LineNo) (s t : State) : Prop :=
  AtRest l s → AtRest l t ∧ (t.line l).txBusy = (s.line l).txBusy ∧ (t.line l).current = (s.line l).current

theorem Rests.refl (l : LineNo) (s : State) : Rests l s s := fun h => ⟨h, rfl, rfl⟩

theorem Rests.trans {l : LineNo} {a b c : State} (h : Rests l a b) (k : Rests l b c) : Rests l a c := fun ha =>
  have ⟨hb, x, y⟩ := h ha
  have ⟨hc, x', y'⟩ := k hb
  ⟨hc, x'.trans x, y'.trans y⟩

/-- A change that leaves the line's record and every queue. -/
theorem rests_of_eq {l : LineNo} {s t : State} (hl : t.line l = s.line l) (hg : ∀ g, (t.group g).queue = (s.group g).queue) :
    Rests l s t := fun h => ⟨⟨hl ▸ h.1, fun g => (hg g) ▸ h.2 g⟩, by rw [hl], by rw [hl]⟩

theorem rests_modLine_other {l k : LineNo} (hk : k ≠ l) (s : State) (f : LineRec → LineRec) : Rests l s (s.modLine k f) :=
  rests_of_eq (by simp [hk.symm]) fun _ => rfl

/-- A change of any record that keeps its phase, its transmitter and its current message. -/
theorem rests_modLine {l k : LineNo} {s : State} {f : LineRec → LineRec}
    (h : (f (s.line k)).phase = (s.line k).phase ∧ (f (s.line k)).txBusy = (s.line k).txBusy ∧
      (f (s.line k)).current = (s.line k).current) : Rests l s (s.modLine k f) := by
  by_cases hk : k = l
  · subst hk
    intro hr
    exact ⟨⟨by rw [modLine_line, if_pos rfl, h.1]; exact hr.1, hr.2⟩, by simp [h.2.1], by simp [h.2.2]⟩
  · exact rests_modLine_other hk s f

theorem rests_modPort (l : LineNo) (s : State) (p : PortNo) (f : PortRec → PortRec) : Rests l s (s.modPort p f) :=
  rests_of_eq rfl fun _ => rfl

theorem rests_issuePort (l : LineNo) (s : State) (c : PortCmd) : Rests l s (s.issuePort c) := rests_of_eq rfl fun _ => rfl

theorem rests_oat (l : LineNo) (s : State) (o : OatCtl) : Rests l s { s with oat := o } := rests_of_eq rfl fun _ => rfl

/-- A queue that only loses places. -/
theorem rests_modGroup {l : LineNo} {s : State} {g : GroupNo} {f : GroupRec → GroupRec}
    (h : ∀ q ∈ (f (s.group g)).queue, q ∈ (s.group g).queue) : Rests l s (s.modGroup g f) := by
  refine fun hr => ⟨⟨hr.1, fun k q hq => ?_⟩, rfl, rfl⟩
  rw [State.group, State.modGroup, vector_get_set] at hq
  split at hq
  · exact hr.2 g q (h q hq)
  · exact hr.2 k q hq

theorem rests_speaks {l k : LineNo} (hk : k ≠ l) {s : State} {f : LineCtl → LineCtl} (h : SpeaksOnly k s.lc (f s.lc)) :
    Rests l s (s.onLines f) := rests_of_eq (h.others l hk.symm) fun _ => rfl

theorem rests_requestMessage {l k : LineNo} (hk : k ≠ l) (s : State) (n : MsgNo) (i : Nat) :
    Rests l s (requestMessage s k n i) := rests_speaks hk (speaksOnly_request k s.lc n i)

/-- What is done for every session of an entry is not done for a line at rest. -/
theorem Rests.foldl_sessions {l : LineNo} {f : State → LineNo → State} (h : ∀ s k, k ≠ l → Rests l s (f s k)) (s : State)
    (e : EntryNo) : Rests l s ((s.sessions e).foldl f s) := by
  intro hr
  have hm : ∀ k ∈ s.sessions e, k ≠ l := by
    rintro k hk rfl
    simp [State.sessions, hr.1, Phase.isAdmitted] at hk
  revert hr hm
  generalize s.sessions e = xs
  intro hr hm
  suffices Rests l s (xs.foldl f s) from this hr
  clear hr
  induction xs generalizing s with
  | nil => exact .refl l s
  | cons x xs ih => exact (h s x (hm x (by simp))).trans (ih _ fun k hk => hm k (by simp [hk]))

theorem rests_queueEntry (l : LineNo) (s : State) (e : EntryNo) : Rests l s (queueEntry s e) := by
  unfold queueEntry
  split
  · exact .refl l s
  · exact rests_of_eq rfl fun _ => rfl

theorem rests_leaveEntry (l : LineNo) (s : State) (e : EntryNo) : Rests l s (leaveEntry s e) := by
  unfold leaveEntry
  split
  · exact .refl l s
  · split
    · split
      · exact rests_oat l s _
      · exact (rests_oat l s _).trans (rests_queueEntry l _ e)
    · exact rests_oat l s _

theorem rests_postCredit (l : LineNo) (s : State) (e : EntryNo) (k : LineNo) (c : Category) :
    Rests l s (postCredit s e k c) := (rests_oat l s _).trans (rests_modLine ⟨rfl, rfl, rfl⟩)

theorem rests_postCredits (l : LineNo) (s : State) (e : EntryNo) (k : LineNo) (c : Category) (n : Nat) :
    Rests l s (postCredits s e k c n) := by
  induction n generalizing s with
  | zero => exact .refl l s
  | succ n ih => exact (rests_postCredit l s e k c).trans (ih _)

theorem rests_countSecond (l : LineNo) (s : State) (k : LineNo) (e : EntryNo) (st : AdmittedStage) :
    Rests l s (countSecond s k e st) := by
  unfold countSecond
  have h := rests_modLine (l := l) (k := k) (s := s)
    (f := fun r => { r with admittedSeconds := satSucc max24 r.admittedSeconds }) ⟨rfl, rfl, rfl⟩
  split
  · exact h.trans ((rests_modLine (k := k) ⟨rfl, rfl, rfl⟩).trans (rests_oat l _ _))
  · exact h

theorem rests_chargeSecond (l : LineNo) (s : State) (v : View) (k : LineNo) (e : EntryNo) (st : AdmittedStage) :
    Rests l s (chargeSecond s v k e st) := by
  unfold chargeSecond
  have h := rests_countSecond l s k e st
  split
  · exact h.trans (rests_modLine ⟨rfl, rfl, rfl⟩)
  · split
    · exact h
    · exact h.trans ((rests_modLine (k := k) ⟨rfl, rfl, rfl⟩).trans (rests_postCredits l _ e k _ _))

theorem rests_warnLow (l : LineNo) (s : State) (e : EntryNo) : Rests l s (warnLow s e) := by
  unfold warnLow
  refine Rests.foldl_sessions (fun s k hk => ?_) s e
  split
  · exact .refl l s
  · exact (rests_requestMessage hk s _ _).trans (rests_modLine_other hk _ _)

theorem rests_cancelExhaustion (l : LineNo) (s : State) (e : EntryNo) : Rests l s (cancelExhaustion s e) :=
  Rests.foldl_sessions (fun _ _ hk => rests_modLine_other hk _ _) s e

theorem rests_beginExhaustion {l : LineNo} {endNow : State → LineNo → State} (h : ∀ s k, Rests l s (endNow s k)) (s : State)
    (e : EntryNo) : Rests l s (beginExhaustion endNow s e) := by
  unfold beginExhaustion
  refine Rests.foldl_sessions (fun s k hk => ?_) s e
  split
  · exact .refl l s
  · have r := (rests_modLine_other hk s (fun r =>
      { r with exhaustion := some (s.policy (s.lineClass k)).exhaustionGrace })).trans
      (rests_requestMessage hk _ 11 (s.policy (s.lineClass k)).exhaustionGrace)
    simp only
    split
    · exact r.trans (h _ k)
    · exact r

theorem rests_creditAction {l : LineNo} {endNow : State → LineNo → State} (h : ∀ s k, Rests l s (endNow s k)) (s : State)
    (e : EntryNo) (old : CreditState) : Rests l s (creditAction endNow s e old) := by
  unfold creditAction
  split
  · exact .refl l s
  · split <;> first
      | exact .refl l s
      | exact rests_warnLow l s e
      | exact rests_beginExhaustion h s e
      | exact rests_cancelExhaustion l s e
      | exact (rests_cancelExhaustion l s e).trans (rests_warnLow l _ e)

theorem rests_offerPort {l k : LineNo} (hk : k ≠ l) (s : State) (p : PortNo) (st : AdmittedStage) :
    Rests l s (offerPort s p k st) := by
  unfold offerPort
  exact (rests_modPort l s p _).trans ((rests_modLine_other hk _ _).trans (rests_issuePort l _ _))

/-- A port handed to the head of a queue is not handed to a line at rest, which has no place there. -/
theorem rests_serveQueue (l : LineNo) (s : State) (p : PortNo) : Rests l s (serveQueue s p) := by
  unfold serveQueue
  split
  · exact .refl l s
  · split
    · split
      · exact .refl l s
      · rename_i q rest hq
        refine fun hr => Rests.trans (rests_modGroup fun x hx => ?_) (rests_offerPort (hr.2 _ q (by rw [hq]; simp)) _ p _) hr
        rw [hq]
        exact List.mem_cons_of_mem _ hx
    · exact .refl l s

theorem rests_portByReady (l : LineNo) (s : State) (p : PortNo) : Rests l s (portByReady s p) := by
  unfold portByReady
  split
  · exact (rests_modPort l s p _).trans (rests_serveQueue l _ p)
  · exact rests_modPort l s p _

theorem rests_releasePort (l : LineNo) (s : State) (p : PortNo) (k : LineNo) (out : Bool) :
    Rests l s (releasePort s p k out) := by
  unfold releasePort
  have h : Rests l s ((hangUp s p).modLine k (fun r => { r with port := none })) :=
    ((rests_modPort l s p _).trans (rests_issuePort l _ _)).trans (rests_modLine ⟨rfl, rfl, rfl⟩)
  simp only
  split
  · exact h.trans (rests_modPort l _ p _)
  · exact h.trans (rests_portByReady l _ p)

theorem examineWatches_lc_pa (s : State) (w : WatchKind) (n : Nat) (k : LineNo) (held : Bool) :
    (examineWatches s w n k held).lc = s.lc ∧ (examineWatches s w n k held).pa = s.pa := by
  unfold examineWatches
  generalize allWatches = ws
  induction ws generalizing s with
  | nil => exact ⟨rfl, rfl⟩
  | cons x xs ih =>
    refine ⟨(ih _).1.trans ?_, (ih _).2.trans ?_⟩ <;> (simp only; split <;> (try split) <;> rfl)

theorem rests_examineWatches (l : LineNo) (s : State) (w : WatchKind) (n : Nat) (k : LineNo) (held : Bool) :
    Rests l s (examineWatches s w n k held) := by
  have h := examineWatches_lc_pa s w n k held
  exact rests_of_eq (by simp [State.line, h.1]) fun g => by simp [State.group, h.2]

theorem rests_writeSummary (l : LineNo) (s : State) (k : LineNo) (cause : EndCause) (admitted : Bool) :
    Rests l s (writeSummary s k cause admitted) := by
  unfold writeSummary
  exact rests_modLine ⟨rfl, rfl, rfl⟩

theorem rests_emptySlots (l : LineNo) (s : State) (k : LineNo) : Rests l s (emptySlots s k) :=
  (rests_modLine (k := k) (f := fun r => { r with lineToPort := none, portToLine := none }) ⟨rfl, rfl, rfl⟩).trans
    (rests_of_eq rfl fun _ => rfl)

theorem rests_dropCounts (l : LineNo) (s : State) (k : LineNo) : Rests l s (dropCounts s k) := by
  have h : Rests l s (emptySlots (withdraw (dropHold s k) k) k) :=
    (rests_of_eq (t := withdraw (dropHold s k) k) rfl fun _ => rfl).trans (rests_emptySlots l _ k)
  intro hr
  refine h.trans ?_ hr
  by_cases hk : k = l
  · subst hk
    exact rests_modLine ⟨(h hr).1.1.symm, rfl, rfl⟩
  · exact rests_modLine_other hk _ _

theorem rests_closeMeter {l : LineNo} {act : State → EntryNo → CreditState → State} (h : ∀ s e o, Rests l s (act s e o))
    (s : State) (k : LineNo) (e : EntryNo) (st : AdmittedStage) (ended : Option View) :
    Rests l s (closeMeter act s k e st ended) := by
  have tail : ∀ s1 : State, Rests l s1 ((if Config.roundUp ≤ (s1.line k).residue then
      match (s1.line k).lastCategory with
      | none => s1
      | some c => act (postCredit s1 e k c) e (s1.creditOf e)
      else s1).modLine k (fun r => { r with residue := 0 })) := by
    intro s1
    refine Rests.trans ?_ (rests_modLine ⟨rfl, rfl, rfl⟩)
    split
    · split
      · exact .refl l _
      · exact (rests_postCredit l _ e k _).trans (h _ _ _)
    · exact .refl l _
  cases ended with
  | none => exact tail s
  | some v => exact ((rests_chargeSecond l s v k e st).trans (h _ _ _)).trans (tail _)

theorem rests_settleSession {l : LineNo} {act : State → EntryNo → CreditState → State} (h : ∀ s e o, Rests l s (act s e o))
    (s : State) (k : LineNo) (st : AdmittedStage) (ended : Option View) : Rests l s (settleSession act s k st ended) := by
  have tail : ∀ s1 : State, Rests l s1 (match (s.line k).account with
      | none => s1
      | some n => examineWatches s1 .sessionEnd n k false) := by
    intro s1
    split
    · exact .refl l _
    · exact rests_examineWatches l _ _ _ _ _
  unfold settleSession
  cases hr : (s.line k).entryRef with
  | none => exact tail s
  | some e =>
    exact (((rests_closeMeter h s k _ st ended).trans (rests_modLine ⟨rfl, rfl, rfl⟩)).trans (rests_leaveEntry l _ _)).trans
      (tail _)

theorem rests_settleClaims {l k : LineNo} (hk : k ≠ l) (s : State) (out : Bool) : Rests l s (settleClaims s k out) := by
  have h0 := rests_modLine_other hk s (fun r => { r with phase := .closing })
  have ports : Rests l s (match (s.line k).port with
      | none => s.modLine k (fun r => { r with phase := .closing })
      | some p => releasePort (s.modLine k (fun r => { r with phase := .closing })) p k out) := by
    split
    · exact h0
    · exact h0.trans (rests_releasePort l _ _ k out)
  unfold settleClaims
  simp only
  split
  · exact ports.trans (rests_modGroup fun q hq => (List.mem_filter.1 hq).1)
  · exact ports

theorem rests_settle_of_claims {l k : LineNo} {act : State → EntryNo → CreditState → State} (h : ∀ s e o, Rests l s (act s e o))
    {s : State} (cause : EndCause) {out : Bool} (ended : Option View) (hc : Rests l s (settleClaims s k out)) :
    Rests l s (settle act s k cause out ended) := by
  refine Rests.trans ?_ ((rests_writeSummary l _ k cause _).trans (rests_dropCounts l _ k))
  unfold settleWork
  split
  · exact hc.trans (rests_settleSession h _ k _ ended)
  · exact hc

theorem rests_endCallWith {act : State → EntryNo → CreditState → State} {l : LineNo} (h : ∀ s e o, Rests l s (act s e o))
    (s : State) (k : LineNo) (cause : EndCause) (out : Bool) (ended : Option View) :
    Rests l s (endCallWith act s k cause out ended) := by
  unfold endCallWith
  by_cases hk : k = l
  · subst hk
    intro hr
    rw [if_neg (by simp [hr.1, Phase.inCall])]
    exact Rests.refl k s hr
  · split
    · refine (rests_settle_of_claims h cause ended (rests_settleClaims hk s out)).trans ?_
      unfold enterClosing
      simp only
      split
      · exact (rests_modLine_other hk _ _).trans (rests_speaks hk (speaksOnly_requestGoodbye k _ _))
      · exact (rests_modLine_other hk _ _).trans (rests_speaks hk (speaksOnly_release k _))
    · exact .refl l s

theorem rests_meterAction (l : LineNo) (co : EndedSecond) (s : State) (e : EntryNo) (old : CreditState) :
    Rests l s (meterAction co s e old) :=
  rests_creditAction (fun s k => rests_endCallWith (fun s _ _ => .refl l s) s k _ _ _) s e old

/-! ## Settlement of one line -/

/-- A line whose only queue place is the one it waits in, and which then names no port: its settlement takes both (R156, R161). -/
def SettlesAlone (s : State) (l : LineNo) : Prop :=
  (∀ g, ∀ q ∈ (s.group g).queue, q.line = l → (s.line l).phase = .admitted .waiting ∧ (s.line l).selectedGroup = some g) ∧
    ((s.line l).phase = .admitted .waiting → (s.line l).port = none)

theorem LinksLawful.settlesAlone {s : State} (h : LinksLawful s) (l : LineNo) : SettlesAlone s l := by
  obtain ⟨-, -, hq, -, hl⟩ := h
  refine ⟨fun g q hm he => (hq.2 g l).1 (List.mem_map.2 ⟨q, hm, he⟩), fun hw => ?_⟩
  have := (hl l).1
  rw [hw] at this
  simpa [Phase.holdsPort] using this

/-- Parts 1 and 2 of settlement leave the line at rest, its transmitter and current message as they were. -/
theorem settleClaims_atRest {s : State} {l : LineNo} (h : SettlesAlone s l) (out : Bool) :
    AtRest l (settleClaims s l out) ∧ ((settleClaims s l out).line l).txBusy = (s.line l).txBusy ∧
      ((settleClaims s l out).line l).current = (s.line l).current := by
  have h0 : ((s.modLine l (fun r => { r with phase := .closing })).line l).phase = .closing ∧
      ((s.modLine l (fun r => { r with phase := .closing })).line l).txBusy = (s.line l).txBusy ∧
      ((s.modLine l (fun r => { r with phase := .closing })).line l).current = (s.line l).current := by simp
  by_cases hw : (s.line l).phase = .admitted .waiting
  · cases hg : (s.line l).selectedGroup with
    | none =>
      simp only [settleClaims, h.2 hw, hw, hg]
      refine ⟨⟨h0.1, fun g q hq he => ?_⟩, h0.2⟩
      have := (h.1 g q hq he).2
      rw [hg] at this
      cases this
    | some g =>
      simp only [settleClaims, h.2 hw, hw, hg]
      refine ⟨⟨h0.1, fun k q hq he => ?_⟩, h0.2⟩
      rw [removePlace, State.group, State.modGroup, vector_get_set] at hq
      split at hq
      · simpa [he] using (List.mem_filter.1 hq).2
      · rename_i hk
        have := (h.1 k q hq he).2
        rw [hg] at this
        exact hk (Option.some.inj this).symm
  · have ha : AtRest l (s.modLine l (fun r => { r with phase := .closing })) :=
      ⟨h0.1, fun g q hq he => hw (h.1 g q hq he).1⟩
    have hs : settleClaims s l out = match (s.line l).port with
        | none => s.modLine l (fun r => { r with phase := .closing })
        | some p => releasePort (s.modLine l (fun r => { r with phase := .closing })) p l out := by
      unfold settleClaims
      simp only
      split
      · exact absurd (by assumption) hw
      · rfl
    rw [hs]
    split
    · exact ⟨ha, h0.2⟩
    · obtain ⟨a, b, c⟩ := rests_releasePort l _ _ l out ha
      exact ⟨a, b.trans h0.2.1, c.trans h0.2.2⟩

/-- Settlement leaves the transmitter and the current message of its line. -/
theorem settle_atRest {act : State → EntryNo → CreditState → State} {s : State} {l : LineNo}
    (h : ∀ s e o, Rests l s (act s e o)) (hs : SettlesAlone s l) (cause : EndCause) (out : Bool) (ended : Option View) :
    ((settle act s l cause out ended).line l).txBusy = (s.line l).txBusy ∧
      ((settle act s l cause out ended).line l).current = (s.line l).current := by
  obtain ⟨ha, hb, hc⟩ := settleClaims_atRest hs out
  have hw : AtRest l (settleWork act s l out ended) ∧ ((settleWork act s l out ended).line l).txBusy = (s.line l).txBusy ∧
      ((settleWork act s l out ended).line l).current = (s.line l).current := by
    unfold settleWork
    split
    · obtain ⟨a, b, c⟩ := rests_settleSession h _ l (by assumption : AdmittedStage) ended ha
      exact ⟨a, b.trans hb, c.trans hc⟩
    · exact ⟨ha, hb, hc⟩
  obtain ⟨-, b, c⟩ := ((rests_writeSummary l _ l cause (s.line l).phase.isAdmitted).trans (rests_dropCounts l _ l)) hw.1
  exact ⟨b.trans hw.2.1, c.trans hw.2.2⟩

/-! ## The end of a call -/

/-- What settlement leaves of its line. -/
theorem settle_line (act : State → EntryNo → CreditState → State) (s : State) (l : LineNo) (cause : EndCause) (out : Bool)
    (ended : Option View) :
    (settle act s l cause out ended).line l =
      { (settleWork act s l out ended).line l with
        phase := .closing, port := none, entryRef := none, entryBuffer := [], stageTimer := none, holdTimer := none,
        carrierHold := none, idleCount := none, exhaustion := none, hours := none, idleWarning := none,
        lineToPort := none, portToLine := none,
        summary := ((writeSummary (settleWork act s l out ended) l cause (s.line l).phase.isAdmitted).line l).summary } := by
  simp [settle, dropCounts, emptySlots, writeSummary, State.line, State.modLine, State.onLines, withdraw, dropHold,
    State.onAttention]

/-- A port released is sent HANG_UP (R161). -/
theorem hangUp_mem_releasePort (s : State) (p : PortNo) (l : LineNo) (out : Bool) :
    PortCmd.hangUp p ∈ (releasePort s p l out).pa.bus := by
  have h : PortCmd.hangUp p ∈ ((hangUp s p).modLine l (fun r => { r with port := none })).pa.bus := by
    simp [hangUp, State.issuePort]
  unfold releasePort
  simp only
  split
  · exact h
  · exact (endKeeps_portByReady _ p).hangUp p h

/-- Settlement sends HANG_UP to the port its line names (R161, R186). -/
theorem hangUp_mem_settle {act : State → EntryNo → CreditState → State} (h : ∀ s e o, EndKeeps s (act s e o)) {s : State}
    {l : LineNo} {p : PortNo} (hp : (s.line l).port = some p) (cause : EndCause) (out : Bool) (ended : Option View) :
    PortCmd.hangUp p ∈ (settle act s l cause out ended).pa.bus := by
  have hc : PortCmd.hangUp p ∈ (settleClaims s l out).pa.bus := by
    unfold settleClaims
    simp only [hp]
    split <;> exact hangUp_mem_releasePort _ p l out
  have hw : PortCmd.hangUp p ∈ (settleWork act s l out ended).pa.bus := by
    unfold settleWork
    split
    · exact (endKeeps_settleSession h _ l _ ended).hangUp p hc
    · exact hc
  exact ((endKeeps_writeSummary _ l cause _).trans (endKeeps_dropCounts _ l)).hangUp p hw

/-- The end of a call sends HANG_UP to the port its line names (R161, R186). -/
theorem hangUp_mem_endCall (co : EndedSecond) {s : State} {l : LineNo} {p : PortNo} (hc : (s.line l).phase.inCall = true)
    (hp : (s.line l).port = some p) (cause : EndCause) (out : Bool) : PortCmd.hangUp p ∈ (endCall co s l cause out).pa.bus := by
  rw [endCall, endCallWith, if_pos hc]
  exact (endKeeps_enterClosing _ l _).hangUp p (hangUp_mem_settle (endKeeps_meterAction co) hp cause out _)

/-- The life in CLOSING begins (R58): what is left of the line, by its carrier, its transmitter and the text of message 15. -/
theorem enterClosing_line (s : State) (l : LineNo) (k : Nat) (hp : (s.line l).phase = .closing) :
    ((s.line l).carrier = true → (s.line l).txBusy = true →
      (enterClosing s l k).line l = { s.line l with stageTimer := some 10, pending := some { number := 15, inserted := k } }) ∧
    ((s.line l).carrier = true → (s.line l).txBusy = false → s.lc.messages.get 15 ≠ [] →
      (enterClosing s l k).line l =
        { s.line l with
          stageTimer := some 10, txBusy := true, pending := none,
          current := some { number := 15, inserted := k, text := expandText (s.lc.messages.get 15) k, position := 1 } } ∧
      ∃ ch, (expandText (s.lc.messages.get 15) k).head? = some ch ∧
        (enterClosing s l k).lc.bus.getLast? = some (.txChar l ch)) ∧
    ((s.line l).carrier = true → (s.line l).txBusy = false → s.lc.messages.get 15 = [] →
      (enterClosing s l k).line l =
        { s.line l with phase := .guard, stageTimer := some 5, current := none, pending := none } ∧
      (enterClosing s l k).lc.bus.getLast? = some (.release l)) ∧
    ((s.line l).carrier = false →
      (enterClosing s l k).line l =
        { s.line l with phase := .guard, stageTimer := some 5, current := none, pending := none } ∧
      (enterClosing s l k).lc.bus.getLast? = some (.release l)) := by
  have hl : (s.modLine l (fun r => { r with stageTimer := some 10 })).lc.line l = { s.line l with stageTimer := some 10 } := by
    show (s.modLine l _).line l = _
    rw [modLine_line, if_pos rfl]
  have hm : (s.modLine l (fun r => { r with stageTimer := some 10 })).lc.messages = s.lc.messages := rfl
  have hg := requestGoodbye_line l (s.modLine l (fun r => { r with stageTimer := some 10 })).lc k (by rw [hl]; exact hp)
  rw [hl, hm] at hg
  have ht : (s.line l).carrier = true → enterClosing s l k =
      (s.modLine l (fun r => { r with stageTimer := some 10 })).onLines (fun c => c.requestGoodbye l k) := fun h => by
    simp [enterClosing, h, Config.closingLimit]
  refine ⟨fun h b => ?_, fun h b e => ?_, fun h b e => ?_, fun h => ?_⟩
  · rw [ht h]; exact hg.1 b
  · rw [ht h]; exact hg.2.1 b e
  · rw [ht h]; exact hg.2.2 b e
  · have hr : enterClosing s l k =
        (s.modLine l (fun r => { r with stageTimer := some 10 })).onLines (fun c => c.release l) := by
      simp [enterClosing, h, Config.closingLimit]
    rw [hr]
    exact ⟨by simp [LineCtl.release, Config.guardTime, State.line, State.modLine, State.onLines], by simp [LineCtl.release]⟩

/-- What settlement leaves of its line, with the closing summary (R185 to R192). -/
theorem settle_left {act : State → EntryNo → CreditState → State} (h : ∀ s e o, EndKeeps s (act s e o)) (s : State)
    (l : LineNo) (cause : EndCause) (out : Bool) (ended : Option View) :
    let was := s.line l
    let d := settle act s l cause out ended
    let now := d.line l
    now.phase = .closing ∧ now.port = none ∧ now.entryRef = none ∧ now.entryBuffer = [] ∧ now.holdTimer = none ∧
    now.carrierHold = none ∧ now.idleCount = none ∧ now.exhaustion = none ∧ now.hours = none ∧ now.idleWarning = none ∧
    now.lineToPort = none ∧ now.portToLine = none ∧ now.account = was.account ∧ now.selectedGroup = was.selectedGroup ∧
    now.attempt = was.attempt ∧ now.carrier = was.carrier ∧
    now.summary = some
      { account := was.account, cause := cause,
        admittedSeconds := if was.phase.isAdmitted then now.admittedSeconds else 0,
        connectedSeconds := if was.phase.isAdmitted then now.connectedSeconds else 0,
        credits := if was.phase.isAdmitted then now.charged else 0, minute := s.cal.view.minute } ∧
    (∀ op ∈ d.ctl.signOnQueue, op.line ≠ l) ∧ d.attn.hold.get l = false := by
  have kw := endKeeps_settleWork h s l out ended
  have hq : ∀ op ∈ (settle act s l cause out ended).ctl.signOnQueue, op.line ≠ l := fun op ho => by
    simp only [settle, dropCounts, modLine_ctl, emptySlots, withdraw] at ho
    simpa using (List.mem_filter.1 ho).2
  have hh : (settle act s l cause out ended).attn.hold.get l = false := by
    simp [settle, dropCounts, emptySlots, dropHold, vector_get_set]
  simp only [settle_line, hh, true_and, and_true]
  exact ⟨kw.account l, kw.selectedGroup l, kw.attempt l, kw.carrier l, by simp [writeSummary, kw.account, kw.cal], hq⟩

/-- The goodbye of a line whose settlement took its port and its queue place (R70): it waits exactly where a character is going
out, and that message stays current until then. -/
def GoodbyeTaken (s t : State) (l : LineNo) : Prop :=
  ((s.line l).txBusy = true → GoodbyeWaits s t l ∧ (t.line l).current = (s.line l).current) ∧
    ((s.line l).txBusy = false → s.lc.messages.get 15 ≠ [] → GoodbyeSpoken s t l) ∧
    ((s.line l).txBusy = false → s.lc.messages.get 15 = [] → ReleasedAtEnd t l)

/-- The end of a call (R184): what is left of the line; the goodbye is taken as GoodbyeTaken says also in states that are lawful
but for the port, as at a port loss. -/
theorem endCallWith_ended {act : State → EntryNo → CreditState → State} (h : ∀ s e o, EndKeeps s (act s e o)) (s : State)
    (l : LineNo) (hr : ∀ s e o, Rests l s (act s e o)) (cause : EndCause) (out : Bool) (ended : Option View)
    (hc : (s.line l).phase.inCall = true) :
    CallEnded cause s (endCallWith act s l cause out ended) l ∧
      (SettlesAlone s l → (s.line l).carrier = true → GoodbyeTaken s (endCallWith act s l cause out ended) l) := by
  have e0 : endCallWith act s l cause out ended = enterClosing (settle act s l cause out ended) l
      (if (s.line l).phase.isAdmitted then ((settle act s l cause out ended).line l).charged else 0) := by
    simp [endCallWith, hc]
  have hl := settle_left h s l cause out ended
  have hx : SettlesAlone s l → _ := fun hs => settle_atRest hr hs cause out ended
  have hs : LinksLawful s → SettlesAlone s l := fun hs => hs.settlesAlone l
  have hp : ∀ p, (s.line l).port = some p → _ := fun p hp => hangUp_mem_settle h hp cause out ended
  have ks := endKeeps_settle h s l cause out ended
  rw [e0]
  revert hl hx hp ks
  generalize settle act s l cause out ended = d
  intro hl hx hp ks
  obtain ⟨h1, h2, h3, h4, h5, h6, h7, h8, h9, h10, h11, h12, h13, h14, h15, h16, h17, h18, h19⟩ := hl
  generalize hk : (if (s.line l).phase.isAdmitted then (d.line l).charged else 0) = credits
  have hpa : (enterClosing d l credits).pa = d.pa ∧ (enterClosing d l credits).attn = d.attn ∧
      (enterClosing d l credits).ctl = d.ctl := by
    unfold enterClosing; simp only; split <;> exact ⟨rfl, rfl, rfl⟩
  obtain ⟨c1, c2, c3, c4⟩ := enterClosing_line d l credits h1
  rw [ks.messages] at c2 c3
  rw [ks.carrier l] at c1 c2 c3
  rw [ks.carrier l] at c4
  have fields : ∀ r : LineRec, (enterClosing d l credits).line l = r → r.charged = (d.line l).charged →
      goodbyeCredits s (enterClosing d l credits) l = credits := by
    rintro r hr hch
    rw [goodbyeCredits, hr, hch, hk]
  cases hcar : (s.line l).carrier with
  | false =>
    obtain ⟨ht, hb⟩ := c4 hcar
    simp only [CallEnded, ReleasedAtEnd, ht, hpa, hcar]
    simp_all
  | true =>
    cases hbusy : (d.line l).txBusy with
    | true =>
      have ht := c1 hcar hbusy
      have hg := fields _ ht rfl
      simp only [CallEnded, GoodbyeTaken, ReleasedAtEnd, GoodbyeWaits, GoodbyeSpoken, ht, hpa, hcar, hg]
      simp_all
    | false =>
      by_cases he : s.lc.messages.get 15 = []
      · obtain ⟨ht, hb⟩ := c3 hcar hbusy he
        simp only [CallEnded, GoodbyeTaken, ReleasedAtEnd, GoodbyeWaits, GoodbyeSpoken, ht, hpa, hcar, he]
        simp_all
      · obtain ⟨ht, hb⟩ := c2 hcar hbusy he
        have hg := fields _ ht rfl
        simp only [CallEnded, GoodbyeTaken, ReleasedAtEnd, GoodbyeWaits, GoodbyeSpoken, ht, hpa, hcar, hg]
        simp_all

/-- The end of a call by any cause (R184): what is left of the line. -/
theorem endCall_ended (co : EndedSecond) (s : State) (l : LineNo) (cause : EndCause) (out : Bool)
    (hc : (s.line l).phase.inCall = true) : CallEnded cause s (endCall co s l cause out) l :=
  (endCallWith_ended (endKeeps_meterAction co) s l (rests_meterAction l co) cause out _ hc).1

/-- The goodbye at the end of a call whose line has no queue place but the one it waits in (R70). -/
theorem endCall_goodbye (co : EndedSecond) {s : State} {l : LineNo} (cause : EndCause) (out : Bool)
    (hc : (s.line l).phase.inCall = true) (hs : SettlesAlone s l) (hcar : (s.line l).carrier = true) :
    GoodbyeTaken s (endCall co s l cause out) l :=
  (endCallWith_ended (endKeeps_meterAction co) s l (rests_meterAction l co) cause out _ hc).2 hs hcar

theorem EndKeeps.keptAtEnd {s t : State} (h : EndKeeps s t) : KeptAtEnd s t :=
  ⟨h.store, h.cal, h.pending, h.params, h.messages, h.ctl⟩

/-- The end of a call by any cause (R184): what is left of the line, and that nothing else is touched but what EndKeeps leaves
open. -/
theorem endCall_spec (co : EndedSecond) (s : State) (l : LineNo) (cause : EndCause) (out : Bool)
    (hc : (s.line l).phase.inCall = true) :
    CallEnded cause s (endCall co s l cause out) l ∧ EndKeeps s (endCall co s l cause out) :=
  ⟨endCall_ended co s l cause out hc, endKeeps_endCall co s l cause out⟩

end Sys2Proof.Machine
end

