-- ==== Sys2Proof/Laws/Memory.lean ====
section
/-! SUPPORT. The account store as memory: reading back a write, what a slot write leaves alone, and that every operation on the
store keeps its canonical form. -/
namespace Sys2Proof.Machine

/-- The listed addresses are above a bound, rise strictly, and no listed byte is the default. -/
def storeAbove : Option Nat → List Host.Cell → Prop
  | _, [] => True
  | bound, (k, b) :: m => (∀ n, bound = some n → n < k) ∧ b ≠ storeDefault ∧ storeAbove (some k) m

theorem storeAbove_iff (bound : Option Nat) (m : List Host.Cell) :
    storeAbove bound m ↔ (storeRising bound m && m.all (fun c => decide (c.2 ≠ storeDefault))) = true := by
  induction m generalizing bound with
  | nil => simp [storeAbove, storeRising]
  | cons c m ih =>
    obtain ⟨k, b⟩ := c
    cases bound <;> simp [storeAbove, storeRising, ih, List.all_cons] <;> tauto

theorem storeWf_iff (m : List Host.Cell) : storeWf m = true ↔ storeAbove none m := (storeAbove_iff none m).symm

theorem storeAbove_mono {b : Nat} {bound : Option Nat} {m : List Host.Cell} (h : storeAbove (some b) m)
    (hb : ∀ n, bound = some n → n ≤ b) : storeAbove bound m := by
  cases m with
  | nil => trivial
  | cons c m =>
    obtain ⟨k, x⟩ := c
    obtain ⟨h1, h2, h3⟩ := h
    exact ⟨fun n hn => lt_of_le_of_lt (hb n hn) (h1 b rfl), h2, h3⟩

theorem storeRead_above {m : List Host.Cell} {b a : Nat} (h : storeAbove (some b) m) (ha : a ≤ b) :
    storeRead m a = storeDefault := by
  induction m generalizing b with
  | nil => rfl
  | cons c m ih =>
    obtain ⟨k, x⟩ := c
    obtain ⟨h1, -, h3⟩ := h
    have hk := h1 b rfl
    simp only [storeRead]
    rw [if_neg (by omega)]
    exact ih h3 (by omega)

/-- A byte reads as what was written there, and every other byte as before. -/
theorem storeRead_storeWrite {m : List Host.Cell} {bound : Option Nat} (h : storeAbove bound m) (a k : Nat) (b : Byte) :
    storeRead (storeWrite m a b) k = if k = a then b else storeRead m k := by
  induction m generalizing bound with
  | nil =>
    by_cases hb : b = storeDefault <;> by_cases hk : k = a <;> simp [storeWrite, storeRead, hb, hk]
  | cons c m ih =>
    obtain ⟨k', x⟩ := c
    obtain ⟨-, hx, h3⟩ := h
    have hk' : ∀ j, j ≤ k' → storeRead m j = storeDefault := fun j hj => storeRead_above h3 hj
    unfold storeWrite
    by_cases h1 : a < k'
    · rw [if_pos h1]
      by_cases hb : b = storeDefault
      · rw [if_pos hb]
        by_cases hk : k = a
        · simp only [storeRead]
          rw [if_neg (by omega), hk' k (by omega), if_pos hk, hb]
        · rw [if_neg hk]
      · rw [if_neg hb]; simp only [storeRead]
    · rw [if_neg h1]
      by_cases h2 : a = k'
      · rw [if_pos h2]
        by_cases hb : b = storeDefault
        · rw [if_pos hb]
          by_cases hk : k = a
          · rw [if_pos hk, hb]; exact hk' k (by omega)
          · simp only [storeRead]
            rw [if_neg hk, if_neg (by omega)]
        · rw [if_neg hb]
          by_cases hk : k = a
          · simp only [storeRead, if_pos hk]
          · simp only [storeRead]
            rw [if_neg hk, if_neg hk, if_neg (by omega)]
      · rw [if_neg h2]
        simp only [storeRead]
        rw [ih h3]
        by_cases hk : k = k'
        · rw [if_pos hk, if_pos hk, if_neg (by omega)]
        · rw [if_neg hk, if_neg hk]

/-- A write keeps the canonical form. -/
theorem storeAbove_storeWrite {m : List Host.Cell} {bound : Option Nat} (h : storeAbove bound m) (a : Nat) (b : Byte)
    (ha : ∀ n, bound = some n → n < a) : storeAbove bound (storeWrite m a b) := by
  induction m generalizing bound with
  | nil =>
    simp only [storeWrite]
    split_ifs with hb
    · trivial
    · exact ⟨ha, hb, trivial⟩
  | cons c m ih =>
    obtain ⟨k, x⟩ := c
    obtain ⟨h1, h2, h3⟩ := h
    simp only [storeWrite]
    split_ifs with hlt hb he hb
    · exact ⟨h1, h2, h3⟩
    · exact ⟨ha, hb, fun n hn => by injection hn with hn; omega, h2, h3⟩
    · exact storeAbove_mono h3 (fun n hn => le_of_lt (h1 n hn))
    · exact ⟨ha, hb, by rw [he]; exact h3⟩
    · exact ⟨h1, h2, ih h3 (fun n hn => by injection hn with hn; omega)⟩

/-- A write keeps the canonical form. -/
theorem storeWf_storeWrite {m : List Host.Cell} (h : storeWf m = true) (a : Nat) (b : Byte) :
    storeWf (storeWrite m a b) = true :=
  (storeWf_iff _).2 (storeAbove_storeWrite ((storeWf_iff _).1 h) a b (by simp))

theorem storeRead_write {m : List Host.Cell} (h : storeWf m = true) (a k : Nat) (b : Byte) :
    storeRead (storeWrite m a b) k = if k = a then b else storeRead m k :=
  storeRead_storeWrite ((storeWf_iff _).1 h) a k b

theorem storeWf_writes {m : List Host.Cell} (h : storeWf m = true) (base : Nat) (bytes : List Byte) (js : List Nat) :
    storeWf (js.foldl (fun m j => storeWrite m (base + j) (bytes.getD j 0)) m) = true := by
  induction js generalizing m with
  | nil => exact h
  | cons j js ih => exact ih (storeWf_storeWrite h _ _)

/-- A slot write keeps the canonical form. -/
theorem storeWf_storeSlot {m : List Host.Cell} (h : storeWf m = true) (slot : Nat) (bytes : List Byte) :
    storeWf (storeSlot m slot bytes) = true := storeWf_writes h _ _ _

/-- A slot write with any outcome keeps the canonical form. -/
theorem storeWf_slotWrite {m : List Host.Cell} (h : storeWf m = true) (o : WriteOutcome) (slot : Nat) (bytes : List Byte) :
    storeWf (slotWrite m o slot bytes) = true := storeWf_storeSlot h _ _

theorem storeAbove_filter {m : List Host.Cell} {bound : Option Nat} (h : storeAbove bound m) (p : Host.Cell → Bool) :
    storeAbove bound (m.filter p) := by
  induction m generalizing bound with
  | nil => trivial
  | cons c m ih =>
    obtain ⟨k, x⟩ := c
    obtain ⟨h1, h2, h3⟩ := h
    rw [List.filter_cons]
    split
    · exact ⟨h1, h2, ih h3⟩
    · exact ih (storeAbove_mono h3 (fun n hn => le_of_lt (h1 n hn)))

/-- Clearing the slots below a number keeps the canonical form. -/
theorem storeWf_clearBelow {m : List Host.Cell} (h : storeWf m = true) (slots : Nat) : storeWf (clearBelow m slots) = true :=
  (storeWf_iff _).2 (storeAbove_filter ((storeWf_iff _).1 h) _)

theorem storeWf_clearNamed (old : List Host.Cell) (capacity : Nat) (os : List WriteOutcome) (slot : Nat) (m : List Host.Cell)
    (h : storeWf m = true) : storeWf (clearNamed old capacity slot os m) = true := by
  induction os generalizing slot m with
  | nil => exact h
  | cons o os ih =>
    apply ih
    split
    · exact storeWf_storeSlot h _ _
    · exact h

/-- The clear option of ATTACH_STORE keeps the canonical form. -/
theorem storeWf_clearStore {m : List Host.Cell} (h : storeWf m = true) (capacity : Nat) (ws : List WriteOutcome) :
    storeWf (clearStore m capacity ws) = true := storeWf_clearNamed _ _ _ _ _ (storeWf_clearBelow h _)

/-- The store of the reset state is in canonical form. -/
theorem storeWf_reset : storeWf State.reset.store = true := rfl

theorem storeRead_writes {m : List Host.Cell} (h : storeWf m = true) (base a : Nat) (bytes : List Byte) (js : List Nat)
    (ha : ∀ j ∈ js, base + j ≠ a) :
    storeRead (js.foldl (fun m j => storeWrite m (base + j) (bytes.getD j 0)) m) a = storeRead m a := by
  induction js generalizing m with
  | nil => rfl
  | cons j js ih =>
    rw [List.foldl_cons, ih (storeWf_storeWrite h _ _) (fun i hi => ha i (List.mem_cons_of_mem _ hi)), storeRead_write h,
      if_neg (Ne.symm (ha j List.mem_cons_self))]

/-- A slot write leaves every byte outside the slot as it was. -/
theorem storeRead_slotWrite_outside {m : List Host.Cell} (h : storeWf m = true) (o : WriteOutcome) (slot : Nat)
    (bytes : List Byte) (a : Nat) (ha : a < slot * 40 ∨ slot * 40 + 40 ≤ a) :
    storeRead (slotWrite m o slot bytes) a = storeRead m a := by
  apply storeRead_writes h
  intro j hj
  have := List.mem_range.1 hj
  omega

theorem storeRead_writes_inside {m : List Host.Cell} (h : storeWf m = true) (base : Nat) (bytes : List Byte) (js : List Nat)
    (hn : js.Nodup) (j : Nat) (hj : j ∈ js) :
    storeRead (js.foldl (fun m j => storeWrite m (base + j) (bytes.getD j 0)) m) (base + j) = bytes.getD j 0 := by
  induction js generalizing m with
  | nil => cases hj
  | cons i js ih =>
    rw [List.foldl_cons]
    rw [List.nodup_cons] at hn
    rcases List.mem_cons.1 hj with rfl | hj'
    · rw [storeRead_writes (storeWf_storeWrite h _ _) _ _ _ _ (fun k hk hkj => hn.1 (by
        have : k = j := by omega
        exact this ▸ hk)), storeRead_write h, if_pos rfl]
    · exact ih (storeWf_storeWrite h _ _) hn.2 hj'

/-- A slot holds the bytes stored to it. -/
theorem slotBytes_storeSlot {m : List Host.Cell} (h : storeWf m = true) (slot : Nat) (bytes : List Byte)
    (hl : bytes.length = 40) : slotBytes (storeSlot m slot bytes) slot = bytes := by
  apply List.ext_getElem
  · simp [slotBytes, hl]
  · intro j h1 h2
    have hj : j < 40 := by simpa [slotBytes] using h1
    simp only [slotBytes, List.getElem_map, List.getElem_range, storeSlot]
    rw [storeRead_writes_inside h _ _ _ List.nodup_range _ (List.mem_range.2 hj), List.getD_eq_getElem _ _ h2]

end Sys2Proof.Machine
end

