-- ==== Sys2Proof/Laws/PerInstr.lean ====
section
/-! SUPPORT. Per command: the frame of a well-formed request row fits the request buffer, its parameters 80 bytes at most (R198,
R207). The rows that carry no request have no frame and meet this for want of one. -/
namespace Sys2Proof.Laws.Fits

open Sys2Proof.Machine

/-- A request row's parameters fit the 80 bytes a frame may have (R198). -/
def Statement (i : Instr) : Prop :=
  i.wellFormed = true → ∀ r, requestOf i = some r → (requestParams r).length ≤ Config.maxParameterLength

/-- A number of k bytes takes k bytes. -/
@[simp] theorem length_beBytes (k n : Nat) : (beBytes k n).length = k := by
  induction k with
  | zero => rfl
  | succ k ih => simp [beBytes, ih]

/-- The fields present take no more bytes than all the fields together. -/
theorem length_presentBytes (sizes : List Nat) (fields : List (Option Nat)) :
    (presentBytes sizes fields).length ≤ sizes.sum := by
  induction sizes generalizing fields with
  | nil => cases fields <;> simp [presentBytes]
  | cons k ks ih =>
    match fields with
    | [] => simp [presentBytes]
    | none :: xs => have := ih xs; simp [presentBytes]; omega
    | some n :: xs => have := ih xs; simp [presentBytes]; omega

/-- A presence field and the fields present take no more bytes than all of them together. -/
theorem length_optionalBytes (size : Nat) (sizes : List Nat) (fields : List (Option Nat)) :
    (optionalBytes size sizes fields).length ≤ size + sizes.sum := by
  have := length_presentBytes sizes fields
  simp [optionalBytes]; omega

/-- Numbers of two bytes each take two bytes a number. -/
theorem length_flatMap_two (ns : List Nat) : (ns.flatMap (beBytes 2)).length = 2 * ns.length := by
  induction ns with
  | nil => rfl
  | cons n ns ih => simp [ih]; omega

/-- A row that carries no request. -/
theorem of_none {i : Instr} (h : requestOf i = none) : Statement i := fun _ r hr => by simp [h] at hr

/-- A row that carries a request whose parameters fit. -/
theorem of_some {i : Instr} {r : Request} (h : requestOf i = some r)
    (hl : i.wellFormed = true → (requestParams r).length ≤ Config.maxParameterLength) : Statement i :=
  fun hw r' hr => by rw [h] at hr; cases hr; exact hl hw

theorem powerOnReset (done : Nat) (torn : List Bool) : Statement (.powerOnReset done torn) := of_none rfl
theorem secondEvent (order : SecondOrder) : Statement (.secondEvent order) := of_none rfl
theorem answerLimitExpiry (line : LineNo) : Statement (.answerLimitExpiry line) := of_none rfl
theorem signonLimitExpiry (line : LineNo) : Statement (.signonLimitExpiry line) := of_none rfl
theorem holdTimerExpiry (line : LineNo) : Statement (.holdTimerExpiry line) := of_none rfl
theorem selectionLimitExpiry (line : LineNo) : Statement (.selectionLimitExpiry line) := of_none rfl
theorem waitLimitExpiry (line : LineNo) : Statement (.waitLimitExpiry line) := of_none rfl
theorem escapeLimitExpiry (line : LineNo) : Statement (.escapeLimitExpiry line) := of_none rfl
theorem closingLimitExpiry (line : LineNo) : Statement (.closingLimitExpiry line) := of_none rfl
theorem guardTimeExpiry (line : LineNo) : Statement (.guardTimeExpiry line) := of_none rfl
theorem carrierHoldExpiry (line : LineNo) : Statement (.carrierHoldExpiry line) := of_none rfl
theorem idleWarningExpiry (line : LineNo) : Statement (.idleWarningExpiry line) := of_none rfl
theorem exhaustionCountdownExpiry (line : LineNo) : Statement (.exhaustionCountdownExpiry line) := of_none rfl
theorem hoursCountdownExpiry (line : LineNo) : Statement (.hoursCountdownExpiry line) := of_none rfl
theorem callTimerExpiry (port : PortNo) : Statement (.callTimerExpiry port) := of_none rfl
theorem lineCommandTimeout : Statement .lineCommandTimeout := of_none rfl
theorem portCommandTimeout : Statement .portCommandTimeout := of_none rfl
theorem ring (line : Nat) : Statement (.ring line) := of_none rfl
theorem carrierOn (line : Nat) : Statement (.carrierOn line) := of_none rfl
theorem carrierOff (line : Nat) : Statement (.carrierOff line) := of_none rfl
theorem lineRxChar (line : Nat) (char : Byte) : Statement (.lineRxChar line char) := of_none rfl
theorem rxBreak (line : Nat) : Statement (.rxBreak line) := of_none rfl
theorem txDone (line : Nat) : Statement (.txDone line) := of_none rfl
theorem lineCommandAccepted : Statement .lineCommandAccepted := of_none rfl
theorem hostReadyOn (port : PortNo) : Statement (.hostReadyOn port) := of_none rfl
theorem hostReadyOff (port : PortNo) : Statement (.hostReadyOff port) := of_none rfl
theorem accept (port : PortNo) : Statement (.accept port) := of_none rfl
theorem portRxChar (port : PortNo) (char : Byte) : Statement (.portRxChar port char) := of_none rfl
theorem hostDisconnect (port : PortNo) : Statement (.hostDisconnect port) := of_none rfl
theorem portCommandAccepted : Statement .portCommandAccepted := of_none rfl
theorem rotationChoice : Statement .rotationChoice := of_none rfl
theorem storeOperationComplete (writes : List WriteOutcome) : Statement (.storeOperationComplete writes) := of_none rfl
theorem frameRejected (code : Byte) (params : List Byte) : Statement (.frameRejected code params) := of_none rfl
theorem unknownRequest (code : Byte) (params : List Byte) : Statement (.unknownRequest code params) := of_none rfl
theorem responseRead : Statement .responseRead := of_none rfl
theorem attachStore (sizeCode clear : Nat) : Statement (.attachStore sizeCode clear) := of_some rfl fun _ => by simp [requestParams, storeParams, Config.maxParameterLength]
theorem addAccount (p : NewAccount) : Statement (.addAccount p) := of_some rfl fun _ => by simp [requestParams, storeParams, Config.maxParameterLength]
theorem setPassword (account : Nat) (chars : List Byte) : Statement (.setPassword account chars) :=
  of_some rfl fun hw => by
    simp only [Instr.wellFormed, Bool.and_eq_true, decide_eq_true_eq] at hw
    obtain ⟨-, h⟩ := hw
    unfold Config.maxParameterLength
    simp only [requestParams, storeParams, List.length_append, length_beBytes]
    omega
theorem changeAccount (account : Nat) (f : AccountChange) : Statement (.changeAccount account f) :=
  of_some rfl fun _ => by
    have := length_optionalBytes 1 [1, 1, 1, 1, 2, 1]
      [f.cls, f.sessionLimit, f.permitted, f.defaultGroup, f.lowThreshold, f.status]
    simp [requestParams, storeParams, Config.maxParameterLength] at *; omega
theorem grant (account amount : Nat) : Statement (.grant account amount) := of_some rfl fun _ => by simp [requestParams, storeParams, Config.maxParameterLength]
theorem revoke (account amount : Nat) : Statement (.revoke account amount) := of_some rfl fun _ => by simp [requestParams, storeParams, Config.maxParameterLength]
theorem forgive (account : Nat) : Statement (.forgive account) := of_some rfl fun _ => by simp [requestParams, storeParams, Config.maxParameterLength]
theorem readAccount (account : Nat) : Statement (.readAccount account) := of_some rfl fun _ => by simp [requestParams, storeParams, Config.maxParameterLength]
theorem readSlots (first count : Nat) : Statement (.readSlots first count) := of_some rfl fun _ => by simp [requestParams, storeParams, Config.maxParameterLength]
theorem readAndClearTotals (account : Nat) : Statement (.readAndClearTotals account) := of_some rfl fun _ => by simp [requestParams, storeParams, Config.maxParameterLength]
theorem replaceSlot (slot : Nat) (image : List Byte) : Statement (.replaceSlot slot image) :=
  of_some rfl fun hw => by
    simp only [Instr.wellFormed, Bool.and_eq_true, decide_eq_true_eq] at hw
    obtain ⟨-, h⟩ := hw
    unfold Config.maxParameterLength
    simp only [requestParams, storeParams, List.length_append, length_beBytes]
    omega
theorem retire (account : Nat) : Statement (.retire account) := of_some rfl fun _ => by simp [requestParams, storeParams, Config.maxParameterLength]
theorem flush : Statement .flush := of_some rfl fun _ => by simp [requestParams, storeParams, Config.maxParameterLength]
theorem discardOpen (account : Nat) : Statement (.discardOpen account) := of_some rfl fun _ => by simp [requestParams, storeParams, Config.maxParameterLength]
theorem writeSchedule (first : Nat) (bands : List Nat) : Statement (.writeSchedule first bands) :=
  of_some rfl fun hw => by
    simp only [Instr.wellFormed, Bool.and_eq_true, decide_eq_true_eq] at hw
    obtain ⟨⟨⟨-, -⟩, h⟩, -⟩ := hw
    unfold Config.maxParameterLength
    unfold Config.maxScheduleRun at h
    simp only [requestParams, quickParams, List.length_append, length_beBytes, List.length_map]
    omega
theorem writeRates (cls : Nat) (rates : List Nat) (waitRate : Nat) : Statement (.writeRates cls rates waitRate) :=
  of_some rfl fun hw => by
    simp only [Instr.wellFormed, Bool.and_eq_true, decide_eq_true_eq] at hw
    obtain ⟨⟨⟨-, h⟩, -⟩, -⟩ := hw
    unfold Config.maxParameterLength
    simp only [requestParams, quickParams, List.length_append, length_beBytes, length_flatMap_two]
    omega
theorem writeClass (cls : Nat) (f : PolicyChange) : Statement (.writeClass cls f) :=
  of_some rfl fun _ => by
    have := length_optionalBytes 1 [1, 1, 2, 2, 2, 2, 2]
      [f.allowedBands, f.queuePriority, f.grace, f.idleLimit, f.idleWarning, f.exhaustionGrace, f.hoursGrace]
    simp [requestParams, quickParams, Config.maxParameterLength] at *; omega
theorem arm : Statement .arm := of_some rfl fun _ => by simp [requestParams, quickParams, Config.maxParameterLength]
theorem cancel : Statement .cancel := of_some rfl fun _ => by simp [requestParams, quickParams, Config.maxParameterLength]
theorem revert : Statement .revert := of_some rfl fun _ => by simp [requestParams, quickParams, Config.maxParameterLength]
theorem readTariffSchedule (copy first count : Nat) : Statement (.readTariffSchedule copy first count) := of_some rfl fun _ => by simp [requestParams, quickParams, Config.maxParameterLength]
theorem readTariffRates (copy cls : Nat) : Statement (.readTariffRates copy cls) := of_some rfl fun _ => by simp [requestParams, quickParams, Config.maxParameterLength]
theorem readTariffClass (copy cls : Nat) : Statement (.readTariffClass copy cls) := of_some rfl fun _ => by simp [requestParams, quickParams, Config.maxParameterLength]
theorem setClock (minute second : Nat) : Statement (.setClock minute second) := of_some rfl fun _ => by simp [requestParams, quickParams, Config.maxParameterLength]
theorem readClock : Statement .readClock := of_some rfl fun _ => by simp [requestParams, quickParams, Config.maxParameterLength]
theorem setLineParameters (f : LineParamChange) : Statement (.setLineParameters f) :=
  of_some rfl fun _ => by
    have := length_optionalBytes 2 (List.replicate 12 1)
      [f.acceptingCalls, f.busyOut, f.answerLimit, f.carrierHold, f.signonLimit, f.attemptsPerCall, f.lockoutThreshold, f.holdLimit, f.selectionLimit, f.callLimit, f.escapeKey, f.escapeMask]
    simp [requestParams, quickParams, Config.maxParameterLength] at *; omega
theorem lineServiceOut (line : Nat) : Statement (.lineServiceOut line) := of_some rfl fun _ => by simp [requestParams, quickParams, Config.maxParameterLength]
theorem lineServiceIn (line : Nat) : Statement (.lineServiceIn line) := of_some rfl fun _ => by simp [requestParams, quickParams, Config.maxParameterLength]
theorem forceEnd (line : Nat) : Statement (.forceEnd line) := of_some rfl fun _ => by simp [requestParams, quickParams, Config.maxParameterLength]
theorem readLine (line : Nat) : Statement (.readLine line) := of_some rfl fun _ => by simp [requestParams, quickParams, Config.maxParameterLength]
theorem clearSummary (line : Nat) : Statement (.clearSummary line) := of_some rfl fun _ => by simp [requestParams, quickParams, Config.maxParameterLength]
theorem writeMessage (message : Nat) (text : List Byte) : Statement (.writeMessage message text) :=
  of_some rfl fun hw => by
    simp only [Instr.wellFormed, Bool.and_eq_true, decide_eq_true_eq] at hw
    obtain ⟨-, h⟩ := hw
    unfold Config.maxParameterLength at *
    simp only [requestParams, quickParams, List.length_append, length_beBytes]
    omega
theorem configurePort (port group role : Nat) : Statement (.configurePort port group role) := of_some rfl fun _ => by simp [requestParams, quickParams, Config.maxParameterLength]
theorem portServiceOut (port : Nat) : Statement (.portServiceOut port) := of_some rfl fun _ => by simp [requestParams, quickParams, Config.maxParameterLength]
theorem portServiceIn (port : Nat) : Statement (.portServiceIn port) := of_some rfl fun _ => by simp [requestParams, quickParams, Config.maxParameterLength]
theorem returnPort (port : Nat) : Statement (.returnPort port) := of_some rfl fun _ => by simp [requestParams, quickParams, Config.maxParameterLength]
theorem setGroup (group : Nat) (f : GroupChange) : Statement (.setGroup group f) :=
  of_some rfl fun _ => by
    have := length_optionalBytes 1 [1, 1, 2, 1, 1]
      [f.queueLimit, f.waitLimit, f.failoverAllowance, f.congestionMode, f.congestionThreshold]
    simp [requestParams, quickParams, Config.maxParameterLength] at *; omega
theorem readPort (port : Nat) : Statement (.readPort port) := of_some rfl fun _ => by simp [requestParams, quickParams, Config.maxParameterLength]
theorem readGroup (group : Nat) : Statement (.readGroup group) := of_some rfl fun _ => by simp [requestParams, quickParams, Config.maxParameterLength]
theorem clearCounters (group : Nat) : Statement (.clearCounters group) := of_some rfl fun _ => by simp [requestParams, quickParams, Config.maxParameterLength]
theorem setWatch (watch low high kinds action : Nat) : Statement (.setWatch watch low high kinds action) := of_some rfl fun _ => by simp [requestParams, quickParams, Config.maxParameterLength]
theorem clearWatch (watch : Nat) : Statement (.clearWatch watch) := of_some rfl fun _ => by simp [requestParams, quickParams, Config.maxParameterLength]
theorem readWatch (watch : Nat) : Statement (.readWatch watch) := of_some rfl fun _ => by simp [requestParams, quickParams, Config.maxParameterLength]
theorem verdictAdmit (line : Nat) : Statement (.verdictAdmit line) := of_some rfl fun _ => by simp [requestParams, quickParams, Config.maxParameterLength]
theorem verdictRefuse (line : Nat) : Statement (.verdictRefuse line) := of_some rfl fun _ => by simp [requestParams, quickParams, Config.maxParameterLength]
theorem takeAttention : Statement .takeAttention := of_some rfl fun _ => by simp [requestParams, quickParams, Config.maxParameterLength]
theorem describe : Statement .describe := of_some rfl fun _ => by simp [requestParams, quickParams, Config.maxParameterLength]
theorem restart : Statement .restart := of_some rfl fun _ => by simp [requestParams, storeParams, Config.maxParameterLength]
theorem supervisorWriteStrobe (byte : Byte) : Statement (.supervisorWriteStrobe byte) := of_none rfl

end Sys2Proof.Laws.Fits
end

