-- ==== Sys2Proof/Laws/Port.lean ====
section
/-! SUPPORT. What the supervisor port does with a frame while BUSY is clear, and what a response leaves: one lemma per operation. -/
namespace Sys2Proof.Machine

theorem acceptFrame_eq (s : State) : acceptFrame s = { s with sup := s.sup.accepted } := rfl

theorem onFrame_idle {s : State} (h : s.sup.busy = false) (f : State → State) :
    onFrame s f = f { s with sup := s.sup.accepted } := by
  simp [onFrame, h, acceptFrame_eq]

theorem onFrame_busy {s : State} (h : s.sup.busy = true) (f : State → State) :
    onFrame s f = { s with sup := { s.sup with request := [], received := 0, rejected := true } } := by
  simp [onFrame, h, rejectFrame, State.onSup]

/-- A response, as the bytes the reads deliver (R201, R202). -/
theorem respond_eq (s : State) (c : Code) (clamped : Bool) (result : List Byte) :
    respond s c clamped result =
      { s with sup := s.sup.offered (if clamped && decide (c = .ok) then 1 else c.byte) clamped result } := by
  cases clamped <;> cases c <;>
    simp [respond, responseFrame, SupPort.offered, Code.clampedBy, Code.byte, flagByte, beBytes]

/-- A store request whose frame fits is checked as R15 lays down. -/
theorem submit_store {s : State} (h : s.sup.busy = false) (r : StoreReq) (hf : requestLengthFits (.store r) = true) :
    submit s (.store r) = acceptStore { s with sup := s.sup.accepted } r := by
  simp [submit, onFrame_idle h, checkAndCarryOut, hf, carryOut]

/-- A request that completes at once and whose frame fits is carried out. -/
theorem submit_quick {s : State} (h : s.sup.busy = false) (q : QuickReq) (hf : requestLengthFits (.quick q) = true) :
    submit s (.quick q) = carryOutQuick { s with sup := s.sup.accepted } q := by
  simp [submit, onFrame_idle h, checkAndCarryOut, hf, carryOut]

/-- A request whose frame does not fit completes with MALFORMED (R199, check 2). -/
theorem submit_malformed {s : State} (h : s.sup.busy = false) (r : Request) (hf : requestLengthFits r = false) :
    submit s r = { s with sup := s.sup.answered 3 false [] } := by
  simp [submit, onFrame_idle h, checkAndCarryOut, hf, respond_eq, Code.byte, SupPort.answered]

/-- A store request that passes its checks waits in the supervisor class (R9). -/
theorem acceptStore_wait {s : State} (r : StoreReq) (h : acceptanceCode s r = none) :
    acceptStore { s with sup := s.sup.accepted } r =
      { s with sup := s.sup.accepted, ctl := { s.ctl with waiting := some r } } := by
  have h' : acceptanceCode { s with sup := s.sup.accepted } r = none := h
  unfold acceptStore; rw [h']; simp [State.onCtl]

/-- A store request that fails a check completes at once with that check's code (R15). -/
theorem acceptStore_code {s : State} (r : StoreReq) (c : Code) (h : acceptanceCode s r = some c) (hc : c ≠ .ok) :
    acceptStore { s with sup := s.sup.accepted } r = { s with sup := s.sup.answered c.byte false [] } := by
  have h' : acceptanceCode { s with sup := s.sup.accepted } r = some c := h
  simp [acceptStore, h', respond_eq, hc, SupPort.answered]

end Sys2Proof.Machine
end

