-- ==== Sys2Proof/Laws/Restart.lean ====
section
/-! SUPPORT. What the flush of RESTART does (R47, R206), once for every list of entries. -/
namespace Sys2Proof.Machine

/-- Whether an entry has retire pending set; a FREE one has not. -/
def State.retires (s : State) (e : EntryNo) : Bool := (s.entry e).any (fun x => x.retirePending)

/-- The retire pending marks of the entries of a list that are not FREE, in its order. -/
def State.retireMarks (s : State) (es : List EntryNo) : List Bool :=
  (es.filter (fun e => (s.entry e).isSome)).map s.retires

/-- What the flush has done with a list of entries: every one is FREE; the counts of entries written and lost, the
counts-uncertain flag and the counts of the store follow the outcomes; and of the store only the slots of the entries change. -/
structure Flushes (es : List EntryNo) (f g : Flush) : Prop where
  entry : ∀ k, g.state.entry k = if k ∈ es then none else f.state.entry k
  written : g.written = f.written + (restartMatches (f.state.retireMarks es) f.writes).count true
  lost : g.lost = f.lost + (restartMatches (f.state.retireMarks es) f.writes).count false
  rest : g.state = { f.state with
    store := g.state.store, oat := g.state.oat,
    ctl := { f.state.ctl with
      uncertain := f.state.ctl.uncertain || decide ((restartMatches (f.state.retireMarks es) f.writes).count false ≠ 0),
      inUse := g.state.ctl.inUse, vacated := g.state.ctl.vacated } }
  counts : let n := ((f.state.retireMarks es).zip (restartMatches (f.state.retireMarks es) f.writes)).count (true, true)
    n ≤ f.state.ctl.inUse → f.state.ctl.vacated + n ≤ f.state.ctl.capacity →
      g.state.ctl.inUse = f.state.ctl.inUse - n ∧ g.state.ctl.vacated = f.state.ctl.vacated + n
  wf : storeWf f.state.store = true → storeWf g.state.store = true
  outside : storeWf f.state.store = true → ∀ a,
    (∀ e ∈ es, ∀ x, f.state.entry e = some x → ¬(x.slot.val * 40 ≤ a ∧ a < x.slot.val * 40 + 40)) →
      storeRead g.state.store a = storeRead f.state.store a

theorem freeEntry_entry (s : State) (e k : EntryNo) : (freeEntry s e).entry k = if k = e then none else s.entry k :=
  setEntry_entry s e k none

/-- A FREE entry is passed over. -/
theorem flushOne_free {f : Flush} {e : EntryNo} (h : f.state.entry e = none) : flushOne f e = f := by
  simp only [flushOne, h]

theorem retireMarks_cons_some {s : State} {e : EntryNo} {x : OatEntry} (h : s.entry e = some x) (es : List EntryNo) :
    s.retireMarks (e :: es) = x.retirePending :: s.retireMarks es := by
  simp [State.retireMarks, State.retires, h]

theorem retireMarks_cons_none {s : State} {e : EntryNo} (h : s.entry e = none) (es : List EntryNo) :
    s.retireMarks (e :: es) = s.retireMarks es := by
  simp [State.retireMarks, h]

/-- The marks of other entries do not move with one entry. -/
theorem retireMarks_congr {s t : State} {es : List EntryNo} (h : ∀ e ∈ es, t.entry e = s.entry e) :
    t.retireMarks es = s.retireMarks es := by
  induction es with
  | nil => rfl
  | cons e es ih =>
    have ht := ih (fun k hk => h k (List.mem_cons_of_mem _ hk))
    have he := h e List.mem_cons_self
    cases hx : s.entry e with
    | none => rw [retireMarks_cons_none hx, retireMarks_cons_none (he.trans hx), ht]
    | some x => rw [retireMarks_cons_some hx, retireMarks_cons_some (he.trans hx), ht]

/-- The outcomes that follow those of one entry are read for the entries after it. -/
theorem flushOne_writes {f : Flush} {e : EntryNo} {x : OatEntry} (h : f.state.entry e = some x) (marks : List Bool) :
    restartMatches (x.retirePending :: marks) f.writes =
      restartMatches [x.retirePending] f.writes ++ restartMatches marks (flushOne f e).writes := by
  obtain ⟨s, writes, w, l⟩ := f
  rcases writes with _ | ⟨o, _ | ⟨o', ws⟩⟩ <;> cases hr : x.retirePending <;>
    (try cases o) <;> (try cases o') <;>
    simp_all [flushOne, flushVacated, restartMatches, firstOutcome, writeMatches, Flush.keep, Flush.lose]

/-- The mark of one entry: both writes matched, the second where there is one. -/
theorem restartMatches_one (retires : Bool) (writes : List WriteOutcome) : restartMatches [retires] writes =
    [writeMatches (firstOutcome writes) && (!retires || writeMatches (firstOutcome writes.tail))] := by
  rcases writes with _ | ⟨o, _ | ⟨o', ws⟩⟩ <;> cases retires <;> (try cases o) <;> (try cases o') <;>
    simp [restartMatches, firstOutcome, writeMatches]

/-- A store that slot writes at one slot made of another. -/
def SlotOnly (slot : Nat) (m m' : List Host.Cell) : Prop :=
  (storeWf m = true → storeWf m' = true) ∧
    (storeWf m = true → ∀ a, ¬(slot * 40 ≤ a ∧ a < slot * 40 + 40) → storeRead m' a = storeRead m a)

theorem slotOnly_writeSlot (s : State) (o : WriteOutcome) (slot : Nat) (bytes : List Byte) :
    SlotOnly slot s.store (s.writeSlot o slot bytes).store := by
  simp only [State.writeSlot]
  exact ⟨fun h => storeWf_slotWrite h _ _ _, fun h a ha => storeRead_slotWrite_outside h _ _ _ _ (by omega)⟩

theorem writeSlot_eq (s : State) (o : WriteOutcome) (slot : Nat) (bytes : List Byte) :
    s.writeSlot o slot bytes = { s with store := (s.writeSlot o slot bytes).store } := by
  simp only [State.writeSlot]

theorem SlotOnly.trans {slot : Nat} {m m' m'' : List Host.Cell} (h : SlotOnly slot m m') (h' : SlotOnly slot m' m'') :
    SlotOnly slot m m'' :=
  ⟨fun hw => h'.1 (h.1 hw), fun hw a ha => (h'.2 (h.1 hw) a ha).trans (h.2 hw a ha)⟩

/-- An entry freed after its writes matched, with the counts moved where it was retired. -/
theorem flushes_keep {f : Flush} {e : EntryNo} {x : OatEntry} {s : State} (ws : List WriteOutcome)
    (h : f.state.entry e = some x) (hm : SlotOnly x.slot.val f.state.store s.store)
    (hw : restartMatches [x.retirePending] f.writes = [true])
    (hs : s = { f.state with
      store := s.store, ctl := if x.retirePending then f.state.ctl.countRetired else f.state.ctl }) :
    Flushes [e] f (f.keep s ws e) := by
  generalize s.store = m at hm hs
  subst hs
  have marks : f.state.retireMarks [e] = [x.retirePending] := retireMarks_cons_some h []
  constructor
  · intro k
    rw [Flush.keep, freeEntry_entry]
    simp only [List.mem_singleton]
    rfl
  · simp [marks, hw, Flush.keep]
  · simp [marks, hw, Flush.keep]
  · rw [marks, hw]
    cases x.retirePending <;> simp [Flush.keep, freeEntry, State.setEntry, StoreCtl.countRetired]
  · rw [marks, hw]
    cases x.retirePending with
    | false => simp [Flush.keep, freeEntry, State.setEntry]
    | true =>
      simp only [Flush.keep, freeEntry, State.setEntry, StoreCtl.countRetired, lowerCount, raiseCount, List.zip_cons_cons,
        List.zip_nil_right, List.count_singleton_self, if_true]
      intro h1 h2
      rw [if_pos (by omega), if_pos (by omega)]
      exact ⟨rfl, rfl⟩
  · exact hm.1
  · exact fun hs a ha => hm.2 hs a (ha e List.mem_cons_self x h)

/-- An entry freed after a write of it failed: its changes are lost, and the counts are uncertain. -/
theorem flushes_lose {f : Flush} {e : EntryNo} {x : OatEntry} {s : State} (ws : List WriteOutcome)
    (h : f.state.entry e = some x) (hm : SlotOnly x.slot.val f.state.store s.store)
    (hw : restartMatches [x.retirePending] f.writes = [false]) (hs : s = { f.state with store := s.store }) :
    Flushes [e] f (f.lose s ws e) := by
  generalize s.store = m at hm hs
  subst hs
  have marks : f.state.retireMarks [e] = [x.retirePending] := retireMarks_cons_some h []
  constructor
  · intro k
    rw [Flush.lose, freeEntry_entry]
    simp only [List.mem_singleton]
    rfl
  · simp [marks, hw, Flush.lose]
  · simp [marks, hw, Flush.lose]
  · rw [marks, hw]
    simp [Flush.lose, freeEntry, State.setEntry, markUncertain, State.onCtl]
  · rw [marks, hw]
    cases x.retirePending <;> simp [Flush.lose, freeEntry, State.setEntry, markUncertain, State.onCtl]
  · exact hm.1
  · exact fun hs a ha => hm.2 hs a (ha e List.mem_cons_self x h)

/-- One write-back within RESTART (R47). -/
theorem flushOne_spec {f : Flush} {e : EntryNo} {x : OatEntry} (h : f.state.entry e = some x) :
    Flushes [e] f (flushOne f e) := by
  have one := restartMatches_one x.retirePending f.writes
  have wrote := writeSlot_eq f.state (firstOutcome f.writes) x.slot.val (encodeSlot .inUse x.account x.acct)
  have written := slotOnly_writeSlot f.state (firstOutcome f.writes) x.slot.val (encodeSlot .inUse x.account x.acct)
  simp only [flushOne, h]
  generalize f.state.writeSlot (firstOutcome f.writes) x.slot.val (encodeSlot .inUse x.account x.acct) = s1 at *
  cases hm : writeMatches (firstOutcome f.writes) with
  | false =>
    rw [if_neg Bool.false_ne_true]
    exact flushes_lose _ h written (by rw [one, hm]; rfl) wrote
  | true =>
    rw [if_pos rfl]
    cases hr : x.retirePending with
    | false =>
      rw [if_neg Bool.false_ne_true]
      exact flushes_keep _ h written (by rw [one, hm, hr]; rfl) (by rw [hr]; exact wrote)
    | true =>
      rw [if_pos rfl, flushVacated]
      have wrote' := writeSlot_eq s1 (firstOutcome f.writes.tail) x.slot.val (encodeSlot .vacated x.account x.acct)
      have vacated := written.trans (slotOnly_writeSlot s1 (firstOutcome f.writes.tail) x.slot.val
        (encodeSlot .vacated x.account x.acct))
      generalize s1.writeSlot (firstOutcome f.writes.tail) x.slot.val (encodeSlot .vacated x.account x.acct) = s2 at *
      cases hm' : writeMatches (firstOutcome f.writes.tail) with
      | false =>
        rw [if_neg Bool.false_ne_true]
        exact flushes_lose _ h vacated (by rw [one, hm, hm', hr]; rfl) (by rw [wrote', wrote])
      | true =>
        rw [if_pos rfl]
        exact flushes_keep _ h vacated (by rw [one, hm, hm', hr]; rfl) (by rw [hr, wrote', wrote]; rfl)

/-- Entries flushed one list after another are flushed as one list. -/
theorem Flushes.cons {f g g' : Flush} {e : EntryNo} {x : OatEntry} {es : List EntryNo} (h : f.state.entry e = some x)
    (he : e ∉ es) (hg : Flushes [e] f g) (hg' : Flushes es g g')
    (hw : restartMatches (x.retirePending :: f.state.retireMarks es) f.writes =
      restartMatches [x.retirePending] f.writes ++ restartMatches (f.state.retireMarks es) g.writes) :
    Flushes (e :: es) f g' := by
  have other : ∀ k ∈ es, g.state.entry k = f.state.entry k := fun k hk => by
    rw [hg.entry, if_neg]
    rintro hke
    exact he (List.mem_singleton.1 hke ▸ hk)
  have marks := retireMarks_congr other
  have all := retireMarks_cons_some h es
  have head : f.state.retireMarks [e] = [x.retirePending] := retireMarks_cons_some h []
  obtain ⟨entry, written, lost, rest, counts, wf, outside⟩ := hg
  obtain ⟨entry', written', lost', rest', counts', wf', outside'⟩ := hg'
  rw [head] at written lost rest counts
  rw [marks] at written' lost' rest' counts'
  have one := restartMatches_one x.retirePending f.writes
  constructor
  · intro k
    rw [entry', entry]
    simp only [List.mem_cons]
    by_cases hk : k ∈ es <;> by_cases hke : k = e <;> simp [hk, hke]
  · rw [all, hw, List.count_append, written', written, Nat.add_assoc]
  · rw [all, hw, List.count_append, lost', lost, Nat.add_assoc]
  · rw [rest', rest, all, hw, List.count_append]
    simp only [Bool.or_assoc, ← Bool.decide_or, ne_eq, Nat.add_eq_zero_iff, Classical.not_and_iff_not_or_not]
  · rw [all, hw, one]
    rw [one] at counts
    have same : g.state.ctl.capacity = f.state.ctl.capacity := by rw [rest]
    simp only [List.singleton_append, List.zip_cons_cons, List.zip_nil_right, List.count_cons, List.count_nil] at counts ⊢
    intro h1 h2
    obtain ⟨u, v⟩ := counts (by omega) (by omega)
    obtain ⟨u', v'⟩ := counts' (by omega) (by omega)
    omega
  · exact fun hs => wf' (wf hs)
  · intro hs a ha
    rw [outside' (wf hs) a fun k hk y hy => ha k (List.mem_cons_of_mem _ hk) y ((other k hk).symm.trans hy),
      outside hs a fun k hk => ha k (List.mem_singleton.1 hk ▸ List.mem_cons_self)]

/-- The flush of a list of entries none of which stands in it twice (R47, R206). -/
theorem flush_spec {es : List EntryNo} (hn : es.Nodup) (f : Flush) : Flushes es f (es.foldl flushOne f) := by
  induction es generalizing f with
  | nil =>
    have none_marked : f.state.retireMarks [] = [] := rfl
    constructor <;> simp [none_marked, restartMatches]
  | cons e es ih =>
    rw [List.nodup_cons] at hn
    have htail := ih hn.2 (flushOne f e)
    rw [List.foldl_cons]
    cases h : f.state.entry e with
    | none =>
      rw [flushOne_free h] at htail ⊢
      obtain ⟨entry, written, lost, rest, counts, wf, outside⟩ := htail
      rw [← retireMarks_cons_none h] at written lost rest counts
      refine ⟨fun k => ?_, written, lost, rest, counts, wf, fun hw a ha => outside hw a fun k hk => ha k (List.mem_cons_of_mem _ hk)⟩
      rw [entry k]
      by_cases hk : k = e
      · subst hk; simp [h]
      · simp [hk]
    | some x => exact (flushOne_spec h).cons h hn.1 htail (flushOne_writes h _)

end Sys2Proof.Machine
end

