-- ==== Sys2Proof/Tests/Slice0.lean ====
section
/-! SUPPORT. Tests: ill-formed commands are refused, worked cases of the book come out as the book says, and for every statement
with hypotheses a witness that meets them. Expected values are the book's; the rule is named at each test. -/
namespace Sys2Proof.Tests

open Sys2Proof.Machine

-- One theorem after another: the kernel's evaluations then do not wait for each other in many threads.
set_option Elab.async false

/-! ## Small states -/

/-- An account record: class 1, four sessions, groups A and B permitted, group A its default, the password "ab12". -/
def acct : Account :=
  { status := .live, cls := 1, sessionLimit := 4, permitted := 0x03, defaultGroup := some 0, password := 12836369,
    failedCount := 0, allotment := 100, overdraft := 0, lowThreshold := 30, bandTotals := Vector.replicate 4 0, waitTotal := 0,
    connectSeconds := 0, lastSignOn := none }

/-- Account 7 open in an entry, from slot 7, with one session. -/
def entry : OatEntry :=
  { state := .opened, account := 7, slot := 7, count := 1, acct := acct, dirty := false, retirePending := false }

/-- Reset, with the commands that follow it taken from the buses and a store of 1,024 slots attached. -/
def base : State :=
  { State.reset with
    ctl := { State.reset.ctl with attachment := .attached, capacity := 1024 }
    lc := { State.reset.lc with bus := [], params := { State.reset.lc.params with acceptingCalls := true } }
    pa := { State.reset.pa with bus := [] } }

/-- Line 5 in a phase. -/
def inPhase (p : Phase) : State := base.modLine 5 (fun r => { r with phase := p })

/-- Line 5 ADMITTED in a stage under account 7, open in entry 0. -/
def session (st : AdmittedStage) : State :=
  (base.setEntry 0 (some entry)).modLine 5 (fun r =>
    { r with phase := .admitted st, account := some 7, entryRef := some 0, selectedGroup := some 0 })

/-- Line 5 ADMITTED in a stage and port 3 of group A in a state, each naming the other. -/
def linked (st : AdmittedStage) (ps : PortState) : State :=
  ((session st).modLine 5 (fun r => { r with port := some 3 })).modPort 3 (fun x =>
    { x with group := some 0, state := ps, hostReady := true, line := some 5 })

/-- Line 5 WAITING in the queue of group A. -/
def queued : State :=
  (session .waiting).modGroup 0 (fun x => { x with queue := [{ line := 5, priority := 0, announced := 1 }] })

/-- Account 7 open in entry 0 with no session and a state. -/
def idleEntry (st : EntryState) : State := base.setEntry 0 (some { entry with state := st, count := 0 })

/-- The store with account 7 in slot 7. -/
def stored : State := { base with store := storeSlot [] 7 (encodeSlot .inUse 7 acct), ctl := { base.ctl with inUse := 1 } }

/-- The same state with the rotation pointing at a class. -/
def turnOf (c : RotationClass) (s : State) : State := { s with ctl := { s.ctl with rotation := c } }

/-- The same state with a store operation in progress. -/
def doing (o : Operation) (s : State) : State := { s with ctl := { s.ctl with inProgress := some o } }

/-- Whether a command gives a next state with a property. -/
def nextHas (o : Host.Outcome State Fault Refusal) (p : State → Bool) : Bool :=
  match o with
  | .next t => p t
  | .fault _ => false
  | .refused _ => false

theorem base_entries : ∀ e : EntryNo, base.entry e = none := by decide +kernel
theorem stored_entries : ∀ e : EntryNo, stored.entry e = none := by decide +kernel
theorem session_entries : ∀ st : AdmittedStage, ∀ k : EntryNo, k ≠ 0 → (session st).entry k = none := by
  intro st; cases st <;> decide +kernel
theorem idleEntry_entries : ∀ st : EntryState, ∀ k : EntryNo, k ≠ 0 → (idleEntry st).entry k = none := by
  intro st; cases st <;> decide +kernel

/-- No entry holds an account where no entry holds any. -/
theorem none_holds {s : State} (h : ∀ e, s.entry e = none) (p : OatEntry → Prop) : ∀ e x, s.entry e = some x → p x :=
  fun e x hx => by rw [h e] at hx; cases hx

/-- The only entry in use is entry 0. -/
theorem only_zero {s : State} (h : ∀ k, k ≠ 0 → s.entry k = none) (n : Nat) :
    ∀ k y, s.entry k = some y → y.account = n → k = (0 : EntryNo) :=
  fun k y hy _ => Classical.byContradiction fun hk => by rw [h k hk] at hy; cases hy

/-! ## Ill-formed commands are refused -/

def tooLong : NewAccount :=
  { account := 7, cls := 0, sessionLimit := 1, permitted := 1, defaultGroup := 1, allotment := 5, lowThreshold := 1 }

def illFormedEvents : List Instr :=
  [.powerOnReset 0 (List.replicate 41 true), .secondEvent { moments := [.step 3, .step 3] }, .ring 128, .carrierOn 128, .carrierOff 128,
    .lineRxChar 128 65, .rxBreak 128, .txDone 128, .storeOperationComplete [.left (List.replicate 39 0)],
    .storeOperationComplete [.mixed (List.replicate 41 true)],
    .secondEvent { moments := [.storeOperationComplete [.left (List.replicate 39 0)]] }, .frameRejected 0 (List.replicate 256 0),
    .unknownRequest 0 (List.replicate 256 0)]

def illFormedStoreRequests : List Instr :=
  [.attachStore 256 0, .attachStore 0 256, .addAccount { tooLong with account := 16777216 },
    .addAccount { tooLong with cls := 256 }, .addAccount { tooLong with sessionLimit := 256 },
    .addAccount { tooLong with permitted := 256 }, .addAccount { tooLong with defaultGroup := 256 },
    .addAccount { tooLong with allotment := 16777216 }, .addAccount { tooLong with lowThreshold := 65536 },
    .setPassword 16777216 [], .setPassword 7 (List.replicate 9 65), .changeAccount 16777216 {},
    .changeAccount 7 { cls := some 256 }, .changeAccount 7 { sessionLimit := some 256 },
    .changeAccount 7 { permitted := some 256 }, .changeAccount 7 { defaultGroup := some 256 },
    .changeAccount 7 { lowThreshold := some 65536 }, .changeAccount 7 { status := some 256 }, .grant 16777216 1,
    .grant 7 16777216, .revoke 16777216 1, .revoke 7 16777216, .forgive 16777216, .readAccount 16777216,
    .readSlots 65536 1, .readSlots 0 256, .readAndClearTotals 16777216, .replaceSlot 65536 (List.replicate 40 0),
    .replaceSlot 0 (List.replicate 39 0), .retire 16777216, .discardOpen 16777216]

def illFormedTariffRequests : List Instr :=
  [.writeSchedule 65536 [0], .writeSchedule 0 [], .writeSchedule 0 (List.replicate 79 0), .writeSchedule 0 [256],
    .writeRates 256 [0, 0, 0, 0] 0, .writeRates 0 [0, 0, 0] 0, .writeRates 0 [0, 0, 0, 65536] 0,
    .writeRates 0 [0, 0, 0, 0] 65536, .writeClass 256 {}, .writeClass 0 { allowedBands := some 256 },
    .writeClass 0 { queuePriority := some 256 }, .writeClass 0 { grace := some 65536 },
    .writeClass 0 { idleLimit := some 65536 }, .writeClass 0 { idleWarning := some 65536 },
    .writeClass 0 { exhaustionGrace := some 65536 }, .writeClass 0 { hoursGrace := some 65536 },
    .readTariffSchedule 256 0 0, .readTariffSchedule 0 65536 0, .readTariffSchedule 0 0 256, .readTariffRates 256 0,
    .readTariffRates 0 256, .readTariffClass 256 0, .readTariffClass 0 256, .setClock 65536 0, .setClock 0 256]

def illFormedOtherRequests : List Instr :=
  [.setLineParameters { busyOut := some 256 }, .setLineParameters { escapeMask := some 256 }, .lineServiceOut 256,
    .lineServiceIn 256, .forceEnd 256, .readLine 256, .clearSummary 256, .writeMessage 256 [],
    .writeMessage 0 (List.replicate 80 65), .configurePort 256 0 0, .configurePort 0 256 0, .configurePort 0 0 256,
    .portServiceOut 256, .portServiceIn 256, .returnPort 256, .setGroup 256 {}, .setGroup 1 { queueLimit := some 256 },
    .setGroup 1 { waitLimit := some 256 }, .setGroup 1 { failoverAllowance := some 65536 },
    .setGroup 1 { congestionMode := some 256 }, .setGroup 1 { congestionThreshold := some 256 }, .readPort 256, .readGroup 256,
    .clearCounters 256, .setWatch 256 1 1 1 0, .setWatch 0 16777216 1 1 0, .setWatch 0 1 16777216 1 0, .setWatch 0 1 1 256 0,
    .setWatch 0 1 1 1 256, .clearWatch 256, .readWatch 256, .verdictAdmit 256, .verdictRefuse 256]

theorem test_illFormed_events : illFormedEvents.all (fun i => !i.wellFormed) = true := by decide +kernel
theorem test_illFormed_storeRequests : illFormedStoreRequests.all (fun i => !i.wellFormed) = true := by decide +kernel
theorem test_illFormed_tariffRequests : illFormedTariffRequests.all (fun i => !i.wellFormed) = true := by decide +kernel
theorem test_illFormed_otherRequests : illFormedOtherRequests.all (fun i => !i.wellFormed) = true := by decide +kernel

/-! ## Worked cases of the book -/

/-- The password "ab12" (R8, worked case): the value after each character. -/
theorem test_fold_ab12 :
    [passwordFold [97], passwordFold [97, 98], passwordFold [97, 98, 49], passwordFold [97, 98, 49, 50]] =
      [1037486, 1693036, 3683957, 12836369] := by decide +kernel

/-- A slot with one account (R3): the image is sound, and one flipped bit makes it damaged. -/
theorem test_slot_image :
    decodeSlot (encodeSlot .inUse 7 acct) = .inUse 7 acct ∧
      decodeSlot ((encodeSlot .inUse 7 acct).set 9 0xFF) = .damaged := by decide +kernel

/-- The probe chain (R7, example): both accounts have home slot 257, and the second is placed at 258. -/
def chain : Host.Outcome State Fault Refusal :=
  let add (n : Nat) : List Instr := [.addAccount { tooLong with account := n }, .rotationChoice, .storeOperationComplete [.good]]
  execAll (add 4101377 ++ add 4102401) base

theorem test_probe_chain :
    nextHas chain (fun t =>
      (t.lookup 4102401 matches .found 258 _) && (t.lookup 4103425 matches .notFound (some 259)) && decide (t.ctl.inUse = 2)) = true := by
  decide +kernel

/-- The greatest rate on the greatest residue: two credits and 5,534 (R128, Arithmetic at the limits). -/
theorem test_greatest_rate :
    let s := (session .connected).modLine 5 (fun r => { r with residue := 59999 })
    let t := chargeSecond s { s.cal.view with bandRates := Vector.replicate 4 65535 } 5 0 .connected
    (t.line 5).residue = 5534 ∧ (t.line 5).charged = 2 ∧ (t.entry 0).map (fun x => x.acct.allotment) = some 98 := by
  decide +kernel

/-- A debit of 2 with allotment 1: overdraft 1 (R129, Arithmetic at the limits). -/
theorem test_debit_into_overdraft :
    let s := ((session .connected).setEntry 0 (some { entry with acct := { acct with allotment := 1 } })).modLine 5
      (fun r => { r with residue := 59999 })
    let t := chargeSecond s { s.cal.view with bandRates := Vector.replicate 4 65535 } 5 0 .connected
    (t.entry 0).map (fun x => (x.acct.allotment, x.acct.overdraft)) = some (0, 1) := by
  decide +kernel

/-- The closing of the meter posts nothing at 29,999 and one credit at 30,000 (R132, Arithmetic at the limits). -/
theorem test_closing_rounds :
    let ended (n : Nat) := exec (.hostDisconnect 3) ((linked .connected .inUse).modLine 5 (fun r =>
      { r with residue := n, lastCategory := some (.band 1) }))
    nextHas (ended 29999) (fun t => decide ((t.line 5).charged = 0 ∧ (t.line 5).residue = 0)) = true ∧
      nextHas (ended 30000) (fun t => decide ((t.line 5).charged = 1 ∧ (t.line 5).residue = 0)) = true := by
  decide +kernel

/-- The spare move (R171 to R173, worked example): port 21 lost, the call goes to spare 30, the allowance falls to 1. -/
theorem test_spare_move :
    let s := (((session .connected).modLine 5 (fun r => { r with port := some 21, residue := 55500, idleCount := some 40 })).modPort
      21 (fun x => { x with group := some 2, state := .inUse, hostReady := true, line := some 5 })).modPort 30 (fun x =>
        { x with group := some 2, role := .spare, state := .free, hostReady := true })
    nextHas (exec (.hostReadyOff 21) (s.modGroup 2 (fun x => { x with failoverAllowance := 2 }))) (fun t =>
      decide ((t.port 21).state = .faulted ∧ (t.port 21).faultCause = some .readyLost ∧ (t.port 30).state = .calling ∧
        (t.port 30).callTimer = some 15 ∧ (t.line 5).phase = .admitted .moving ∧ (t.line 5).moveCount = 1 ∧
        (t.line 5).residue = 55500 ∧ (t.line 5).idleCount = some 40 ∧ (t.group 2).failoverAllowance = 1 ∧
        t.attn.failoverSpent.get 2 = false)) = true := by
  decide +kernel

/-- A session ended by its host (chapter 9, worked example): the residue of 42,000 is one credit, and the freed port goes to the
head of the queue. -/
theorem test_ended_by_host :
    let s := (linked .connected .inUse).modLine 5 (fun r =>
      { r with residue := 42000, lastCategory := some (.band 1), charged := 12, carrier := true })
    let s := (s.modLine 60 (fun r => { r with phase := .admitted .waiting, account := some 7, entryRef := some 0 })).modGroup 0
      (fun x => { x with queue := [{ line := 60, priority := 0, announced := 2 }, { line := 61, priority := 2, announced := 2 }] })
    nextHas (exec (.hostDisconnect 3) (s.setEntry 0 (some { entry with count := 2, acct := { acct with allotment := 51 } }))) (fun t =>
      decide ((t.line 5).phase = .closing ∧ (t.line 5).charged = 13 ∧ (t.port 3).line = some 60 ∧ (t.port 3).state = .calling ∧
        (t.line 60).phase = .admitted .calling ∧ (t.group 0).queue.map (fun q => q.line) = [61] ∧
        (t.entry 0).map (fun x => (x.count, x.acct.allotment, x.dirty)) = some (1, 50, true))) = true := by
  decide +kernel

/-- Two sessions of account 7, CONNECTED on ports 3 and 4 under an exhausted entry, with their countdowns at a count, and a GRANT
of 20 that waits its turn. -/
def twins (count : Nat) : State :=
  let x : OatEntry := { entry with count := 2, acct := { acct with allotment := 0, lowThreshold := 9 } }
  let r (p : PortNo) (residue : Nat) (r : LineRec) : LineRec :=
    { r with phase := .admitted .connected, account := some 7, entryRef := some 0, selectedGroup := some 0, port := some p,
             exhaustion := some count, residue := residue, lastCategory := some (.band 2), lowWarned := true, carrier := true }
  let port (l : LineNo) (x : PortRec) : PortRec :=
    { x with group := some 0, state := .inUse, hostReady := true, line := some l }
  let s := ((base.setEntry 0 (some x)).modLine 21 (r 3 29500)).modLine 66 (r 4 59500)
  let s := (s.modPort 3 (port 21)).modPort 4 (port 66)
  { s with ctl := { s.ctl with rotation := .supervisor, waiting := some (.grant 7 20) } }

/-- The steps of an event whose ended second was charged at 500 in band 2, with both countdowns at 0 after their decrease. -/
def twinSteps (moments : List SecondMoment) : State :=
  takeMoments { base.cal.view with band := 2, bandRates := Vector.replicate 4 500 } [21, 66] moments (twins 0)

/-- A grant at the expiry (chapter 6, the table of the worked case, third row): line 66 ends with overdraft 1, the grant repays
it and leaves 19, and line 21 is charged and carries on with S = 30,000. -/
theorem test_grant_after_line_66 :
    let t := twinSteps [.step 66, .expiry (.exhaustion 66), .rotationChoice]
    (t.entry 0).map (fun x => (x.acct.allotment, x.acct.overdraft, x.count)) = some (19, 0, 1) ∧
      (t.line 66).phase = .closing ∧ (t.line 21).phase = .admitted .connected ∧ (t.line 21).residue = 30000 ∧
      (t.line 21).exhaustion = none := by
  decide +kernel

/-- The fourth row: line 21 ends, its closing credit gives overdraft 1, the grant leaves 19, and line 66 debits: 18. -/
theorem test_grant_after_line_21 :
    let t := twinSteps [.step 21, .expiry (.exhaustion 21), .rotationChoice]
    (t.entry 0).map (fun x => (x.acct.allotment, x.acct.overdraft, x.count)) = some (18, 0, 1) ∧
      (t.line 21).phase = .closing ∧ (t.line 66).phase = .admitted .connected ∧ (t.line 66).residue = 0 := by
  decide +kernel

/-- The codes of the two buses (R52, R147): RX_CHAR is 3, 6 names no line event and 5 no port event; RELEASE is 1, CALL is 0 and
carries the line, the account number and the class. -/
theorem test_bus_codes :
    (LineTransfer.mk 5 3 65).event = some (.lineRxChar 5 65) ∧ (LineTransfer.mk 5 6 0).event = none ∧
      (PortTransfer.mk 3 5 0).event = none ∧ State.reset.lineBusOut = some (0, 1, []) ∧
      (PortCmd.call 3 5 7 1).code = 0 ∧ (PortCmd.call 3 5 7 1).data = [5, 0, 0, 7, 1] := by
  decide +kernel

/-- DESCRIBE after reset (R205): 0A60 hex, revision 1, 96 lines, 64 ports, 112 entries, no store. -/
theorem test_describe_response :
    nextHas (exec .describe State.reset) (fun t =>
      decide (t.sup.response = [0, 0, 0, 15, 0x0A, 0x60, 1, 96, 64, 112, 0, 0, 0, 0, 0, 0, 0, 0, 0])) = true := by
  decide +kernel

/-- Tuesday 18:00 is minute 2,520 of the week (R106, R109): the latching there takes the band of slot 84. -/
theorem test_tuesday_evening :
    let s := { base with cal := { base.cal with minute := 2519, second := 59, active :=
      { base.cal.active with schedule := base.cal.active.schedule.set 84 1 } } }
    let c := (latchSecond s).cal
    c.minute = 2520 ∧ c.second = 0 ∧ c.view.band = 1 ∧ c.prevView.band = 0 := by
  decide +kernel

/-- A command waits first in, first out. -/
theorem test_queue_order :
    nextHas (step { State.reset with pending := [.readClock, .describe] }) (fun t => decide (t.pending = [.describe])) = true := by
  decide +kernel

/-- An empty queue idles. -/
theorem test_empty_queue : step State.reset = .next State.reset := by rfl

/-! ## Witnesses: every statement with hypotheses has a state and operands that meet them -/

/-- A port call of account 7, closed for the meter: what the lists of entries hold. -/
theorem session_holds (st : AdmittedStage) : (session st).entry 0 = some entry := by cases st <;> decide +kernel

theorem witness_StepTakesFrontCommand : ({ base with pending := [.describe, .flush] } : State).pending = .describe :: [.flush] := rfl

theorem witness_PowerOnResetKeepsStore :
    StoreCanonical stored ∧ (∀ o, (doing o stored).store = stored.store ∧ (doing o stored).ctl.inProgress = some o) ∧
      stored.ctl.inProgress = none ∧ (∀ e x, stored.entry e = some x → x.account ≠ 7) ∧ stored.lookup 7 = .found 7 acct ∧
      stored.lookup 8 ≠ .found 8 acct ∧ stored.lookupForAdd 8 = .notFound (some 8) ∧ (0 : Nat) ≠ 1 ∧ stored.ctl.capacity ≤ 8192 ∧
      (1023 * 40 / 40 < stored.ctl.capacity ∧ stored.ctl.capacity ≤ 1024 * 40 / 40) ∧
      (idleEntry .closing).entry 0 = some { entry with state := .closing, count := 0 } := by
  refine ⟨by unfold StoreCanonical; decide +kernel, fun o => ⟨rfl, rfl⟩, rfl, none_holds stored_entries _, ?_⟩
  decide +kernel

theorem acct_inRange : AccountInRange acct := by
  refine ⟨by decide, by decide, by decide, by decide, by decide, by decide, by decide +kernel, by decide, by decide, ?_⟩
  intro m l h; cases h

/-- Line 5 in CONNECTED on port 3, which any step leaves for a next state. -/
theorem witness_RecordsStayInRange :
    let s := { linked .connected .inUse with pending := [.hostDisconnect 3] }
    (∃ t, step s = .next t) ∧ StoreCanonical s ∧ ResiduesInRange s ∧ WriteBackListOnce s ∧ AccountItemsOrdered s ∧
      PortFlagsApart s ∧ PoliciesInRange s ∧ ParamsInRange s ∧ MessagesFit s ∧ GroupsInRange s ∧ ClockInRange s ∧
      AccountsInRange s ∧ ∀ c ∈ s.pending, c.wellFormed = true := by
  refine ⟨⟨_, rfl⟩, ?_, ?_, ?_, ?_, ?_, ?_, ?_, ?_, ?_, ?_, ⟨fun e x hx => ?_, fun r h => ?_, fun r h => ?_⟩, ?_⟩
  · unfold StoreCanonical; decide +kernel
  · unfold ResiduesInRange; decide +kernel
  · unfold WriteBackListOnce; decide +kernel
  · unfold AccountItemsOrdered; decide +kernel
  · unfold PortFlagsApart; decide +kernel
  · unfold PoliciesInRange PolicyInRange; decide +kernel
  · unfold ParamsInRange; decide +kernel
  · unfold MessagesFit; decide +kernel
  · unfold GroupsInRange; decide +kernel
  · unfold ClockInRange; decide +kernel
  · by_cases he : e = 0
    · subst he
      have h0 : (linked .connected .inUse).entry 0 = some entry := by decide +kernel
      have := h0.symm.trans hx
      cases this
      exact ⟨by decide, by decide, acct_inRange⟩
    · have hk : ∀ k : EntryNo, k ≠ 0 → (linked .connected .inUse).entry k = none := by decide +kernel
      exact absurd ((hk e he).symm.trans hx) (by simp)
  · exact absurd (show (none : Option StoreReq) = some r from h) (by simp)
  · exact absurd (show (none : Option Operation) = some (.supervisor r) from h) (by simp)
  · decide +kernel

theorem linked_links : LinksLawful (linked .connected .inUse) := by
  unfold LinksLawful PortsNameLines PortStagesAgree QueuesHoldWaiting QueuesWaitForPorts
  refine ⟨?_, ?_, ⟨?_, ?_⟩, ?_, ?_⟩
  · decide +kernel
  · decide +kernel
  · decide +kernel
  · decide +kernel
  · decide +kernel
  · decide +kernel

/-- Where entry 0 alone is in use, the laws of the entries are those of entry 0. -/
theorem entries_of_zero {s : State} {x : OatEntry} (h0 : s.entry 0 = some x) (hk : ∀ k : EntryNo, k ≠ 0 → s.entry k = none)
    (hc : x.count = (s.sessions 0).length) (hs : ∀ k : EntryNo, k ≠ 0 → s.sessions k = [])
    (hx : x.acct.sessionLimit ≤ 4 ∧ x.count ≤ 4 ∧ x.state = .opened ∧ 1 ≤ x.count ∧ (x.retirePending = true → x.state ≠ .stuck)) :
    CountsMatch s ∧ EntriesLawful s := by
  have only : ∀ e y, s.entry e = some y → e = 0 ∧ y = x := fun e y hy => by
    by_cases he : e = 0
    · subst he; rw [h0] at hy; cases hy; exact ⟨rfl, rfl⟩
    · rw [hk e he] at hy; cases hy
  refine ⟨fun e => ?_, fun e y hy => ?_, fun e k y z hy hz _ => (only e y hy).1.trans (only k z hz).1.symm⟩
  · by_cases he : e = 0
    · subst he; rw [h0]; exact hc
    · rw [hk e he]; exact hs e he
  · obtain ⟨rfl, rfl⟩ := only e y hy
    obtain ⟨h1, h2, h3, h4, h5⟩ := hx
    refine ⟨h1, h2, ⟨fun _ => h4, fun _ => h3⟩, fun h => ?_, fun h => ?_, h5⟩
    · rw [h3] at h; cases h
    · rw [h3] at h; cases h

theorem linked_sessions : SessionsLawful (linked .connected .inUse) := by
  have h := entries_of_zero (s := linked .connected .inUse) (x := entry) (by decide +kernel) (by decide +kernel)
    (by decide +kernel) (by decide +kernel) ⟨by decide, by decide, rfl, by decide, fun h => by cases h⟩
  exact ⟨h.1, h.2, by decide +kernel, fun n hn => (by cases hn), fun h => (by cases h)⟩

theorem witness_LinksStayLawful : ∃ t, LinksLawful (linked .connected .inUse) ∧
    step { linked .connected .inUse with pending := [.hostDisconnect 3] } = .next t := ⟨_, linked_links, rfl⟩

theorem witness_SessionsStayCounted : ∃ t, LinksLawful (linked .connected .inUse) ∧ SessionsLawful (linked .connected .inUse) ∧
    step { linked .connected .inUse with pending := [.hostDisconnect 3] } = .next t := ⟨_, linked_links, linked_sessions, rfl⟩

/-- Line 5 in CHECKING, its VERIFY waiting; another operation of the line, under an earlier attempt, is in progress. -/
def checkingQueued : State :=
  let s := base.modLine 5 (fun r => { r with phase := .signon .checking, attempt := 1, account := some 7 })
  { s with ctl := { s.ctl with
      signOnQueue := [{ line := 5, attempt := 1, kind := .verify 1 false, account := 7 }]
      inProgress := some (.signOn { line := 5, attempt := 0, kind := .verify 1 false, account := 7 }) } }

theorem witness_SignOnQueueStaysLawful : ∃ t, SignOnQueueLawful checkingQueued ∧ AttemptsTold checkingQueued ∧
    step { checkingQueued with pending := [.carrierOff 5] } = .next t := by
  refine ⟨_, ⟨by decide, fun op h => ?_⟩, fun op h w hw _ => ?_, rfl⟩
  · cases List.mem_singleton.mp h; exact ⟨rfl, rfl⟩
  · cases h; cases List.mem_singleton.mp hw; decide

/-- The last second of a minute with the arm flag set and other wait rates in PENDING. -/
def swapping : State :=
  { base with cal :=
    { base.cal with second := 59, armed := true, pendingSet := { base.cal.pendingSet with waitRates := #v[1, 2, 3, 4] } } }

/-- A pass over a list changes nothing where none of its parts does. -/
theorem foldl_fixed {α : Type} (f : State → α → State) (s : State) (xs : List α) (h : ∀ x ∈ xs, f s x = s) :
    xs.foldl f s = s := by
  induction xs with
  | nil => rfl
  | cons x xs ih => rw [List.foldl_cons, h x (by simp), ih fun y hy => h y (by simp [hy])]

theorem meterSteps_fixed (v : View) (s : State) (h : ∀ l, (s.line l).phase = .idle) (ls : List LineNo) : meterSteps v ls s = s := by
  induction ls with
  | nil => rfl
  | cons l ls ih => rw [meterSteps, meterStep, h l]; exact ih

/-- With every line IDLE and every queue empty, the second event takes the tariff swap and nothing else of the calendar. -/
theorem swapping_second : (secondEvent {} swapping).cal = swapping.cal.secondEvent := by
  have hover : takeOverdue swapping = swapping := foldl_fixed _ _ _ fun x hx => by
    have : allExpiries.all (fun x => !expiryDue swapping x) = true := by decide +kernel
    have := List.all_eq_true.mp this x hx
    simp only [Bool.not_eq_true'] at this
    simp [takeExpiry, this]
  have hidle : ∀ l, ((latchSecond (tickTimers swapping)).line l).phase = .idle := by decide +kernel
  have hcount : allLines.foldl countIdle (latchSecond (tickTimers swapping)) = latchSecond (tickTimers swapping) :=
    foldl_fixed _ _ _ fun l _ => by simp [countIdle, hidle l]
  have hidle' : ∀ l, ((countCongestion (latchSecond (tickTimers swapping))).line l).phase = .idle := hidle
  have hjudge : ∀ b, allLines.foldl (judgeHours b) (countCongestion (latchSecond (tickTimers swapping))) =
      countCongestion (latchSecond (tickTimers swapping)) := fun b => foldl_fixed _ _ _ fun l _ => by
    simp [judgeHours, hidle' l, Phase.isAdmitted]
  have hqueue : ∀ g, ((countCongestion (latchSecond (tickTimers swapping))).group g).queue = [] := by decide +kernel
  have hann : allGroups.foldl announceQueue (countCongestion (latchSecond (tickTimers swapping))) =
      countCongestion (latchSecond (tickTimers swapping)) := foldl_fixed _ _ _ fun g _ => by simp [announceQueue, hqueue g]
  have hmin : (countCongestion (latchSecond (tickTimers swapping))).cal.view.minute % 15 ≠ 0 := by decide +kernel
  have hsec : (tickTimers swapping).cal.minuteNext = true := by decide +kernel
  simp only [secondEvent, hover, takeEarly, List.filter_nil, List.foldl_nil, hcount, takeMoments, meterSteps_fixed _ _ hidle', takeBandEdge,
    hjudge, ite_self, hsec, minuteEvent, hann, if_neg hmin]
  rfl

theorem witness_FlagsAndViewsKept :
    (∃ t, exec (.carrierOn 5) base = .next t ∧ (∀ d m, Instr.carrierOn 5 ≠ .powerOnReset d m) ∧
      ∀ order, Instr.carrierOn 5 ≠ .secondEvent order) ∧
    ∃ t, exec (.secondEvent {}) swapping = .next t ∧ t.cal.active ≠ swapping.cal.active :=
  ⟨⟨_, rfl, fun _ _ h => Instr.noConfusion h, fun _ h => Instr.noConfusion h⟩, _, rfl, fun h => by
    rw [swapping_second] at h
    exact absurd (congrArg (fun a : TariffSet => a.waitRates.get 0) h) (by decide +kernel)⟩

theorem witness_StoreWrittenOnlyByOperations :
    (∃ t, exec (.secondEvent {}) stored = .next t ∧ (∀ w, Instr.secondEvent {} ≠ .storeOperationComplete w) ∧
      (∀ order w, Instr.secondEvent {} = .secondEvent order → SecondMoment.storeOperationComplete w ∉ order.moments) ∧
      ∀ d m, Instr.secondEvent {} ≠ .powerOnReset d m) ∧
    ∃ t, exec (.powerOnReset 0 []) stored = .next t ∧ (∀ w, Instr.powerOnReset 0 [] ≠ .storeOperationComplete w) ∧
      stored.ctl.inProgress = none :=
  ⟨⟨_, rfl, fun _ h => Instr.noConfusion h, fun _ _ h => by cases h; exact List.not_mem_nil, fun _ _ h => Instr.noConfusion h⟩,
    _, rfl, fun _ h => Instr.noConfusion h, rfl⟩

theorem witness_SlotImageCarriesAccount :
    (1 ≤ 1 ∧ 1 ≤ maxAccount ∧ 9999999 ≤ maxAccount ∧ AccountInRange acct) ∧
    ((encodeSlot .inUse 7 acct).length = 40 ∧ decodeSlot (encodeSlot .inUse 7 acct) = .inUse 7 acct) ∧
    ((encodeSlot .vacated 7 acct).length = 40 ∧ decodeSlot (encodeSlot .vacated 7 acct) = .vacated 7 acct) :=
  ⟨⟨by decide, by decide, by decide, acct_inRange⟩, by decide +kernel, by decide +kernel⟩

theorem witness_RequestRowsAreFrames :
    ((Instr.grant 9999999 16777215).wellFormed = true ∧
      requestOf (.grant 9999999 16777215) = some (.store (.grant 9999999 16777215))) ∧
    Instr.takeAttention.wellFormed = true ∧ requestOf .takeAttention = some (.quick .takeAttention) ∧ base.sup.request = [] ∧
      base.sup.received = 0 := by decide

/-- The request buffer with bytes already written. -/
def written (bytes : List Byte) (n : Nat) : State := { base with sup := { base.sup with request := bytes, received := n } }

theorem witness_StrobesMoveBytes :
    ((written [] 0).sup.received = (written [] 0).sup.request.length ∧ (written [] 0).sup.received = 0) ∧
    ((written [0x14] 1).sup.received = (written [0x14] 1).sup.request.length ∧ (written [0x14] 1).sup.received = 1 ∧
      (6 : Byte) ≠ 0) ∧
    (let s := written [0x14, 6] 2;
      s.sup.received = s.sup.request.length ∧ 2 ≤ s.sup.received ∧ s.sup.received < 82 ∧
        s.sup.received + 1 ≠ (s.sup.request.getD 1 0).toNat + 2) ∧
    (let s := written (0x14 :: 255 :: List.replicate 80 0) 255;
      82 ≤ s.sup.received ∧ s.sup.request.length = 82 ∧ s.sup.received + 1 ≠ (s.sup.request.getD 1 0).toNat + 2) ∧
    (let s := written (0x14 :: 255 :: List.replicate 80 0) 256;
      82 ≤ s.sup.received ∧ s.sup.request.length = 82 ∧ s.sup.received + 1 = (s.sup.request.getD 1 0).toNat + 2 ∧
        s.sup.busy = false ∧ { s.sup with busy := true }.busy = true ∧ (s.sup.request.getD 0 0).toNat ∈ requestCodes) ∧
    (let s := { base with sup := base.sup.answered 0 false [9] };
      s.sup.ready = true ∧ s.sup.readPos = 0 ∧ 1 ≤ s.sup.response.length ∧ s.sup.response.length = 5) ∧
    base.sup.ready = false := by decide +kernel

theorem witness_FramesRefused :
    (let s := { base with sup := { base.sup with busy := true } };
      s.sup.busy = true ∧ (requestOf .describe).isSome = true ∧
        (∃ code params, Instr.frameRejected 0 [] = .frameRejected code params ∨ Instr.frameRejected 0 [] = .unknownRequest code params)) ∧
    base.sup.busy = false ∧ ([] : List Byte).length < 256 ∧ (0 : Byte).toNat ∉ requestCodes ∧
    (0x12 : Byte).toNat ∈ requestCodes ∧ ¬(3 ≤ [(0 : Byte), 0].length) ∧ ¬((List.replicate 12 (0 : Byte)).length ≤ 11) := by
  refine ⟨⟨rfl, rfl, 0, [], .inl rfl⟩, ?_⟩; decide +kernel

theorem witness_StoreRequestsAccepted :
    (base.sup.busy = false ∧ base.ctl.attachment ≠ .noStore ∧ 1023 < base.ctl.capacity ∧
      (let p : NewAccount := { tooLong with account := 9999999, cls := 3, permitted := 63, defaultGroup := 6 };
        1 ≤ p.account ∧ p.account ≤ 9999999 ∧ p.cls ≤ 3 ∧ p.permitted ≤ 63 ∧ p.defaultGroup ≤ 6) ∧
      (let chars : List Byte := [33, 126, 33, 126];
        4 ≤ chars.length ∧ chars.length ≤ 8 ∧ ∀ c ∈ chars, 33 ≤ c.toNat ∧ c.toNat ≤ 126) ∧
      (List.replicate 40 (0 : Byte)).length = 40 ∧ imageView (List.replicate 40 0) = .empty ∧
      imageView (encodeSlot .inUse 7 acct) = .inUse 7 acct ∧ acct.overdraft = 0) ∧
    ((∀ c, ({} : AccountChange).cls = some c → c ≤ 3) ∧
      ∀ x, ({ status := some 2 } : AccountChange).status = some x → x = 0 ∨ x = 2) ∧
    (State.reset.sup.busy = false ∧ State.reset.ctl.attachment = .noStore ∧
      requestOf (.grant 7 5) = some (.store (.grant 7 5)) ∧ requestLengthFits (.store (.grant 7 5)) = true ∧
      (∀ size clear, StoreReq.grant 7 5 ≠ .attach size clear) ∧ StoreReq.grant 7 5 ≠ .restart) ∧
    ((0 : Nat) = 0 ∨ 9999999 < 0) ∧ 9999999 < 10000000 ∧
    (let p : NewAccount := { tooLong with cls := 4 };
      1 ≤ p.account ∧ p.account ≤ 9999999 ∧ 3 < p.cls) ∧
    (∃ g, ({ defaultGroup := some 7 } : AccountChange).defaultGroup = some g ∧ 6 < g) ∧
    (let chars : List Byte := [65, 66, 67];
      chars.length ≤ 8 ∧ 1 ≤ chars.length ∧ chars.length < 4) ∧
    (let chars : List Byte := [65, 66, 67, 127];
      chars.length ≤ 8 ∧ ∃ c ∈ chars, c.toNat < 33 ∨ 126 < c.toNat) ∧
    (1 ≠ 0 ∧ 1 ≠ 2) ∧ base.ctl.capacity ≤ 1024 ∧
    (let image := encodeSlot .inUse 0 acct;
      image.length = 40 ∧ imageByte image 0 = 1 ∧ imageNat image 2 3 = 0) ∧
    (let image := encodeSlot .inUse 9999999 acct;
      imageByte image 0 = 1 ∧ imageNat image 2 3 = 9999999) ∧ imageByte (List.replicate 40 0) 0 = 0 ∧
    (let image := (List.replicate 40 (0 : Byte)).set 0 3;
      image.length = 40 ∧ imageView image = .damaged) ∧
    (let a : Account := { acct with overdraft := 1 };
      imageView (encodeSlot .vacated 7 a) = .vacated 7 a ∧ 0 < a.allotment ∧ 0 < a.overdraft) := by
  refine ⟨by decide +kernel, ⟨by simp, by simp⟩,
    ⟨rfl, rfl, rfl, by decide +kernel, fun _ _ h => StoreReq.noConfusion h, fun h => StoreReq.noConfusion h⟩,
    by decide, by decide, by decide, ⟨7, rfl, by decide⟩, ?_⟩
  decide +kernel

/-- The arm flag set. -/
def armed : State := { base with cal := { base.cal with armed := true } }

theorem witness_ArmTariff :
    base.sup.busy = false ∧ base.cal.armed = false ∧ armed.cal.armed = true ∧ 2 < (3 : Byte).toNat ∧ base.sup.request = [] ∧
    base.sup.received = 0 ∧ ([3] : List Nat) ≠ [] ∧ [3].length ≤ 78 ∧ 335 + [3].length ≤ 336 ∧ (∀ b ∈ [3], b ≤ 3) ∧
    (∃ t, exec .describe armed = .next t) ∧ ∀ d m, Instr.describe ≠ .powerOnReset d m :=
  ⟨rfl, rfl, rfl, by decide, rfl, rfl, by decide, by decide, by decide, by decide, ⟨_, rfl⟩, fun _ _ h => Instr.noConfusion h⟩

theorem witness_WriteScheduleCases :
    base.sup.busy = false ∧ base.cal.armed = false ∧ armed.cal.armed = true ∧ armed.sup.busy = false ∧
    ([] : List Byte).length < 3 ∧ 80 < (List.replicate 81 (0 : Byte)).length ∧ (List.replicate 78 0).length ≤ 78 ∧ ([0] ≠ ([] : List Nat) ∧ 335 < 336) ∧ (335 ≤ 335 ∧ ∃ b ∈ [4], 3 < b) ∧
    (335 ≤ 335 ∧ (∀ b ∈ [0, 0], b ≤ 3) ∧ 336 < 335 + [0, 0].length) ∧
    ([3] ≠ ([] : List Nat) ∧ (∀ b ∈ [3], b ≤ 3) ∧ 335 + [3].length ≤ 336) := by decide

theorem witness_WriteRatesAndClass :
    base.sup.busy = false ∧ 3 < 4 ∧ [0, 0, 0, 0].length = 4 ∧ base.cal.armed = false ∧
      (∀ b, ({ allowedBands := some 15 } : PolicyChange).allowedBands = some b → b ≤ 15) ∧
      ({ allowedBands := some 16 } : PolicyChange).allowedBands = some 16 ∧ 15 < 16 :=
  ⟨rfl, by decide, rfl, rfl, fun _ h => by cases h; decide, rfl, by decide⟩

theorem witness_CalendarAndTariffRead : base.sup.busy = false ∧ 2 ≤ 2 ∧ 1 ≤ 1 ∧ 335 < 336 ∧ 335 ≤ 335 ∧ 3 < 4 := by decide

theorem witness_LineSettings : base.sup.busy = false ∧ (List.replicate 79 (65 : Byte)).length ≤ 79 ∧ 15 < 16 := by decide

theorem witness_LineServiceAndForceEnd :
    (∀ p, (inPhase p).sup.busy = false ∧ ((inPhase p).line 5).phase = p) ∧ Phase.answering.inCall = true ∧
    (Phase.signon .held).inCall = true ∧ (Phase.admitted .moving).inCall = true ∧ Phase.guard ≠ .down ∧ Phase.guard ≠ .idle ∧
    1 < (2 : Byte).toNat ∧ (inPhase .idle).sup.request = [] ∧ (inPhase .idle).sup.received = 0 ∧ 95 < 96 := by
  refine ⟨fun p => ⟨rfl, rfl⟩, ?_⟩; decide +kernel

theorem witness_ReadLine :
    (session .connected).sup.busy = false ∧ ((session .connected).line 5).account = some 7 ∧ 7 ≤ maxAccount ∧
    (base.line 5).account = none ∧ ((session .connected).line 5).residue < 60000 ∧
    ((session .connected).line 5).charged ≤ max24 ∧ 95 < 96 := by decide +kernel

/-- Watch 2 in use over accounts 1 to 9. -/
def watched : State := base.modWatch 2 (fun w => { w with inUse := true, low := 1, high := 9, kinds := 0x7 })

theorem witness_Watches :
    base.sup.busy = false ∧ 7 ≤ 7 ∧ 1 ≤ 1 ∧ nearest 1 9999999 0 ≤ nearest 1 9999999 9999999 ∧
    nearest 1 9999999 1 < nearest 1 9999999 2 ∧ 1 < 2 ∧ 7 < 8 ∧ 3 < 4 ∧
    ((watched.watches.get 2).inUse = true ∧ (watched.watches.get 2).low ≤ 9 ∧ 9 ≤ (watched.watches.get 2).high ∧
      (watched.watches.get 2).kinds.getLsbD 0 = true) ∧ ¬(watched.watches.get 1).inUse = true := by decide +kernel

/-- A session of account 7 with more than one credit, on which a call can end. -/
theorem witness_WatchesHit :
    (∀ w m (s : State), (s.line 5).phase = .signon .checking → (s.line 5).attempt = 1 →
      let d := doing (.signOn { line := 5, attempt := 1, kind := .verify w m, account := 7 }) s
      d.ctl.inProgress = some (.signOn { line := 5, attempt := 1, kind := .verify w m, account := 7 }) ∧
        (d.line 5).phase = .signon .checking ∧ (d.line 5).attempt = 1 ∧ d.lookup 7 = s.lookup 7 ∧ ∀ e, d.entry e = s.entry e) ∧
    (let s := stored.modLine 5 (fun r => { r with phase := .signon .checking, attempt := 1 });
      (s.line 5).phase = .signon .checking ∧ (s.line 5).attempt = 1 ∧ s.lookup 7 = .found 7 acct ∧
        (∀ e x, s.entry e = some x → x.account ≠ 7)) ∧
    base.lookup 7 = .notFound (some 7) ∧ ({ base with store := storeSlot [] 7 (List.replicate 40 1) } : State).lookup 7 = .damaged ∧
    (acct.password ≠ 0 ∧ acct.status = .live ∧ acct.password = 12836369 ∧ acct.password ≠ 1) ∧
    (acct.allotment ≠ 0 ∧ (base.cal.active.policies.get acct.cls).allowedBands.getLsbD base.cal.view.band.val = true ∧
      stored.entry 0 = none) ∧
    (let s := linked .connected .inUse;
      (s.line 5).phase.isAdmitted = true ∧ (s.line 5).entryRef = some 0 ∧ s.entry 0 = some entry ∧ 2 ≤ entry.acct.allotment ∧
        (s.line 5).account = some 7 ∧ s.sup.busy = false ∧ (s.port 3).state = .inUse ∧ (s.port 3).line = some 5) ∧
    (((linked .connected .inUse).modLine 5 (fun r => { r with carrierHold := some 0 })).line 5).carrierHold = some 0 ∧
    ((linked .escaped .inUse).line 5).phase = .admitted .escaped := by
  refine ⟨fun w m s h1 h2 => ⟨rfl, h1, h2, rfl, fun _ => rfl⟩, ⟨?_, ?_, ?_, none_holds stored_entries _⟩, ?_⟩
  · decide +kernel
  · decide +kernel
  · decide +kernel
  · decide +kernel

theorem witness_Verdicts :
    (inPhase (.signon .held)).sup.busy = false ∧ ((inPhase (.signon .held)).line 5).phase = .signon .held ∧
    (inPhase (.signon .held)).ctl.attachment = .attached ∧
    (let s := State.reset.modLine 5 (fun r => { r with phase := .signon .held });
      (s.line 5).phase = .signon .held ∧ s.ctl.attachment ≠ .attached) ∧ (base.line 5).phase ≠ .signon .held ∧ 95 < 96 := by
  decide +kernel

/-- An attention set with one item of each kind. -/
def items : Attention :=
  { emptyAttention with
    hold := emptyAttention.hold.set 5 true
    portFault := emptyAttention.portFault.set 3 (some .readyLost)
    accounts := [{ account := 7, causes := 1 }]
    failoverSpent := emptyAttention.failoverSpent.set 2 true
    notes := emptyAttention.notes.set 5 2 }

theorem witness_TakeAttentionOrder :
    base.sup.busy = false ∧ items.hold.get 5 = true ∧ (∀ k : LineNo, k < 5 → items.hold.get k = false) ∧
    (∀ l : LineNo, emptyAttention.hold.get l = false) ∧ items.portFault.get 3 = some .readyLost ∧
    (∀ k : PortNo, k < 3 → items.portFault.get k = none) ∧ (∀ p : PortNo, emptyAttention.portFault.get p = none) ∧
    items.accounts = [{ account := 7, causes := 1 }] ∧ emptyAttention.accounts = [] ∧ items.failoverSpent.get 2 = true ∧
    (∀ k : GroupNo, k < 2 → items.failoverSpent.get k = false) ∧ (∀ g : GroupNo, emptyAttention.failoverSpent.get g = false) ∧
    items.notes.get 5 ≠ 0 ∧ (∀ k : LineNo, k < 5 → items.notes.get k = 0) ∧ emptyAttention.asserted = false := by decide +kernel

/-- Port 3 of group A in a state, with its host ready. -/
def portIn (st : PortState) : State := base.modPort 3 (fun x => { x with group := some 0, state := st, hostReady := true })

/-- The same port with line 5 WAITING at the head of the queue of group A. -/
def portQueued (st : PortState) : State := queued.modPort 3 (fun x => { x with group := some 0, state := st, hostReady := true })

theorem witness_PortRequests :
    (∀ st, (portIn st).sup.busy = false ∧ ((portIn st).port 3).state = st) ∧ 6 ≤ 6 ∧ 1 ≤ 1 ∧ 6 < 7 ∧ 1 < 2 ∧ 63 < 64 ∧
    (let s := linked .connected .inUse;
      (s.port 3).state = .inUse ∧ (s.port 3).line = some 5 ∧ (s.line 5).port = some 3 ∧ (s.line 5).phase.isAdmitted = true) ∧
    (∀ g, ((portIn .faulted).port 3).group = some g → ((portIn .faulted).group g).queue = []) ∧
    (let s := portQueued .outOfService;
      (s.port 3).hostReady = true ∧ (s.port 3).role = .ordinary ∧ (s.port 3).group = some 0 ∧
        (s.group 0).queue = [{ line := 5, priority := 0, announced := 1 }] ∧ (s.line 5).entryRef = some 0 ∧
        s.entry 0 = some entry ∧ (s.line 5).account = some 7 ∧ (s.port 3).state = .outOfService) ∧
    ((portQueued .faulted).port 3).state = .faulted ∧ LinksLawful (linked .connected .inUse) := by
  refine ⟨fun st => ⟨rfl, rfl⟩, ?_, ?_, ?_, ?_, ?_, ?_, ?_, ?_, ?_, linked_links⟩ <;> decide +kernel

theorem witness_GroupRequests :
    base.sup.busy = false ∧ (∀ m, ({ congestionMode := some 1 } : GroupChange).congestionMode = some m → m ≤ 1) ∧
    (({ congestionMode := some 2 } : GroupChange).congestionMode = some 2 ∧ 1 < 2) ∧ ((0 : Nat) = 0 ∨ 6 < 0) ∧ 6 < 7 :=
  ⟨rfl, fun _ h => by cases h; decide, by decide, by decide, by decide⟩

theorem witness_RingAnswered :
    (base.line 5).phase = .idle ∧ base.lc.params.acceptingCalls = true ∧
      (base.lc.params.busyOut = 0 ∨ ((List.finRange 96).filter (fun k => decide ((base.line k).phase = .admitted .waiting))).length <
        base.lc.params.busyOut) ∧ base.ctl.attachment = .attached ∧ ¬State.reset.lc.params.acceptingCalls = true := by decide +kernel

theorem witness_CarrierEvents :
    (∀ p, ((inPhase p).line 5).phase = p ∧ ((inPhase p).line 5).carrierHold = none ∧ (inPhase p).lc.params.carrierHold ≠ 0) ∧
    (((session .connected).modLine 5 (fun r => { r with carrierHold := some 1 })).line 5).carrierHold ≠ none ∧
    ({ inPhase (.signon .held) with lc := { (inPhase (.signon .held)).lc with params :=
        { base.lc.params with carrierHold := 0 } } } : State).lc.params.carrierHold = 0 := by
  refine ⟨fun p => ⟨rfl, rfl, Nat.succ_ne_zero 1⟩, ?_⟩; decide +kernel

/-- Line 5 in a stage of SIGNON with characters in its entry buffer. -/
def typing (st : SignOnStage) (buffer : List Byte) : State :=
  base.modLine 5 (fun r => { r with phase := .signon st, account := some 7, entryBuffer := buffer })

theorem witness_SignOnEntries :
    (∀ b, ((typing .accountEntry b).line 5).phase = .signon .accountEntry ∧ ((typing .accountEntry b).line 5).entryBuffer = b) ∧
    (48 ≤ (0xB0 : Byte).toNat % 128 ∧ (0xB9 : Byte).toNat % 128 ≤ 57) ∧ (List.replicate 6 (48 : Byte)).length < 7 ∧
    7 ≤ (List.replicate 7 (48 : Byte)).length ∧ (0x88 : Byte).toNat % 128 = 8 ∧ (0xFF : Byte).toNat % 128 = 127 ∧
    (let k := (58 : Byte).toNat % 128;
      k ≠ 8 ∧ k ≠ 13 ∧ k ≠ 127 ∧ 57 < k) ∧ (0x8D : Byte).toNat % 128 = 13 ∧
    ([48] : List Byte) ≠ [] ∧ [(48 : Byte)].foldl (fun n c => n * 10 + (c.toNat - 48)) 0 = 0 ∧
    [(55 : Byte)].foldl (fun n c => n * 10 + (c.toNat - 48)) 0 ≠ 0 := by
  refine ⟨fun b => ⟨rfl, rfl⟩, ?_⟩; decide +kernel

theorem witness_SignOnEntries_password :
    (∀ b, ((typing .passwordEntry b).line 5).phase = .signon .passwordEntry ∧ ((typing .passwordEntry b).line 5).entryBuffer = b ∧
      ((typing .passwordEntry b).line 5).account = some 7 ∧ (typing .passwordEntry b).ctl.attachment = .attached) ∧
    (33 ≤ (33 : Byte).toNat % 128 ∧ (126 : Byte).toNat % 128 ≤ 126) ∧ (List.replicate 7 (65 : Byte)).length < 8 ∧
    8 ≤ (List.replicate 8 (65 : Byte)).length ∧ (8 : Byte).toNat % 128 = 8 ∧
    ((32 : Byte).toNat % 128 < 33 ∧ (32 : Byte).toNat % 128 ≠ 8 ∧ (32 : Byte).toNat % 128 ≠ 13) ∧ (13 : Byte).toNat % 128 = 13 ∧
    (List.replicate 3 (65 : Byte)).length < 4 ∧ 4 ≤ (List.replicate 4 (65 : Byte)).length ∧
    (State.reset.modLine 5 (fun r => { r with phase := .signon .passwordEntry, account := some 7 })).ctl.attachment ≠ .attached := by
  refine ⟨fun b => ⟨rfl, rfl, rfl, rfl⟩, ?_⟩; decide +kernel

/-- Line 5 in SELECTING, and port 3 of group A in a state. -/
def choosing (st : PortState) : State := (session .selecting).modPort 3 (fun x => { x with group := some 0, state := st })

theorem witness_SelectionJudged :
    (∀ st, ((choosing st).line 5).phase = .admitted .selecting ∧ ((choosing st).line 5).entryRef = some 0 ∧
      ((choosing st).line 5).account = some 7) ∧
    ((choosing .free).entry 0 = some entry) ∧
    (let k := (90 : Byte).toNat % 128;
      ¬(65 ≤ k ∧ k ≤ 70) ∧ ¬(97 ≤ k ∧ k ≤ 102) ∧ k ≠ 13) ∧ (13 : Byte).toNat % 128 = 13 ∧
    ({ acct with defaultGroup := none } : Account).defaultGroup = none ∧ (13 : Byte).toNat % 128 = 13 ∧ acct.defaultGroup = some 0 ∧
    (0x41 : Byte).toNat % 128 = 65 + (0 : GroupNo).val ∧ (0x66 : Byte).toNat % 128 = 97 + (5 : GroupNo).val ∧
    acct.permitted.getLsbD (2 : GroupNo).val = false ∧ acct.permitted.getLsbD (0 : GroupNo).val = true ∧
    (∀ p : PortNo, ((choosing .outOfService).port p).group = some 0 ∧ ((choosing .outOfService).port p).role = .ordinary →
      ((choosing .outOfService).port p).state = .outOfService) ∧
    (((choosing .free).port 3).group = some 0 ∧ ((choosing .free).port 3).role = .ordinary ∧ ((choosing .free).port 3).state = .free ∧
      ∀ p' : PortNo, p' < 3 → ((choosing .free).port p').group = some 0 ∧ ((choosing .free).port p').role = .ordinary →
        ((choosing .free).port p').state ≠ .free) ∧
    ((∃ p : PortNo, (((choosing .inUse).port p).group = some 0 ∧ ((choosing .inUse).port p).role = .ordinary) ∧
        ((choosing .inUse).port p).state ≠ .outOfService) ∧
      (∀ p : PortNo, ((choosing .inUse).port p).group = some 0 ∧ ((choosing .inUse).port p).role = .ordinary →
        ((choosing .inUse).port p).state ≠ .free) ∧
      ((choosing .inUse).group 0).queue.length < ((choosing .inUse).group 0).queueLimit ∧
      (∀ place ∈ ((choosing .inUse).group 0).queue, place.line ≠ 5) ∧
      (((choosing .inUse).modGroup 0 (fun x => { x with queueLimit := 0 })).group 0).queueLimit ≤
        (((choosing .inUse).modGroup 0 (fun x => { x with queueLimit := 0 })).group 0).queue.length) := by
  refine ⟨fun st => ⟨rfl, rfl, rfl⟩, ?_⟩; decide +kernel

theorem witness_AdmittedCharacters :
    (∀ st, ((session st).line 5).entryRef = some 0 ∧ (session st).entry 0 = some entry ∧
      ((session st).line 5).phase = .admitted st ∧ ((session st).line 5).selectedGroup = some 0) ∧
    (0x9C : Byte).toNat % 128 &&& base.lc.params.escapeMask = base.lc.params.escapeKey &&& base.lc.params.escapeMask ∧
    (let s := linked .connected .inUse;
      ¬((0x1D : Byte).toNat % 128 &&& s.lc.params.escapeMask = s.lc.params.escapeKey &&& s.lc.params.escapeMask) ∧
        (s.line 5).lineToPort = none ∧ (s.line 5).port = some 3) ∧
    (((linked .connected .inUse).modLine 5 (fun r => { r with lineToPort := some 65 })).line 5).lineToPort ≠ none ∧
    (82 : Byte).toNat % 128 = 82 ∧ (113 : Byte).toNat % 128 = 113 ∧
    (let k := (83 : Byte).toNat % 128;
      k ≠ 81 ∧ k ≠ 82 ∧ k ≠ 113 ∧ k ≠ 114) := by
  refine ⟨fun st => ⟨rfl, session_holds st, rfl, rfl⟩, ?_⟩; decide +kernel

/-- Line 5 in a phase while its transmitter is busy, with a message at a position, a pending message and a slot character. -/
def sending (p : Phase) (m : Option CurrentMsg) (q : Option PendingMsg) (c : Option Byte) : State :=
  base.modLine 5 (fun r => { r with phase := p, txBusy := true, current := m, pending := q, portToLine := c })

theorem witness_MessagesSent :
    (0x23 : Byte) ∉ ([65, 66] : List Byte) ∧
    ((base.line 5).current = none ∧ (base.line 5).txBusy = false ∧ ∃ c rest, expandText (base.lc.messages.get 3) 5 = c :: rest) ∧
    (let s := { base with lc := { base.lc with messages := base.lc.messages.set 3 [] } };
      (s.line 5).current = none ∧ expandText (s.lc.messages.get 3) 5 = []) ∧
    (let s := sending (.signon .held) none none none;
      (s.line 5).current = none ∧ expandText (s.lc.messages.get 3) 5 ≠ [] ∧ (s.line 5).txBusy = true) ∧
    (let m : CurrentMsg := { number := 3, inserted := 1, text := [65, 66], position := 2 };
      let s := sending (.signon .held) (some m) none none;
      (s.line 5).current ≠ none ∧ (s.line 5).current = some m ∧ m.position ≤ m.text.length ∧ (s.line 5).txBusy = true ∧
        (s.line 5).pending = none ∧ (s.line 5).portToLine = none ∧ (s.line 5).phase.inCall = true ∧
        (s.line 5).phase ≠ .answering) := by
  refine ⟨by decide, ⟨rfl, rfl, _, _, rfl⟩, ?_⟩; decide +kernel

theorem witness_MessagesSent_boundary :
    (∀ p m q c, ((sending p m q c).line 5).txBusy = true ∧ ((sending p m q c).line 5).phase = p ∧
      ((sending p m q c).line 5).current = m ∧ ((sending p m q c).line 5).pending = q ∧
      ((sending p m q c).line 5).portToLine = c) ∧ (base.line 5).txBusy = false ∧
    Phase.guard ∈ [Phase.down, .idle, .answering, .guard] ∧
    (let m : CurrentMsg := { number := 3, inserted := 1, text := [65, 66], position := 1 };
      m.text[m.position]? = some 66) ∧
    (let m : CurrentMsg := { number := 3, inserted := 1, text := [65, 66], position := 2 };
      m.text.length ≤ m.position) ∧
    (∃ c rest, expandText (base.lc.messages.get 3) 5 = c :: rest) ∧ (∃ c rest, expandText (base.lc.messages.get 15) 5 = c :: rest) ∧
    (∀ p m q c, let s := sending p m q c
      let t : State := { s with lc := { s.lc with messages := Vector.replicate 16 [] } }
      t.line 5 = s.line 5 ∧ expandText (t.lc.messages.get 3) 5 = [] ∧ expandText (t.lc.messages.get 15) 5 = []) ∧
    (Phase.signon .held ≠ .admitted .connected) := by
  refine ⟨fun p m q c => ⟨rfl, rfl, rfl, rfl, rfl⟩, rfl, by decide, by decide, by decide, ⟨_, _, rfl⟩, ⟨_, _, rfl⟩,
    fun p m q c => ⟨rfl, rfl, rfl⟩, by decide⟩

theorem witness_BusTransfers :
    base.lc.bus = [] ∧ State.reset.lc.bus.head? = some (.release 0) ∧
    ({ base with lc := { base.lc with bus := [.txChar 5 65] } } : State).lc.bus.head? = some (.txChar 5 65) ∧
    ({ base with pa := { base.pa with bus := [.txChar 3 65 (some 5)] } } : State).pa.bus.head? = some (.txChar 3 65 (some 5)) ∧
    (∀ p c l, State.reset.pa.bus.head? ≠ some (.txChar p c (some l))) ∧ 95 < 96 ∧ 96 < 128 ∧
    (∀ p, ((inPhase p).line 5).phase = p) ∧
    Phase.admitted .moving ∈ [Phase.down, .idle, .answering, .closing, .guard, .signon .checking, .signon .held,
      .signon .admitting, .admitted .calling, .admitted .moving] :=
  ⟨rfl, rfl, rfl, rfl, fun p c l => by rw [show State.reset.pa.bus.head? = some (.hangUp 0) from rfl]; simp, by decide, by decide,
    fun _ => rfl, by decide⟩

/-- Line 5 in a phase with every timer at 0. -/
def due (p : Phase) : State :=
  (session .selecting).modLine 5 (fun r =>
    { r with
      phase := p, stageTimer := some 0, holdTimer := some 0, carrierHold := some 0, idleWarning := some 0, exhaustion := some 0,
      hours := some 0 })

theorem witness_Expiries :
    (∀ p, ((due p).line 5).phase = p ∧ ((due p).line 5).stageTimer = some 0 ∧ ((due p).line 5).carrierHold = some 0 ∧
      ((due p).line 5).idleWarning = some 0 ∧ ((due p).line 5).exhaustion = some 0 ∧ ((due p).line 5).hours = some 0 ∧
      ((due p).line 5).holdTimer = some 0 ∧ ((due p).line 5).selectedGroup = some 0) ∧
    (((due (.admitted .waiting)).modLine 5 (fun r => { r with exhaustion := some 1 })).line 5).exhaustion ≠ some 0 ∧
    (base.line 5).stageTimer ≠ some 0 ∧ (base.line 5).holdTimer ≠ some 0 ∧ (base.line 5).carrierHold ≠ some 0 ∧
    (base.line 5).idleWarning ≠ some 0 ∧ (base.line 5).exhaustion ≠ some 0 ∧ (base.line 5).hours ≠ some 0 := by
  refine ⟨fun p => ⟨rfl, rfl, rfl, rfl, rfl, rfl, rfl, rfl⟩, ?_⟩; decide +kernel

theorem witness_CallNeverAdmittedEndsAlone :
    (∀ p : Phase, ((due p).line 5).port = none ∧ ((due p).line 5).portToLine = none ∧ ((due p).line 5).phase = p ∧
      ((due p).line 5).stageTimer = some 0 ∧ ((due p).line 5).carrierHold = some 0) ∧
    (Instr.answerLimitExpiry 5 = .answerLimitExpiry 5 ∧ ((due .answering).line 5).phase = .answering) ∧
    (Instr.signonLimitExpiry 5 = .signonLimitExpiry 5 ∧ ((due (.signon .passwordEntry)).line 5).phase = .signon .passwordEntry) ∧
    (Instr.carrierHoldExpiry 5 = .carrierHoldExpiry 5 ∧ ∃ st, ((due (.signon .checking)).line 5).phase = .signon st) :=
  ⟨fun _ => ⟨rfl, rfl, rfl, rfl, rfl⟩, ⟨rfl, rfl⟩, ⟨rfl, rfl⟩, rfl, _, rfl⟩

theorem witness_PortEvents_ready :
    (∀ st, ((portIn st).port 3).state = st ∧ ((portIn st).port 3).group = some 0) ∧
    (∀ g, ((portIn .notReady).port 3).group = some g → ((portIn .notReady).group g).queue = []) ∧
    (let s := portQueued .notReady;
      (s.port 3).state = .notReady ∧ (s.port 3).role = .ordinary ∧ (s.port 3).group = some 0 ∧
        (s.group 0).queue = [{ line := 5, priority := 0, announced := 1 }] ∧ (s.line 5).entryRef = some 0 ∧
        s.entry 0 = some entry ∧ (s.line 5).account = some 7) ∧ PortState.free ≠ .notReady := by
  refine ⟨fun st => ⟨rfl, rfl⟩, ?_⟩; decide +kernel

/-- Line 5 CALLING or MOVING on port 3, whose call timer stands at 0. -/
def ringing (st : AdmittedStage) : State := (linked st .calling).modPort 3 (fun x => { x with callTimer := some 0 })

theorem witness_FailedCalls :
    (∀ st, ((ringing st).port 3).state = .calling ∧ ((ringing st).port 3).line = some 5 ∧ ((ringing st).line 5).entryRef = some 0 ∧
      ((ringing st).line 5).account = some 7 ∧ ((ringing st).port 3).callTimer = some 0 ∧ (ringing st).sup.busy = false ∧
      ((ringing st).line 5).phase = .admitted st ∧ ((ringing st).line 5).portFaults = 0 ∧
      ((ringing st).line 5).selectedGroup = some 0) ∧
    (ringing .calling).entry 0 = some entry ∧ (ringing .moving).entry 0 = some entry ∧
    (Instr.callTimerExpiry 3 = .callTimerExpiry 3 ∧ Instr.hostReadyOff 3 = .hostReadyOff 3 ∧
      Instr.portServiceOut 3 = .portServiceOut (3 : PortNo).val) ∧
    (let s := (ringing .calling).modPort 4 (fun x => { x with group := some 0, state := .free });
      ((4 : PortNo) ≠ 3 ∧ (s.port 4).group = some 0 ∧ (s.port 4).role = .ordinary ∧ (s.port 4).state = .free) ∧
        ∀ q' : PortNo, q' < 4 → ¬(q' ≠ 3 ∧ (s.port q').group = some 0 ∧ (s.port q').role = .ordinary ∧ (s.port q').state = .free)) ∧
    (∀ q : PortNo, ¬(q ≠ 3 ∧ ((ringing .calling).port q).group = some 0 ∧ ((ringing .calling).port q).role = .ordinary ∧
      ((ringing .calling).port q).state = .free)) ∧
    (∀ place ∈ ((ringing .calling).group 0).queue, place.line ≠ 5) ∧
    1 ≤ (((ringing .calling).modLine 5 (fun r => { r with portFaults := 1 })).line 5).portFaults ∧
    entry.acct.lowThreshold + 1 < entry.acct.allotment := by
  refine ⟨fun st => ⟨rfl, rfl, rfl, rfl, rfl, rfl, rfl, rfl, rfl⟩, ?_⟩; decide +kernel

theorem witness_PortLoss :
    (∀ st, ((linked st .inUse).port 3).state = .inUse ∧ ((linked st .inUse).port 3).line = some 5 ∧
      ((linked st .inUse).port 3).group = some 0 ∧ ((linked st .inUse).line 5).phase = .admitted st ∧
      ((linked st .inUse).line 5).entryRef = some 0 ∧ ((linked st .inUse).line 5).account = some 7) ∧
    (linked .connected .inUse).entry 0 = some entry ∧
    (let s := ((linked .escaped .inUse).modPort 4 (fun x => { x with group := some 0, role := .spare, state := .free })).modGroup 0
        (fun x => { x with failoverAllowance := 1 });
      (s.line 5).moveCount < 2 ∧ 0 < (s.group 0).failoverAllowance ∧
        ((s.port 4).group = some 0 ∧ (s.port 4).role = .spare ∧ (s.port 4).state = .free) ∧
        (∀ q' : PortNo, q' < 4 → ¬((s.port q').group = some 0 ∧ (s.port q').role = .spare ∧ (s.port q').state = .free)) ∧
        2 ≤ ((s.modLine 5 (fun r => { r with moveCount := 2 })).line 5).moveCount) ∧
    ((linked .connected .inUse).group 0).failoverAllowance = 0 ∧ LinksLawful (linked .connected .inUse) ∧
    entry.acct.lowThreshold + 1 < entry.acct.allotment := by
  refine ⟨fun st => ⟨rfl, rfl, rfl, rfl, rfl, rfl⟩, ?_, ?_, ?_, linked_links, ?_⟩ <;> decide +kernel

theorem witness_PortEvents :
    (∀ st ps, ((linked st ps).port 3).state = ps ∧ ((linked st ps).port 3).line = some 5 ∧ ((linked st ps).line 5).phase = .admitted st ∧
      ((linked st ps).line 5).portToLine = none ∧ ((linked st ps).line 5).txBusy = false ∧ ((linked st ps).line 5).current = none ∧
      ((linked st ps).line 5).pending = none) ∧ PortState.inUse ≠ .calling ∧ PortState.free ≠ .inUse ∧
    (Phase.admitted .escaped).isAdmitted = true ∧
    (((linked .connected .inUse).modLine 5 (fun r => { r with portToLine := some 65 })).line 5).portToLine ≠ none ∧
    (((linked .connected .inUse).modLine 5 (fun r => { r with txBusy := true })).line 5).txBusy = true := by
  refine ⟨fun st ps => ⟨rfl, rfl, rfl, rfl, rfl, rfl, rfl⟩, ?_⟩; decide +kernel

theorem witness_SessionEndReleasesPort :
    (∀ st, ((linked st .inUse).line 5).port = some 3 ∧ ((linked st .inUse).port 3).line = some 5 ∧
      ((linked st .inUse).line 5).phase = .admitted st ∧ ((linked st .inUse).line 5).entryRef = some 0 ∧
      ((linked st .inUse).port 3).state = .inUse ∧ (linked st .inUse).sup.busy = false) ∧
    (Phase.admitted .calling).holdsPort = true ∧ (Phase.admitted .connected).holdsPort = true ∧
    (Phase.admitted .escaped).holdsPort = true ∧ (Phase.admitted .moving).holdsPort = true ∧
    let s := linked .connected .inUse
    s.entry 0 = some entry ∧ entry.acct.lowThreshold + 1 < entry.acct.allotment ∧ (s.line 5).charged ≤ 16777215 ∧
    entry.acct.waitTotal ≤ 16777215 ∧ (∀ b : Band, entry.acct.bandTotals.get b ≤ 16777215) ∧
    (Instr.forceEnd 5 = .forceEnd (5 : LineNo).val ∧ Instr.lineServiceOut 5 = .lineServiceOut (5 : LineNo).val ∧
      Instr.portServiceOut 3 = .portServiceOut (3 : PortNo).val) ∧
    (s.line 5).exhaustion ≠ some 0 ∧
    (let z := s.modLine 5 (fun r => { r with carrierHold := some 0, idleWarning := some 0, exhaustion := some 0, hours := some 0 });
      (z.line 5).carrierHold = some 0 ∧ (z.line 5).idleWarning = some 0 ∧ (z.line 5).exhaustion = some 0 ∧
        (z.line 5).hours = some 0) ∧
    entry.count ≤ 1 ∧ 2 ≤ ({ entry with count := 2 } : OatEntry).count ∧
    (0 : EntryNo) ∉ s.oat.writeBackList ∧ s.ctl.inProgress = none ∧ (s.port 3).hostReady = true ∧
    (s.port 3).role = .ordinary ∧ (s.port 3).group = some 0 ∧ (s.group 0).queue = [] ∧
    ((s.modPort 3 (fun x => { x with hostReady := false })).port 3).hostReady = false ∧
    ((s.modPort 3 (fun x => { x with role := .spare })).port 3).role = .spare ∧
    (let q := (s.modGroup 0 (fun x => { x with queue := [{ line := 60, priority := 0, announced := 1 }] })).modLine 60
        (fun r => { r with entryRef := some 0, account := some 7 });
      (q.group 0).queue = [{ line := 60, priority := 0, announced := 1 }] ∧ (60 : LineNo) ≠ 5 ∧
        (q.line 60).entryRef = some 0 ∧ q.entry 0 = some entry ∧ (q.line 60).account = some 7) := by
  refine ⟨fun st => ⟨rfl, rfl, rfl, rfl, rfl, rfl⟩, ?_⟩; decide +kernel

/-- A sign-on operation of line 5 on account 7. -/
def signOnOp (kind : SignOnKind) : SignOnOp := { line := 5, attempt := 1, kind := kind, account := 7 }

theorem witness_RotationChoice :
    (doing (.supervisor .flush) base).ctl.inProgress ≠ none ∧
    (base.ctl.signOnQueue = [] ∧ base.oat.writeBackList = [] ∧ base.ctl.waiting = none) ∧
    (let s := { base with ctl := { base.ctl with signOnQueue := [signOnOp .admitOp] } };
      s.ctl.inProgress = none ∧ s.ctl.rotation = .signOn ∧ s.ctl.signOnQueue = [signOnOp .admitOp] ∧
        (∀ e x, s.entry e = some x → x.account ≠ (signOnOp .admitOp).account)) ∧
    ((idleEntry .closing).entry 0 = some { entry with state := .closing, count := 0 }) ∧
    (let s := turnOf .writeBack { idleEntry .closing with oat := { (idleEntry .closing).oat with writeBackList := [0] } };
      s.ctl.rotation = .writeBack ∧ s.ctl.inProgress = none ∧ s.oat.writeBackList = [0] ∧
        s.entry 0 = some { entry with state := .closing, count := 0 }) ∧
    (let s := turnOf .supervisor { base with ctl := { base.ctl with waiting := some (.readAccount 7) } };
      s.ctl.waiting = some (.readAccount 7) ∧ s.ctl.rotation = .supervisor ∧ s.ctl.inProgress = none) ∧
    ∀ e x, base.entry e = some x → x.account ≠ 7 :=
  ⟨by decide, ⟨rfl, rfl, rfl⟩, ⟨rfl, rfl, rfl, none_holds base_entries _⟩, by decide +kernel, by decide +kernel, by decide +kernel,
    none_holds base_entries _⟩

/-- A store whose three slots from 7 hold other records, so that a search for account 7 passes them. -/
def chained (b : List Byte) : State :=
  { base with store := storeSlot (storeSlot [] 7 (encodeSlot .vacated 1031 acct)) 8 b }

theorem witness_LookupFollowsProbeChain :
    0 < base.ctl.capacity ∧ slotView stored.store ((7 + 0) % stored.ctl.capacity) = .inUse 7 acct ∧
    slotView (chained []).store 7 = .vacated 1031 acct ∧ slotView (chained emptyImage).store 8 = .empty ∧
    slotView (chained (List.replicate 40 1)).store 8 = .damaged ∧ slotView base.store 7 = .empty ∧
    (let s := { stored with ctl := { stored.ctl with capacity := 1 },
                            store := storeSlot [] 0 (encodeSlot .inUse 8 acct) };
      0 < s.ctl.capacity ∧ slotView s.store ((7 + 0) % s.ctl.capacity) = .inUse 8 acct ∧ 8 ≠ 7) ∧
    (let s := { stored with ctl := { stored.ctl with capacity := 1 },
                            store := storeSlot [] 0 (encodeSlot .vacated 8 acct) };
      slotView s.store ((7 + 0) % s.ctl.capacity) = .vacated 8 acct) := by decide +kernel

/-- A VERIFY of account 7 in progress for line 5, over a store. -/
def checking (password : Nat) (marker : Bool) (s : State) : State :=
  doing (.signOn (signOnOp (.verify password marker))) (s.modLine 5 (fun r =>
    { r with phase := .signon .checking, attempt := 1, account := some 7 }))

/-- No watch is in use after reset. -/
theorem unwatched : ∀ k : WatchNo, (State.reset.watches.get k).inUse = true → 7 < (State.reset.watches.get k).low ∨
    (State.reset.watches.get k).high < 7 := by decide +kernel

theorem witness_VerifyOfClosedAccount :
    (∀ w m, (checking w m stored).ctl.inProgress = some (.signOn { line := 5, attempt := 1, kind := .verify w m, account := 7 }) ∧
      ((checking w m stored).line 5).phase = .signon .checking ∧ ((checking w m stored).line 5).attempt = 1 ∧
      (∀ e x, (checking w m stored).entry e = some x → x.account ≠ 7) ∧
      ∀ k : WatchNo, ((checking w m stored).watches.get k).inUse = true → 7 < ((checking w m stored).watches.get k).low ∨
        ((checking w m stored).watches.get k).high < 7) ∧
    (checking 1 false base).lookup 7 = .notFound (some 7) ∧
    (checking 1 false { base with store := storeSlot [] 7 (List.replicate 40 1) }).lookup 7 = .damaged ∧
    (checking 1 false stored).lookup 7 = .found 7 acct ∧
    ({ acct with status := .barred } : Account).status ≠ .live ∧
    (acct.failedCount < 15 ∧ acct.password ≠ 0 ∧ acct.status = .live ∧ acct.password ≠ 1) ∧ acct.password = 12836369 ∧
    (({ acct with failedCount := 15 } : Account).failedCount = 15 ∧
      ¬((0 : Nat) ≠ 0 ∧ 0 ≤ min 15 (15 + 1)) ∧ ((15 : Nat) ≠ 0 ∧ 15 ≤ min 15 (15 + 1))) ∧
    ({ acct with allotment := 0 } : Account).allotment = 0 ∧ acct.allotment ≠ 0 ∧
    (base.cal.active.policies.get acct.cls).allowedBands.getLsbD base.cal.view.band.val = true ∧
    ¬({ base.cal.active.policies.get acct.cls with allowedBands := 0 } : ClassPolicy).allowedBands.getLsbD 0 = true ∧
    (stored.entry 0 = none ∧ ∀ k : EntryNo, k < 0 → stored.entry k ≠ none) ∧ 7 < 8192 ∧
    (∀ e : EntryNo, ({ stored with oat := { stored.oat with entries := Vector.replicate 112 (some entry) } } : State).entry e ≠ none) := by
  refine ⟨fun w m => ⟨rfl, rfl, rfl, none_holds stored_entries _, unwatched⟩, ?_⟩; decide +kernel

theorem witness_AdmitOfClosedAccount :
    (∀ s : State, let d := doing (.signOn (signOnOp .admitOp)) s;
      d.ctl.inProgress = some (.signOn { line := 5, attempt := 1, kind := .admitOp, account := 7 }) ∧ d.lookup 7 = s.lookup 7 ∧
        ∀ e, d.entry e = s.entry e) ∧
    (let s := stored.modLine 5 (fun r => { r with phase := .signon .admitting, attempt := 1 });
      (s.line 5).phase = .signon .admitting ∧ (s.line 5).attempt = 1 ∧ s.lookup 7 = .found 7 acct ∧
        (∀ e x, s.entry e = some x → x.account ≠ 7) ∧ s.entry 0 = none ∧ (∀ k : EntryNo, k < 0 → s.entry k ≠ none)) ∧
    base.lookup 7 = .notFound (some 7) ∧ ({ base with store := storeSlot [] 7 (List.replicate 40 1) } : State).lookup 7 = .damaged ∧
    ({ acct with allotment := 0 } : Account).allotment = 0 ∧ acct.allotment ≠ 0 ∧
    (base.cal.active.policies.get acct.cls).allowedBands.getLsbD base.cal.view.band.val = true ∧
    ¬({ base.cal.active.policies.get acct.cls with allowedBands := 0 } : ClassPolicy).allowedBands.getLsbD 0 = true ∧
    (∀ e : EntryNo, ({ stored with oat := { stored.oat with entries := Vector.replicate 112 (some entry) } } : State).entry e ≠ none) ∧
    (stored.line 5).phase ≠ .signon .admitting ∧ (0 : EntryNo) ∉ stored.oat.writeBackList ∧ 7 < 8192 ∧
    (List.replicate 40 (7 : Byte)).length = 40 := by
  refine ⟨fun s => ⟨rfl, rfl, fun _ => rfl⟩, ⟨?_, ?_, ?_, none_holds stored_entries _, ?_, ?_⟩, ?_⟩
  · decide +kernel
  · decide +kernel
  · decide +kernel
  · decide +kernel
  · decide +kernel
  · decide +kernel

/-- An ADMIT of line 5 on account 7, which is open in entry 0, at the front of the sign-on queue. -/
def admitting (x : OatEntry) : State :=
  let s := (base.setEntry 0 (some x)).modLine 5 (fun r =>
    { r with phase := .signon .admitting, attempt := 1, account := some 7 })
  { s with ctl := { s.ctl with signOnQueue := [signOnOp .admitOp] } }

theorem admitting_entries : ∀ x : OatEntry, ∀ k : EntryNo, k ≠ 0 → (admitting x).entry k = none := fun _ k hk => by
  simp only [admitting, State.entry, State.setEntry, State.modLine, State.onLines]
  rw [Vector.get_eq_getElem, Vector.getElem_set_ne (h := fun h => hk (Fin.ext h.symm)), ← Vector.get_eq_getElem]
  exact base_entries k

theorem witness_AdmitOfOpenAccount :
    (∀ x, (admitting x).ctl.inProgress = none ∧ (admitting x).ctl.rotation = .signOn ∧
      (admitting x).ctl.signOnQueue = [{ line := 5, attempt := 1, kind := .admitOp, account := 7 }] ∧
      ((admitting x).line 5).phase = .signon .admitting ∧ ((admitting x).line 5).attempt = 1 ∧
      ∀ k y, (admitting x).entry k = some y → y.account = 7 → k = 0) ∧
    (admitting entry).entry 0 = some entry ∧ entry.account = 7 ∧ entry.retirePending = false ∧ entry.acct.allotment ≠ 0 ∧
    (base.cal.active.policies.get acct.cls).allowedBands.getLsbD base.cal.view.band.val = true ∧
    entry.count < entry.acct.sessionLimit ∧ 1 ≤ entry.count ∧
    ({ entry with retirePending := true } : OatEntry).retirePending = true ∧
    ({ entry with acct := { acct with allotment := 0 } } : OatEntry).acct.allotment = 0 ∧
    ({ entry with count := 4 } : OatEntry).acct.sessionLimit ≤ ({ entry with count := 4 } : OatEntry).count ∧
    (({ entry with count := 0 } : OatEntry).count = 0 ∧ 1 ≤ entry.acct.sessionLimit) ∧
    ¬(((admitting entry).modLine 5 (fun r => { r with phase := .closing })).line 5).phase = .signon .admitting := by
  refine ⟨fun x => ⟨rfl, rfl, rfl, rfl, rfl, only_zero (admitting_entries x) 7⟩, ?_⟩; decide +kernel

/-- A VERIFY of line 5 on account 7, which is open in entry 0, at the front of the sign-on queue. -/
def verifying (x : OatEntry) (password : Nat) (marker : Bool) : State :=
  let s := (admitting x).modLine 5 (fun r => { r with phase := .signon .checking })
  { s with ctl := { s.ctl with signOnQueue := [signOnOp (.verify password marker)] } }

theorem witness_VerifyOfOpenAccount :
    (∀ x w m, (verifying x w m).ctl.inProgress = none ∧ (verifying x w m).ctl.rotation = .signOn ∧
      (verifying x w m).ctl.signOnQueue = [{ line := 5, attempt := 1, kind := .verify w m, account := 7 }] ∧
      ((verifying x w m).line 5).phase = .signon .checking ∧ ((verifying x w m).line 5).attempt = 1 ∧
      (∀ k y, (verifying x w m).entry k = some y → y.account = 7 → k = 0) ∧
      ∀ k : WatchNo, ((verifying x w m).watches.get k).inUse = true → 7 < ((verifying x w m).watches.get k).low ∨
        ((verifying x w m).watches.get k).high < 7) ∧
    (verifying entry 1 false).entry 0 = some entry ∧ entry.account = 7 ∧ acct.failedCount ≤ 15 ∧ ({ acct with failedCount := 15 } : Account).failedCount ≤ 15 ∧
    ({ acct with status := .locked } : Account).status ≠ .live ∧
    (acct.password ≠ 0 ∧ acct.status = .live ∧ acct.password ≠ 1 ∧ acct.password = 12836369) ∧
    entry.retirePending = false ∧ acct.allotment ≠ 0 ∧ entry.count < acct.sessionLimit ∧
    (base.cal.active.policies.get acct.cls).allowedBands.getLsbD base.cal.view.band.val = true ∧
    ¬({ base.cal.active.policies.get acct.cls with allowedBands := 0 } : ClassPolicy).allowedBands.getLsbD 0 = true ∧
    ({ entry with retirePending := true } : OatEntry).retirePending = true ∧
    acct.sessionLimit ≤ ({ entry with count := 4 } : OatEntry).count ∧ ({ acct with allotment := 0 } : Account).allotment = 0 := by
  refine ⟨fun x w m => ⟨rfl, rfl, rfl, rfl, rfl, only_zero (admitting_entries x) 7, unwatched⟩, ?_⟩
  decide +kernel

/-- The write-back of an entry in progress. -/
def writingBack (x : OatEntry) : State := doing (.writeBack 0 7 7 acct) (stored.setEntry 0 (some x))

theorem witness_WriteBackCompletes :
    (∀ x, (writingBack x).ctl.inProgress = some (.writeBack 0 7 7 acct)) ∧ (writingBack entry).entry 0 = some entry ∧
    storeWf (writingBack entry).store = true ∧ 1 ≤ entry.count ∧
    (let x : OatEntry := { entry with count := 0, state := .closing, dirty := true };
      x.count = 0 ∧ x.dirty = true ∧ (0 : EntryNo) ∉ (writingBack x).oat.writeBackList ∧ x.state = .closing) ∧
    (let x : OatEntry := { entry with count := 0, state := .closing, retirePending := true };
      x.count = 0 ∧ x.dirty = false ∧ x.retirePending = true ∧ 0 < (writingBack x).ctl.inUse ∧
        (writingBack x).ctl.vacated < (writingBack x).ctl.capacity) ∧
    entry.dirty = false ∧ entry.retirePending = false ∧ (List.replicate 40 (7 : Byte)).length = 40 := by
  refine ⟨fun x => rfl, ?_⟩; decide +kernel

theorem passwordFits_four : PasswordFits [33, 33, 126, 126] := ⟨.inr (by decide), by decide, by decide⟩

theorem passwordFits_none : PasswordFits [] := ⟨.inl rfl, by decide, nofun⟩

theorem witness_RequestsOnOpenAccount :
    let s := turnOf .supervisor (session .connected)
    s.sup.busy = false ∧ s.ctl.attachment ≠ .noStore ∧ s.ctl.inProgress = none ∧ s.ctl.rotation = .supervisor ∧ 1 ≤ 7 ∧
    7 ≤ 9999999 ∧ s.entry 0 = some entry ∧ entry.account = 7 ∧ entry.acct.allotment ≤ 16777215 ∧
    (∀ k y, s.entry k = some y → y.account = 7 → k = 0) ∧ (1 : Nat) ≠ 0 ∧
    PasswordFits [33, 33, 126, 126] ∧ PasswordFits [] ∧
    entry.retirePending = false ∧ entry.state ≠ .stuck ∧
    ({ entry with retirePending := true } : OatEntry).retirePending = true ∧
    ((idleEntry .stuck).entry 0 = some { entry with state := .stuck, count := 0 } ∧ (0 : EntryNo) ∉ (idleEntry .stuck).oat.writeBackList ∧
      ∀ k y, (idleEntry .stuck).entry k = some y → y.account = 7 → k = 0) :=
  ⟨rfl, by decide, rfl, rfl, by decide, by decide, session_holds .connected, rfl, by decide,
    only_zero (session_entries .connected) 7, by decide, passwordFits_four, passwordFits_none, rfl, by decide, rfl,
    by decide +kernel, by decide +kernel, only_zero (idleEntry_entries .stuck) 7⟩

/-- Account 7 open in entry 0 over a store that holds its slot. -/
def openStored : State := turnOf .supervisor (stored.setEntry 0 (some entry))

theorem openStored_entries : ∀ k : EntryNo, k ≠ 0 → openStored.entry k = none := by decide +kernel

theorem witness_OpenAccountRead :
    (openStored.sup.busy = false ∧ openStored.ctl.attachment ≠ .noStore ∧ openStored.ctl.inProgress = none ∧
      openStored.ctl.rotation = .supervisor) ∧
    (∀ e k x y, openStored.entry e = some x → openStored.entry k = some y → x.account = y.account → e = k) ∧
    openStored.entry 0 = some entry ∧ 1 ≤ entry.account ∧ entry.account ≤ 9999999 ∧
    slotView openStored.store entry.slot.val = .inUse 7 acct ∧ entry.account = 7 ∧ slotView openStored.store 8 ≠ .damaged ∧
    slotView (storeSlot [] 7 (encodeSlot .vacated 7 acct)) entry.slot.val = .vacated 7 acct ∧
    slotView (storeSlot [] 7 (List.replicate 40 1)) entry.slot.val = .damaged ∧ 1023 < openStored.ctl.capacity := by
  refine ⟨by decide, fun e k x y hx hy _ => ?_, ?_⟩
  · have zero : ∀ j z, openStored.entry j = some z → j = 0 := fun j z hz =>
      Classical.byContradiction fun hj => by rw [openStored_entries j hj] at hz; cases hz
    rw [zero e x hx, zero k y hy]
  · decide +kernel

theorem witness_RequestsOnClosedAccount :
    let s := turnOf .supervisor stored
    s.sup.busy = false ∧ s.ctl.attachment ≠ .noStore ∧ s.ctl.inProgress = none ∧ s.ctl.rotation = .supervisor ∧
    (∀ e x, s.entry e = some x → x.account ≠ 7) ∧ s.lookup 7 = .found 7 acct ∧ s.lookup 8 = .notFound (some 8) ∧
    (∀ e x, s.entry e = some x → x.account ≠ 9999999) ∧
    ({ s with store := storeSlot [] 7 (List.replicate 40 1) } : State).lookup 7 = .damaged ∧
    (AccountRequest 7 (.grant 7 0) false ∧ AccountRequest 8 (.setPassword 8 []) false ∧
      AccountRequest 8 (.changeAccount 8 ({ sessionLimit := some 9 } : ChangeFields).frame) true) ∧ PasswordFits [] ∧
    WriteOutcome.good = .good ∧ WriteOutcome.mixed [true] ≠ .good ∧ 0 < s.ctl.inUse ∧ s.ctl.vacated < s.ctl.capacity := by
  refine ⟨rfl, by decide, rfl, rfl, none_holds stored_entries _, by decide +kernel, by decide +kernel,
    none_holds stored_entries _, by decide +kernel, ?_, passwordFits_none, by decide +kernel⟩
  exact ⟨.inl ⟨rfl, .inl ⟨0, .inl rfl⟩⟩, .inl ⟨rfl, .inr (.inl ⟨[], passwordFits_none, rfl⟩)⟩,
    .inr ⟨{ sessionLimit := some 9 }, rfl, rfl⟩⟩

/-- Fields of CHANGE_ACCOUNT in the frame and in the record (R18, R207): default group 0 and status 2 of the frame are an absent
group and BARRED, a session limit above 4 becomes 4, and absent fields stay. -/
theorem test_change_fields :
    let f : ChangeFields := { sessionLimit := some 9, defaultGroup := some none, live := some false }
    f.frame = { sessionLimit := some 9, defaultGroup := some 0, status := some 2 } ∧ f.clamps = true ∧
      f.applied acct = { acct with sessionLimit := 4, defaultGroup := none, status := .barred } := by decide

/-- How RESTART reads the outcomes of its writes (R206): the entry in the middle, with retire pending, takes two, and its failed
VACATED write counts it among the lost. -/
theorem test_restart_matches :
    restartMatches [false, true, false] [.good, .good, .left [], .good] = [true, false, true] := by decide

theorem witness_StoreWideRequests :
    let s := turnOf .supervisor stored
    s.sup.busy = false ∧ s.ctl.inProgress = none ∧ s.ctl.rotation = .supervisor ∧ storeWf s.store = true ∧
    s.ctl.attachment ≠ .noStore ∧ (∀ e x, s.entry e ≠ some x) ∧ s.lookup 8 = .notFound (some 8) ∧
    s.ctl.inUse < s.ctl.capacity - s.ctl.capacity / 8 ∧ slotView s.store 8 = .empty ∧
    (let v := { s with store := storeSlot [] 7 (encodeSlot .vacated 7 acct), ctl := { s.ctl with vacated := 1 } };
      v.lookup 7 = .notFound (some 7) ∧ slotView v.store 7 = .vacated 7 acct ∧ 0 < v.ctl.vacated) ∧
    (let f := { s with ctl := { s.ctl with inUse := 896 } };
      f.ctl.capacity - f.ctl.capacity / 8 ≤ f.ctl.inUse) ∧
    ((session .connected).entry 0 = some entry ∧ entry.account = 7) ∧ 7 < s.ctl.capacity ∧
    (imageView (encodeSlot .vacated 9 acct) = .vacated 9 acct ∧ (encodeSlot .vacated 9 acct).length = 40 ∧ acct.overdraft = 0 ∧
      imageView (encodeSlot .inUse 7 acct) = .inUse 7 acct ∧ (encodeSlot .inUse 7 acct).length = 40 ∧
      imageView (List.replicate 40 0) = .empty) ∧
    (slotView s.store 7 = .inUse 7 acct ∧ slotView s.store 8 = .empty ∧ 1 ≤ s.ctl.inUse ∧ 0 ≤ s.ctl.vacated ∧
      s.ctl.inUse - 1 + 1 ≤ s.ctl.capacity ∧ s.ctl.vacated - 0 + 1 ≤ s.ctl.capacity) ∧
    (let passing (k : Nat) : State := { s with store := storeSlot s.store k (encodeSlot .vacated 7 acct) };
      (passing 8).lookup 7 = .found 7 acct ∧ (passing 7).lookup 7 = .notFound (some 7) ∧
        ({ s with store := storeSlot (storeSlot s.store 7 (List.replicate 40 1)) 8 (encodeSlot .vacated 7 acct) } : State).lookup 7 =
          .damaged) ∧
    ((entry.slot.val = 7 ∧ entry.account = 7) ∧ WriteOutcome.left [] ≠ .good) ∧ 1 ≤ 1 ∧
    s.lookup 7 = .found 7 acct ∧
    (let d : State := { s with store := storeSlot [] 8 (List.replicate 40 1) };
      d.lookup 8 = .damaged) ∧
    (let c : State := { s with store := storeSlot [] 0 (encodeSlot .inUse 9 acct), ctl := { s.ctl with capacity := 1, inUse := 0 } };
      c.lookup 8 = .notFound none ∧ ¬(c.ctl.capacity - c.ctl.capacity / 8 ≤ c.ctl.inUse)) := by
  refine ⟨rfl, rfl, rfl, ?_, ?_, fun e _ h => none_holds stored_entries (fun _ => False) e _ h, ?_⟩
  · decide +kernel
  · decide +kernel
  · decide +kernel

/-- Account 7 open in entry 0, which names slot 7; the store that ADD_ACCOUNT then looks up account 8 in shows that slot in use by
another account, and every other slot as it is (R16). -/
theorem witness_StoreWideRequests_named :
    let s := openStored
    let taken : State := { s with store := storeSlot [] 7 (encodeSlot .inUse 7 acct) }
    (∀ e x, s.entry e = some x → x.account ≠ 8) ∧ taken.ctl = s.ctl ∧ s.store = taken.store ∧
      (∃ e x, s.entry e = some x ∧ x.slot.val = 7) ∧ slotView s.store 7 = .inUse 7 acct ∧ (7 : Nat) ≠ 8 ∧
      (∀ j, j ≠ 7 → ¬∃ e x, s.entry e = some x ∧ x.slot.val = j) ∧ taken.lookup 8 = .notFound (some 8) := by
  have only : ∀ e x, openStored.entry e = some x → x = entry := fun e x h => by
    by_cases he : e = 0
    · subst he
      exact (Option.some.inj ((by decide +kernel : openStored.entry 0 = some entry).symm.trans h)).symm
    · rw [openStored_entries e he] at h; cases h
  refine ⟨fun e x h => ?_, rfl, by decide +kernel, ⟨0, entry, by decide +kernel, rfl⟩, by decide +kernel, by decide,
    fun j hj h => ?_, by decide +kernel⟩
  · rw [only e x h]; decide
  · obtain ⟨e, x, h, rfl⟩ := h
    rw [only e x h] at hj
    exact hj rfl

theorem witness_RestartClears :
    let s := turnOf .supervisor (linked .connected .inUse)
    LinksLawful s ∧ SessionsLawful s ∧ SignOnQueueLawful s ∧ s.sup.busy = false ∧ s.ctl.inProgress = none ∧
      s.ctl.rotation = .supervisor ∧ storeWf s.store = true ∧ WriteBackListOnce s ∧ (s.port 3).line ≠ none ∧
      (s.line 5).phase.inCall = true ∧ (s.line 6).phase.inCall = false ∧ (s.line 6).phase ≠ .down ∧ s.entry 0 ≠ none :=
  ⟨linked_links, linked_sessions, ⟨List.nodup_nil, fun _ h => absurd h List.not_mem_nil⟩, rfl, rfl, rfl, by decide +kernel,
    List.nodup_nil, nofun, rfl, rfl, by decide, by decide +kernel⟩

theorem witness_SecondCharged :
    let s := session .connected
    s.entry 0 = some entry ∧ (s.line 5).entryRef = some 0 ∧ entry.acct.overdraft ≤ 65535 ∧
    (∀ b : Band, entry.acct.bandTotals.get b ≤ 16777215) ∧ entry.acct.waitTotal ≤ 16777215 ∧
    entry.acct.connectSeconds ≤ 16777215 ∧ (s.line 5).charged ≤ 16777215 ∧ (s.line 5).admittedSeconds ≤ 16777215 ∧
    (s.line 5).connectedSeconds ≤ 16777215 := by decide +kernel

/-- Account 7 open with one session and an allotment. -/
def holding (allotment : Nat) : State :=
  (session .connected).setEntry 0 (some { entry with acct := { acct with allotment := allotment } })

theorem witness_CreditStateChanges :
    (holding 30).sessions 0 = [5] ∧ (holding 0).sessions 0 = [5] ∧ (holding 31).sessions 0 = [5] ∧
    (holding 30).entry 0 = some { entry with acct := { acct with allotment := 30 } } ∧
    creditState { acct with allotment := 31 } = .normal ∧ creditState { acct with allotment := 30 } = .low ∧
    creditState { acct with allotment := 0 } = .exhausted ∧ CreditState.low ≠ .exhausted ∧
    (let s := (holding 0).modLine 6 (fun r => { r with phase := .admitted .selecting, entryRef := some 0 });
      s.sessions 0 = [5, 6] ∧ (5 : LineNo) ∈ s.sessions 0 ∧ (7 : LineNo) ∉ s.sessions 0) ∧
    ((linked .connected .inUse).sessions 0 = [5] ∧ ((linked .connected .inUse).line 5).exhaustion = none) ∧
    ((holding 0).line 5).exhaustion = none ∧ 0 < ((holding 0).cal.active.policies.get acct.cls).exhaustionGrace ∧
    (((holding 0).modLine 5 (fun r => { r with exhaustion := some 1 })).line 5).exhaustion ≠ none ∧
    ({ (holding 0).cal.active.policies.get acct.cls with exhaustionGrace := 0 } : ClassPolicy).exhaustionGrace = 0 := by decide +kernel

theorem witness_SecondAdvancesCalendar :
    base.cal.minute < 10080 ∧ base.cal.second < 60 ∧ ({ base.cal with minute := 10079, second := 59 } : Calendar).minute < 10080 := by
  decide

theorem witness_OneSecondPasses :
    ((∀ l, (base.line l).phase = .idle ∨ (base.line l).phase = .down) ∧ (∀ p, (base.port p).state ≠ .calling) ∧
      (∀ g, (base.group g).queue = [] ∧ 1 ≤ (base.group g).congestionThreshold) ∧
      ∀ m ∈ [SecondMoment.step 5, .expiry (.guardTime 5)], m ≠ .rotationChoice ∧
        ∀ writes, m ≠ .storeOperationComplete writes) ∧
    (let s := linked .connected .inUse;
      s.cal.second < 59 ∧ (∀ k, k ≠ 5 → (s.line k).phase = .idle ∨ (s.line k).phase = .down) ∧ (∀ p, (s.port p).state ≠ .calling) ∧
        (∀ g, (s.group g).queue = [] ∧ 1 ≤ (s.group g).congestionThreshold) ∧ (s.line 5).phase = .admitted .connected ∧
        (s.line 5).entryRef = some 0 ∧ s.entry 0 = some entry ∧ (s.line 5).carrierHold = none ∧ (s.line 5).exhaustion = none ∧
        (s.line 5).hours = none ∧ (s.line 5).idleWarning = none ∧ (s.cal.active.policies.get entry.acct.cls).idleLimit = 0 ∧
        (∀ b : Band, (s.cal.active.policies.get entry.acct.cls).allowedBands.getLsbD b.val = true) ∧
        entry.acct.lowThreshold + 2 < entry.acct.allotment ∧ (s.line 5).residue < 60000 ∧
        s.cal.view.bandRates.get entry.acct.cls ≤ 65535 ∧ (s.line 5).idleCount.getD 0 ≤ 65535) := by
  refine ⟨⟨by decide +kernel, by decide +kernel, by decide +kernel, fun m hm => ?_⟩, by decide +kernel⟩
  rcases List.mem_cons.mp hm with rfl | hm
  · exact ⟨fun h => SecondMoment.noConfusion h, fun _ h => SecondMoment.noConfusion h⟩
  · cases List.mem_singleton.mp hm
    exact ⟨fun h => SecondMoment.noConfusion h, fun _ h => SecondMoment.noConfusion h⟩

/-- A calendar whose next second is in a band that class 1 may not use, with the hours grace given. -/
def lateBand (hoursGrace : Nat) : Calendar :=
  let policy : ClassPolicy :=
    { base.cal.active.policies.get 1 with allowedBands := 14, hoursGrace := hoursGrace, idleLimit := 4 }
  { base.cal with
    second := 59
    view := { base.cal.view with band := 1 }
    active := { base.cal.active with policies := base.cal.active.policies.set 1 policy } }

theorem witness_SecondWarnsSession :
    (let s := { linked .connected .inUse with cal := lateBand 0 };
      s.cal.minute < 10080 ∧ s.cal.second < 60 ∧ (∀ k, k ≠ 5 → (s.line k).phase = .idle ∨ (s.line k).phase = .down) ∧
        (∀ p, (s.port p).state ≠ .calling) ∧ (∀ g, (s.group g).queue = [] ∧ 1 ≤ (s.group g).congestionThreshold) ∧
        (s.line 5).phase = .admitted .connected ∧ (s.line 5).entryRef = some 0 ∧ s.entry 0 = some entry ∧
        (s.line 5).carrierHold = none ∧ (s.line 5).exhaustion = none ∧ (s.line 5).idleWarning = none ∧ (s.line 5).hours = none ∧
        entry.acct.lowThreshold + 2 < entry.acct.allotment ∧ (s.line 5).residue < 60000 ∧
        s.cal.view.bandRates.get entry.acct.cls ≤ 65535 ∧ (s.line 5).idleCount.getD 0 ≤ 65535) ∧
    (let c := (lateBand 0).secondEvent;
      c.view.band ≠ (lateBand 0).view.band ∧ ¬(c.active.policies.get 1).allowedBands.getLsbD c.view.band.val = true ∧
        (c.active.policies.get 1).hoursGrace = 0 ∧ ((lateBand 5).secondEvent.active.policies.get 1).hoursGrace ≠ 0 ∧
        (c.active.policies.get 1).idleLimit ≠ 0) ∧
    (let c := base.cal.secondEvent;
      ¬(c.view.band ≠ base.cal.view.band ∨ c.view.generation ≠ base.cal.view.generation)) := by decide +kernel

/-- Line 5 WAITING in the queue of group A, at the last second of a minute, its position not yet announced. -/
def waitingMinute : State :=
  let s := (session .waiting).modLine 5 (fun r => { r with grace := 1 })
  let s := s.modGroup 0 (fun x => { x with queue := [{ line := 5, priority := 0, announced := 2 }], congestionThreshold := 1 })
  { s with cal := { s.cal with second := 59 } }

theorem witness_GroupsAtSecondEvents :
    LinksLawful waitingMinute ∧ waitingMinute.cal.minute < 10080 ∧ waitingMinute.cal.second < 60 ∧
    (∀ p, (waitingMinute.port p).state ≠ .calling) ∧
    (∀ l, (waitingMinute.line l).phase = .idle ∨ (waitingMinute.line l).phase = .down ∨
      ((waitingMinute.line l).phase = .admitted .waiting ∧ (waitingMinute.line l).entryRef ≠ none ∧ 0 < (waitingMinute.line l).grace ∧
        (waitingMinute.line l).stageTimer ≠ some 0 ∧ (waitingMinute.line l).carrierHold = none ∧
        (waitingMinute.line l).exhaustion = none ∧ (waitingMinute.line l).hours = none)) ∧
    (∀ (c : ClassNo) (b : Band), (waitingMinute.cal.active.policies.get c).allowedBands.getLsbD b.val = true ∧
      (waitingMinute.cal.pendingSet.policies.get c).allowedBands.getLsbD b.val = true) ∧
    (waitingMinute.group 0).queue[0]? = some { line := 5, priority := 0, announced := 2 } := by
  unfold LinksLawful PortsNameLines PortStagesAgree QueuesHoldWaiting QueuesWaitForPorts
  refine ⟨⟨?_, ?_, ⟨?_, ?_⟩, ?_, ?_⟩, ?_⟩
  · decide +kernel
  · decide +kernel
  · decide +kernel
  · decide +kernel
  · decide +kernel
  · decide +kernel
  · decide +kernel

theorem twins_links : LinksLawful (twins 1) := by
  unfold LinksLawful PortsNameLines PortStagesAgree QueuesHoldWaiting QueuesWaitForPorts
  refine ⟨?_, ?_, ⟨?_, ?_⟩, ?_, ?_⟩
  · decide +kernel
  · decide +kernel
  · decide +kernel
  · decide +kernel
  · decide +kernel
  · decide +kernel

theorem twins_sessions : SessionsLawful (twins 1) := by
  have h := entries_of_zero (s := twins 1) (x := { entry with count := 2, acct := { acct with allotment := 0, lowThreshold := 9 } })
    (by decide +kernel) (by decide +kernel) (by decide +kernel) (by decide +kernel)
    ⟨by decide, by decide, rfl, by decide, fun h => by cases h⟩
  exact ⟨h.1, h.2, by decide +kernel, fun n hn => (by cases hn), fun h => (by cases h)⟩

theorem witness_GrantBetweenSteps :
    let s := twins 1
    let x : OatEntry := { entry with count := 2, acct := { acct with allotment := 0, lowThreshold := 9 } }
    LinksLawful s ∧ SessionsLawful s ∧ (21 : LineNo) ≠ 66 ∧ s.cal.second < 59 ∧
    (∀ j, j ≠ 21 → j ≠ 66 → (s.line j).phase = .idle ∨ (s.line j).phase = .down) ∧
    (∀ j, j = 21 ∨ j = 66 → (s.line j).phase = .admitted .connected ∧ (s.line j).entryRef = some 0 ∧ (s.line j).grace = 0 ∧
      (s.line j).exhaustion = some 1 ∧ (s.line j).carrierHold = none ∧ (s.line j).hours = none ∧
      (s.line j).idleWarning = none ∧ (s.line j).residue < 60000) ∧
    s.entry 0 = some x ∧ x.acct.allotment = 0 ∧ x.acct.overdraft ≤ 65535 ∧
    (s.cal.active.policies.get x.acct.cls).idleLimit = 0 ∧
    (∀ b : Band, (s.cal.active.policies.get x.acct.cls).allowedBands.getLsbD b.val = true) ∧
    s.cal.view.bandRates.get x.acct.cls ≤ 65535 ∧ s.ctl.inProgress = none ∧ s.ctl.rotation = .supervisor ∧
    s.ctl.waiting = some (.grant x.account 20) ∧ x.acct.overdraft + x.acct.lowThreshold + 10 < 20 ∧ 20 ≤ 16777215 := by
  refine ⟨twins_links, twins_sessions, ?_⟩
  decide +kernel

end Sys2Proof.Tests
end

/-! # The sign-on queue law does not survive a place of a line that is not WAITING -/

section
namespace Sys2Proof.Machine

/-- A VERIFY of line 5 that waits in the sign-on queue. -/
def strayOp : SignOnOp := { line := 5, attempt := 0, kind := .verify 1 false, account := 7 }

/-- Line 5 is in CHECKING with its operation waiting, and holds a place in the queue of group A all the same. Port 3 of the group is
NOT_READY, and its host comes up next. -/
def strayPlace : State :=
  let s : State := { State.reset with ctl := { State.reset.ctl with signOnQueue := [strayOp] }, pending := [.hostReadyOn 3] }
  ((s.modLine 5 (fun r => { r with phase := .signon .checking })).modPort 3 (fun x =>
    { x with group := some 0, state := .notReady })).modGroup 0 (fun x =>
    { x with queue := [{ line := 5, priority := 0, announced := 0 }] })

/-- The step of `strayPlace`: port 3 becomes FREE and is handed to the place, whose line leaves CHECKING for CALLING. -/
def strayCalled : State := hostReadyOn { strayPlace with pending := [] } 3

theorem strayPlace_lawful : SignOnQueueLawful strayPlace := by
  refine ⟨by decide +kernel, fun op ho => ?_⟩
  obtain rfl : op = strayOp := List.mem_singleton.1 ho
  decide +kernel

/-- No operation is in progress in `strayPlace`. -/
theorem strayPlace_told : AttemptsTold strayPlace := fun _ h => nomatch h

theorem strayPlace_step : step strayPlace = .next strayCalled := rfl

/-- The operation still waits, and its line is in CALLING. -/
theorem strayCalled_unlawful : ¬ SignOnQueueLawful strayCalled := fun h =>
  absurd (h.2 strayOp List.mem_cons_self).2 (by decide +kernel)

/-- Refutes O8: the statement has no premise on the wait queues. Where a place names a line in CHECKING, a port that becomes FREE
calls for that line (R157), and its operation waits on under a line in CALLING. -/
theorem not_signOnQueueStaysLawful : ¬ Obligations.SignOnQueueStaysLawful := by
  unfold Obligations.SignOnQueueStaysLawful
  intro h
  exact strayCalled_unlawful (h _ _ strayPlace_lawful strayPlace_told strayPlace_step)

end Sys2Proof.Machine
end


/-! # What a command can do, said once

`Moves s t` says that `t` comes from `s` by the small moves of which the line events, the port events, the expiries, the Meter's
actions and the ends of calls are made. A law is proved of every such command by proving it of each move. -/

section
namespace Sys2Proof.Machine

/-! ## Records that the laws of links and sessions do not tell apart -/

/-- What the laws of links and sessions see of a line record. -/
structure LineKey where
  inCall : Bool
  admitted : Bool
  holdsPort : Bool
  waiting : Bool
  entryRef : Option EntryNo
  port : Option PortNo
  selectedGroup : Option GroupNo

/-- The key of a line record. -/
def LineRec.key (r : LineRec) : LineKey :=
  { inCall := r.phase.inCall, admitted := r.phase.isAdmitted, holdsPort := r.phase.holdsPort,
    waiting := decide (r.phase = .admitted .waiting), entryRef := r.entryRef, port := r.port,
    selectedGroup := r.selectedGroup }

/-- A change of a line record that keeps its key, and its residue in range (R128). -/
structure QuietRec (r r' : LineRec) : Prop where
  key : r'.key = r.key
  residue : r.residue < Config.creditUnit → r'.residue < Config.creditUnit

theorem QuietRec.refl (r : LineRec) : QuietRec r r := ⟨rfl, id⟩

theorem QuietRec.trans {a b c : LineRec} (h : QuietRec a b) (k : QuietRec b c) : QuietRec a c :=
  ⟨k.key.trans h.key, k.residue ∘ h.residue⟩

/-- A change that leaves phase, references and residue. -/
theorem QuietRec.of_fields {r r' : LineRec} (h : r'.phase = r.phase ∧ r'.entryRef = r.entryRef ∧ r'.port = r.port ∧
    r'.selectedGroup = r.selectedGroup ∧ r'.residue = r.residue) : QuietRec r r' := by
  obtain ⟨hp, he, ho, hg, hr⟩ := h
  exact ⟨by simp [LineRec.key, hp, he, ho, hg], by rw [hr]; exact id⟩

/-- A line out of call takes another phase out of call: what a release and the end of the guard time do (R58, R59). -/
theorem QuietRec.of_resting {r r' : LineRec} (h : r.phase = .closing ∨ r.phase = .guard ∨ r.phase = .idle ∨ r.phase = .down)
    (h' : r'.phase = .closing ∨ r'.phase = .guard ∨ r'.phase = .idle ∨ r'.phase = .down)
    (k : r'.entryRef = r.entryRef ∧ r'.port = r.port ∧ r'.selectedGroup = r.selectedGroup ∧ r'.residue = r.residue) :
    QuietRec r r' := by
  obtain ⟨he, ho, hg, hr⟩ := k
  refine ⟨?_, by rw [hr]; exact id⟩
  rcases h with h | h | h | h <;> rcases h' with h' | h' | h' | h' <;> simp [LineRec.key, h, h', he, ho, hg] <;> decide

/-! ## Changes of the Line Controller that keep every key -/

/-- The Line Controller's settings and every line's key are kept. -/
structure Hush (c c' : LineCtl) : Prop where
  params : c'.params = c.params
  messages : c'.messages = c.messages
  line : ∀ k, QuietRec (c.line k) (c'.line k)

theorem Hush.refl (c : LineCtl) : Hush c c := ⟨rfl, rfl, fun _ => .refl _⟩

theorem Hush.trans {a b c : LineCtl} (h : Hush a b) (k : Hush b c) : Hush a c :=
  ⟨k.params.trans h.params, k.messages.trans h.messages, fun l => (h.line l).trans (k.line l)⟩

theorem hush_modLine {c : LineCtl} {l : LineNo} {f : LineRec → LineRec} (h : QuietRec (c.line l) (f (c.line l))) :
    Hush c (c.modLine l f) := by
  refine ⟨rfl, rfl, fun k => ?_⟩
  by_cases hk : k = l
  · subst hk; simpa using h
  · simpa [hk] using QuietRec.refl _

theorem hush_fields {c : LineCtl} {l : LineNo} {f : LineRec → LineRec}
    (h : (f (c.line l)).phase = (c.line l).phase ∧ (f (c.line l)).entryRef = (c.line l).entryRef ∧
      (f (c.line l)).port = (c.line l).port ∧ (f (c.line l)).selectedGroup = (c.line l).selectedGroup ∧
      (f (c.line l)).residue = (c.line l).residue) : Hush c (c.modLine l f) := hush_modLine (.of_fields h)

theorem hush_issue (c : LineCtl) (cmd : LineCmd) : Hush c (c.issue cmd) := ⟨rfl, rfl, fun _ => .refl _⟩

theorem hush_transmit (c : LineCtl) (l : LineNo) (ch : Byte) : Hush c (c.transmit l ch) :=
  (hush_fields (l := l) ⟨rfl, rfl, rfl, rfl, rfl⟩).trans (hush_issue _ _)

theorem hush_sendNext (c : LineCtl) (l : LineNo) : Hush c (c.sendNext l) := by
  unfold LineCtl.sendNext
  split
  · exact .refl c
  · split
    · exact .refl c
    · exact (hush_fields (l := l) ⟨rfl, rfl, rfl, rfl, rfl⟩).trans (hush_transmit _ l _)

/-- A release of a line in CLOSING. -/
theorem hush_release {c : LineCtl} {l : LineNo} (h : (c.line l).phase = .closing) : Hush c (c.release l) :=
  (hush_issue c _).trans (hush_modLine (.of_resting (.inl h) (.inr (.inl rfl)) ⟨rfl, rfl, rfl, rfl⟩))

theorem hush_beginMessage (c : LineCtl) (l : LineNo) (n : MsgNo) (k : Nat) : Hush c (c.beginMessage l n k) := by
  unfold LineCtl.beginMessage
  simp only
  split
  · exact hush_fields ⟨rfl, rfl, rfl, rfl, rfl⟩
  · have h := hush_fields (c := c) (l := l) (f := fun r => { r with
      current := some { number := n, inserted := k, text := expandText (c.messages.get n) k, position := 0 } })
      ⟨rfl, rfl, rfl, rfl, rfl⟩
    split
    · exact h
    · exact h.trans (hush_sendNext _ l)

theorem hush_sendSlot (c : LineCtl) (l : LineNo) : Hush c (c.sendSlot l) := by
  unfold LineCtl.sendSlot
  split
  · exact (hush_fields (l := l) ⟨rfl, rfl, rfl, rfl, rfl⟩).trans (hush_transmit _ l _)
  · exact .refl c

theorem hush_request (c : LineCtl) (l : LineNo) (n : MsgNo) (k : Nat) : Hush c (c.request l n k) := by
  unfold LineCtl.request
  split
  · exact hush_beginMessage c l n k
  · exact hush_fields ⟨rfl, rfl, rfl, rfl, rfl⟩

theorem hush_beginGoodbye {c : LineCtl} {l : LineNo} (h : (c.line l).phase = .closing) (k : Nat) :
    Hush c (c.beginGoodbye l k) := by
  unfold LineCtl.beginGoodbye
  split
  · exact hush_release h
  · exact (hush_fields (l := l) ⟨rfl, rfl, rfl, rfl, rfl⟩).trans (hush_beginMessage _ l _ _)

theorem hush_boundary (c : LineCtl) (l : LineNo) : Hush c (c.boundary l) := by
  unfold LineCtl.boundary
  simp only
  split
  · exact hush_beginGoodbye (by assumption) _
  · split
    · split
      · exact hush_sendNext c l
      · split
        · exact hush_release (by assumption)
        · split
          · have h := (hush_fields (c := c) (l := l) (f := fun r => { r with current := none, pending := none })
              ⟨rfl, rfl, rfl, rfl, rfl⟩).trans (hush_beginMessage _ l (by assumption : PendingMsg).number
                (by assumption : PendingMsg).inserted)
            split
            · exact h.trans (hush_sendSlot _ l)
            · exact h
          · exact (hush_fields (l := l) ⟨rfl, rfl, rfl, rfl, rfl⟩).trans (hush_sendSlot _ l)
    · exact hush_sendSlot c l

theorem hush_requestGoodbye (c : LineCtl) (l : LineNo) (k : Nat) : Hush c (c.requestGoodbye l k) := by
  unfold LineCtl.requestGoodbye
  have h := hush_fields (c := c) (l := l) (f := fun r => { r with pending := some { number := 15, inserted := k } })
    ⟨rfl, rfl, rfl, rfl, rfl⟩
  split
  · exact h
  · exact h.trans (hush_boundary _ l)

theorem hush_echo (c : LineCtl) (l : LineNo) (ch : Byte) : Hush c (c.echo l ch) := by
  unfold LineCtl.echo
  split
  · exact hush_fields ⟨rfl, rfl, rfl, rfl, rfl⟩
  · exact hush_transmit c l ch

theorem hush_txDone (c : LineCtl) (l : LineNo) : Hush c (c.txDone l) := by
  unfold LineCtl.txDone
  have h := hush_fields (c := c) (l := l) (f := fun r => { r with txBusy := false }) ⟨rfl, rfl, rfl, rfl, rfl⟩
  split
  · simp only
    split
    · exact h.trans (hush_boundary _ l)
    · exact h
  · exact .refl c

/-! ## Calm changes: what the laws of ranges see -/

/-- The settings and counts of one group are in range (R146). -/
def GroupRec.InRange (x : GroupRec) : Prop :=
  x.queueLimit ≤ 96 ∧ x.waitLimit ≤ 60 ∧ x.failoverAllowance ≤ 255 ∧
    (1 ≤ x.congestionThreshold ∧ x.congestionThreshold ≤ 96) ∧ x.congestionCount ≤ max24 ∧ x.refusedCount ≤ max24

theorem groupsInRange_iff (s : State) : GroupsInRange s ↔ ∀ g, (s.group g).InRange := Iff.rfl

/-- A change that leaves the store, the table, the calendar, the supervisor port, the settings, the Account Store Controller but for
its sign-on queue, and the ACCOUNT items, and keeps residues and groups in range. -/
structure Calm (s t : State) : Prop where
  store : t.store = s.store
  ctl : t.ctl = { s.ctl with signOnQueue := t.ctl.signOnQueue }
  oat : t.oat = s.oat
  cal : t.cal = s.cal
  sup : t.sup = s.sup
  pending : t.pending = s.pending
  params : t.lc.params = s.lc.params
  messages : t.lc.messages = s.lc.messages
  accounts : t.attn.accounts = s.attn.accounts
  residue : ∀ l, (s.line l).residue < Config.creditUnit → (t.line l).residue < Config.creditUnit
  group : ∀ g, (s.group g).InRange → (t.group g).InRange

theorem Calm.refl (s : State) : Calm s s := ⟨rfl, rfl, rfl, rfl, rfl, rfl, rfl, rfl, rfl, fun _ => id, fun _ => id⟩

theorem Calm.trans {a b c : State} (h : Calm a b) (k : Calm b c) : Calm a c where
  store := k.store.trans h.store
  ctl := by rw [k.ctl, h.ctl]
  oat := k.oat.trans h.oat
  cal := k.cal.trans h.cal
  sup := k.sup.trans h.sup
  pending := k.pending.trans h.pending
  params := k.params.trans h.params
  messages := k.messages.trans h.messages
  accounts := k.accounts.trans h.accounts
  residue := fun l => k.residue l ∘ h.residue l
  group := fun g => k.group g ∘ h.group g

theorem Calm.foldl {α : Type} {f : State → α → State} (h : ∀ s a, Calm s (f s a)) (xs : List α) (s : State) :
    Calm s (xs.foldl f s) := by
  induction xs generalizing s with
  | nil => exact .refl s
  | cons x xs ih => exact (h s x).trans (ih _)

theorem calm_modLine {s : State} {l : LineNo} {f : LineRec → LineRec}
    (h : (s.line l).residue < Config.creditUnit → (f (s.line l)).residue < Config.creditUnit) : Calm s (s.modLine l f) :=
  { Calm.refl s with
    residue := fun k hk => by
      rw [modLine_line]
      split
      · subst_vars; exact h hk
      · exact hk }

theorem calm_modPort (s : State) (p : PortNo) (f : PortRec → PortRec) : Calm s (s.modPort p f) := { Calm.refl s with }

theorem calm_issuePort (s : State) (c : PortCmd) : Calm s (s.issuePort c) := { Calm.refl s with }

theorem calm_modGroup {s : State} {g : GroupNo} {f : GroupRec → GroupRec}
    (h : (s.group g).InRange → (f (s.group g)).InRange) : Calm s (s.modGroup g f) :=
  { Calm.refl s with
    group := fun k hk => by
      rw [modGroup_group]
      split
      · subst_vars; exact h hk
      · exact hk }

theorem calm_lines {s : State} {f : LineCtl → LineCtl} (h : Hush s.lc (f s.lc)) : Calm s (s.onLines f) :=
  { Calm.refl s with params := h.params, messages := h.messages, residue := fun l => (h.line l).residue }

theorem calm_requestMessage (s : State) (l : LineNo) (n : MsgNo) (k : Nat) : Calm s (requestMessage s l n k) :=
  calm_lines (hush_request s.lc l n k)

theorem calm_hangUp (s : State) (p : PortNo) : Calm s (hangUp s p) := (calm_modPort s p _).trans (calm_issuePort _ _)

theorem calm_offerPort (s : State) (p : PortNo) (l : LineNo) (st : AdmittedStage) : Calm s (offerPort s p l st) :=
  ((calm_modPort s p _).trans (calm_modLine (l := l) id)).trans (calm_issuePort _ _)

theorem calm_removePlace (s : State) (g : GroupNo) (l : LineNo) : Calm s (removePlace s g l) := calm_modGroup id

theorem satSucc_le {c n : Nat} (h : n ≤ c) : satSucc c n ≤ c := by unfold satSucc; split <;> omega

theorem countEdge_inRange {x : GroupRec} (h : x.InRange) : (countEdge x).InRange := by
  unfold countEdge
  split
  · obtain ⟨h1, h2, h3, h4, h5, h6⟩ := h
    exact ⟨h1, h2, h3, h4, satSucc_le h5, h6⟩
  · exact h

theorem calm_waitInQueue (s : State) (g : GroupNo) (l : LineNo) (ins : Place → List Place → List Place) :
    Calm s (waitInQueue s g l ins) := by
  unfold waitInQueue
  refine (Calm.trans ?_ (calm_modLine (l := l) id)).trans (calm_requestMessage _ l _ _)
  exact calm_modGroup fun h => countEdge_inRange h

theorem calm_serveQueue (s : State) (p : PortNo) : Calm s (serveQueue s p) := by
  unfold serveQueue
  split
  · exact .refl s
  · split
    · split
      · exact .refl s
      · exact (calm_modGroup id).trans (calm_offerPort _ p _ _)
    · exact .refl s

theorem calm_portByReady (s : State) (p : PortNo) : Calm s (portByReady s p) := by
  unfold portByReady
  split
  · exact (calm_modPort s p _).trans (calm_serveQueue _ p)
  · exact calm_modPort s p _

theorem calm_releasePort (s : State) (p : PortNo) (l : LineNo) (out : Bool) : Calm s (releasePort s p l out) := by
  unfold releasePort
  have h : Calm s ((hangUp s p).modLine l (fun r => { r with port := none })) := (calm_hangUp s p).trans (calm_modLine id)
  simp only
  split
  · exact h.trans (calm_modPort _ p _)
  · exact h.trans (calm_portByReady _ p)

theorem calm_settleClaims (s : State) (l : LineNo) (out : Bool) : Calm s (settleClaims s l out) := by
  have h0 : Calm s (s.modLine l (fun r => { r with phase := .closing })) := calm_modLine id
  have ports : Calm s (match (s.line l).port with
      | none => s.modLine l (fun r => { r with phase := .closing })
      | some p => releasePort (s.modLine l (fun r => { r with phase := .closing })) p l out) := by
    split
    · exact h0
    · exact h0.trans (calm_releasePort _ _ l out)
  unfold settleClaims
  simp only
  split
  · exact ports.trans (calm_removePlace _ _ l)
  · exact ports

theorem calm_emptySlots (s : State) (l : LineNo) : Calm s (emptySlots s l) :=
  (calm_modLine (l := l) id).trans { Calm.refl _ with }

theorem calm_dropHold (s : State) (l : LineNo) : Calm s (dropHold s l) := { Calm.refl s with }

theorem calm_withdraw (s : State) (l : LineNo) : Calm s (withdraw s l) := { Calm.refl s with ctl := rfl }

theorem calm_dropCounts (s : State) (l : LineNo) : Calm s (dropCounts s l) :=
  (((calm_dropHold s l).trans (calm_withdraw _ l)).trans (calm_emptySlots _ l)).trans (calm_modLine id)

theorem calm_writeSummary (s : State) (l : LineNo) (cause : EndCause) (admitted : Bool) :
    Calm s (writeSummary s l cause admitted) := calm_modLine id

theorem calm_enterSelecting (s : State) (l : LineNo) : Calm s (enterSelecting s l) := calm_modLine id

theorem calm_leaveQueue (s : State) (l : LineNo) : Calm s (leaveQueue s l) := by
  unfold leaveQueue
  split
  · exact calm_enterSelecting s l
  · exact (calm_removePlace s _ l).trans (calm_enterSelecting _ l)

theorem calm_retryCall (s : State) (l : LineNo) : Calm s (retryCall s l) := by
  have h : Calm s (s.modLine l (fun r => { r with port := none, portFaults := r.portFaults + 1 })) := calm_modLine id
  unfold retryCall
  simp only
  split
  · split
    · exact h
    · split
      · exact h.trans (calm_offerPort _ _ l _)
      · exact h.trans (calm_waitInQueue _ _ l _)
  · exact (h.trans (calm_enterSelecting _ l)).trans (calm_requestMessage _ l _ _)

/-- The port of a failed call is given up: FAULTED with a cause, OUT_OF_SERVICE without one (R152, R178). -/
def failPort (s : State) (p : PortNo) (cause : Option FaultCause) : State :=
  match cause with
  | some c => faultPort s p c
  | none => withdrawPort s p

theorem calm_faultPort (s : State) (p : PortNo) (c : FaultCause) : Calm s (faultPort s p c) :=
  ((calm_hangUp s p).trans (calm_modPort _ p _)).trans { Calm.refl _ with }

theorem calm_failPort (s : State) (p : PortNo) (cause : Option FaultCause) : Calm s (failPort s p cause) := by
  cases cause with
  | some c => exact calm_faultPort s p c
  | none => exact (calm_hangUp s p).trans (calm_modPort (hangUp s p) p fun x => { x with state := .outOfService })

theorem calm_beginMove (s : State) (g : GroupNo) (l : LineNo) (q : PortNo) : Calm s (beginMove s g l q) := by
  have h : Calm s (s.modGroup g (fun x => { x with failoverAllowance := x.failoverAllowance - 1 })) :=
    calm_modGroup fun h => by
      obtain ⟨h1, h2, h3, h4⟩ := h
      exact ⟨h1, h2, (Nat.sub_le _ _).trans h3, h4⟩
  unfold beginMove
  refine (Calm.trans ?_ (calm_modLine (l := l) id)).trans (calm_offerPort _ q l _)
  split
  · exact h.trans { Calm.refl _ with }
  · exact h

/-! ## Moves -/

/-- Every line's key, every port's line and, where it names one, that it is CALLING or IN_USE, and the lines of every queue are
kept. -/
structure KeysKept (s t : State) : Prop where
  line : ∀ l, (t.line l).key = (s.line l).key
  port : ∀ p, (t.port p).line = (s.port p).line
  busy : ∀ p, (s.port p).line.isSome → ((s.port p).state = .calling ∨ (s.port p).state = .inUse) →
    (t.port p).state = .calling ∨ (t.port p).state = .inUse
  queue : ∀ g, (t.group g).queue.map (fun q => q.line) = (s.group g).queue.map (fun q => q.line)

theorem KeysKept.refl (s : State) : KeysKept s s := ⟨fun _ => rfl, fun _ => rfl, fun _ _ => id, fun _ => rfl⟩

/-- The moves that change how lines, ports and queues name each other. -/
inductive LinkStep : State → State → Prop
  /-- A line in SELECTING is called on a FREE port of the group it chose (R149, R150). -/
  | choose {s : State} {l : LineNo} {p : PortNo} {g : GroupNo} :
    (s.line l).phase = .admitted .selecting → (s.port p).state = .free →
      LinkStep s (callPort (s.modLine l (fun r => { r with selectedGroup := some g })) p l)
  /-- A line in SELECTING joins the queue of the group it chose (R149, R154). -/
  | wait {s : State} {l : LineNo} {g : GroupNo} : (s.line l).phase = .admitted .selecting →
      LinkStep s (waitInQueue (s.modLine l (fun r => { r with selectedGroup := some g })) g l insertJoin)
  /-- A port that names no line takes the state its host gives, and may serve its queue (R157, R158). -/
  | ready {s : State} {p : PortNo} : (s.port p).state ≠ .calling → (s.port p).state ≠ .inUse → LinkStep s (portByReady s p)
  /-- A line gives up its queue place (R156). -/
  | unqueue {s : State} {l : LineNo} : (s.line l).phase = .admitted .waiting → LinkStep s (leaveQueue s l)
  /-- A call fails, and its line is called on another port, waits or selects again (R152). -/
  | retry {s : State} {p : PortNo} {l : LineNo} (cause : Option FaultCause) : (s.port p).line = some l →
      LinkStep s (retryCall (failPort s p cause) l)
  /-- A port and its line part (R152, R171). -/
  | unlink {s : State} {p : PortNo} {l : LineNo} (cause : Option FaultCause) : (s.port p).line = some l →
      LinkStep s ((failPort s p cause).modLine l (fun r => { r with port := none }))
  /-- A line whose port was lost moves to a spare (R171 to R173). -/
  | move {s : State} {p q : PortNo} {l : LineNo} {g : GroupNo} (cause : Option FaultCause) : (s.port p).line = some l →
      ((emptySlots ((failPort s p cause).modLine l (fun r => { r with port := none })) l).port q).state = .free →
      LinkStep s (beginMove (emptySlots ((failPort s p cause).modLine l (fun r => { r with port := none })) l) g l q)

/-- A change of an entry's fields by the Meter or by a request: the account's fields and the dirty mark. -/
structure Edits (x y : OatEntry) : Prop where
  rest : y = { x with acct := y.acct, dirty := y.dirty }
  limit : y.acct.sessionLimit = x.acct.sessionLimit
  range : AccountInRange x.acct → AccountInRange y.acct

/-- The watches were examined: hits are counted and NOTE items raised, nothing else (R103, R190). -/
def Examined (s t : State) : Prop := t = { s with watches := t.watches, attn := { s.attn with notes := t.attn.notes } }

/-- What the events of the lines and ports, the expiries and the Meter can do (see the head of this part). -/
inductive Moves : State → State → Prop
  | refl (s : State) : Moves s s
  | trans {a b c : State} : Moves a b → Moves b c → Moves a c
  | quiet {s t : State} : Calm s t → KeysKept s t → Moves s t
  | link {s t : State} : Calm s t → LinkStep s t → Moves s t
  | edit {s : State} {e : EntryNo} {x y : OatEntry} : s.entry e = some x → Edits x y → Moves s (s.setEntry e (some y))
  | queue (s : State) (e : EntryNo) : Moves s (queueEntry s e)
  /-- A call that references no entry is settled (R185). -/
  | settledCall {s m : State} {l : LineNo} (cause : EndCause) (out : Bool) : (s.line l).phase.inCall = true →
      ((s.line l).phase.isAdmitted = false ∨ (s.line l).entryRef = none) → Examined (settleClaims s l out) m →
      Moves s (dropCounts (writeSummary m l cause (s.line l).phase.isAdmitted) l)
  /-- A session is settled: what the closing of its meter moves, then it leaves its entry (R185 to R192). -/
  | settledSession {s m n : State} {l : LineNo} {e : EntryNo} (cause : EndCause) (out : Bool) :
      (s.line l).phase.isAdmitted = true → (s.line l).entryRef = some e → Moves (settleClaims s l out) m →
      Examined (leaveEntry (m.modLine l (fun r => { r with entryRef := none })) e) n →
      Moves s (dropCounts (writeSummary n l cause (s.line l).phase.isAdmitted) l)

theorem Moves.foldl {α : Type} {f : State → α → State} (h : ∀ s a, Moves s (f s a)) (xs : List α) (s : State) :
    Moves s (xs.foldl f s) := by
  induction xs generalizing s with
  | nil => exact .refl s
  | cons x xs ih => exact (h s x).trans (ih _)

/-- A change of the Line Controller that keeps every key. -/
theorem moves_lines {s : State} {f : LineCtl → LineCtl} (h : Hush s.lc (f s.lc)) : Moves s (s.onLines f) :=
  .quiet (calm_lines h) { KeysKept.refl s with line := fun l => (h.line l).key }

theorem moves_modLine {s : State} {l : LineNo} {f : LineRec → LineRec} (h : QuietRec (s.line l) (f (s.line l))) :
    Moves s (s.modLine l f) := moves_lines (hush_modLine h)

/-- A change of a line record that leaves phase, references and residue. -/
theorem moves_fields {s : State} {l : LineNo} {f : LineRec → LineRec}
    (h : (f (s.line l)).phase = (s.line l).phase ∧ (f (s.line l)).entryRef = (s.line l).entryRef ∧
      (f (s.line l)).port = (s.line l).port ∧ (f (s.line l)).selectedGroup = (s.line l).selectedGroup ∧
      (f (s.line l)).residue = (s.line l).residue) : Moves s (s.modLine l f) := moves_modLine (.of_fields h)

theorem moves_requestMessage (s : State) (l : LineNo) (n : MsgNo) (k : Nat) : Moves s (requestMessage s l n k) :=
  moves_lines (hush_request s.lc l n k)

/-! ## The Meter and settlement -/

theorem setEntry_entry_self (s : State) (e : EntryNo) : s.setEntry e (s.entry e) = s := by
  simp [State.setEntry, State.entry, Vector.get_eq_getElem]

theorem moves_modEntry {s : State} {e : EntryNo} {f : OatEntry → OatEntry} (h : ∀ x, Edits x (f x)) :
    Moves s (s.modEntry e f) := by
  unfold State.modEntry
  cases hx : s.entry e with
  | none =>
    rw [Option.map_none, ← hx, setEntry_entry_self]
    exact .refl s
  | some x => exact .edit hx (h x)

theorem accountInRange_countCredit {a : Account} (h : AccountInRange a) (c : Category) :
    AccountInRange (a.countCredit c) := by
  obtain ⟨h1, h2, h3, h4, h5, h6, h7, h8, h9, h10⟩ := h
  cases c with
  | wait => exact ⟨h1, h2, h3, h4, h5, h6, h7, satSucc_le h8, h9, h10⟩
  | band b =>
    refine ⟨h1, h2, h3, h4, h5, h6, fun k => ?_, h8, h9, h10⟩
    rw [Account.countCredit, vector_get_set]
    split
    · exact satSucc_le (h7 b)
    · exact h7 k

theorem countCredit_sessionLimit (a : Account) (c : Category) : (a.countCredit c).sessionLimit = a.sessionLimit := by
  cases c <;> rfl

theorem debit_sessionLimit (a : Account) (c : Category) : (a.debit c).sessionLimit = a.sessionLimit := by
  simp only [Account.debit]
  split <;> exact countCredit_sessionLimit a c

theorem accountInRange_debit {a : Account} (h : AccountInRange a) (c : Category) : AccountInRange (a.debit c) := by
  obtain ⟨h1, h2, h3, h4, h5, h6, h7, h8, h9, h10⟩ := accountInRange_countCredit h c
  have ha : a.allotment ≤ max24 := h.2.2.2.1
  have ho : a.overdraft ≤ 65535 := h.2.2.2.2.1
  simp only [Account.debit]
  split
  · exact ⟨h1, h2, h3, (Nat.sub_le _ _).trans ha, h5, h6, h7, h8, h9, h10⟩
  · exact ⟨h1, h2, h3, h4, satSucc_le ho, h6, h7, h8, h9, h10⟩

theorem moves_postCredit (s : State) (e : EntryNo) (l : LineNo) (c : Category) : Moves s (postCredit s e l c) :=
  (moves_modEntry fun _ => ⟨rfl, debit_sessionLimit _ c, fun h => accountInRange_debit h c⟩).trans
    (moves_fields ⟨rfl, rfl, rfl, rfl, rfl⟩)

theorem moves_postCredits (s : State) (e : EntryNo) (l : LineNo) (c : Category) (n : Nat) :
    Moves s (postCredits s e l c n) := by
  induction n generalizing s with
  | zero => exact .refl s
  | succ n ih => exact (moves_postCredit s e l c).trans (ih _)

theorem moves_countSecond (s : State) (l : LineNo) (e : EntryNo) (st : AdmittedStage) : Moves s (countSecond s l e st) := by
  unfold countSecond
  have h := moves_fields (s := s) (l := l) (f := fun r => { r with admittedSeconds := satSucc max24 r.admittedSeconds })
    ⟨rfl, rfl, rfl, rfl, rfl⟩
  split
  · refine (h.trans (moves_fields (l := l) ⟨rfl, rfl, rfl, rfl, rfl⟩)).trans (moves_modEntry fun x => ?_)
    exact ⟨rfl, rfl, fun ⟨h1, h2, h3, h4, h5, h6, h7, h8, h9, h10⟩ => ⟨h1, h2, h3, h4, h5, h6, h7, h8, satSucc_le h9, h10⟩⟩
  · exact h

theorem moves_chargeCategory (s : State) (v : View) (l : LineNo) (e : EntryNo) (c : Category) :
    Moves s (chargeCategory s v l e c) :=
  (moves_modLine (l := l) ⟨rfl, fun _ => Nat.mod_lt _ (by decide)⟩).trans (moves_postCredits _ e l c _)

theorem moves_chargeSecond (s : State) (v : View) (l : LineNo) (e : EntryNo) (st : AdmittedStage) :
    Moves s (chargeSecond s v l e st) := by
  unfold chargeSecond
  have h := moves_countSecond s l e st
  split
  · exact h.trans (moves_fields ⟨rfl, rfl, rfl, rfl, rfl⟩)
  · split
    · exact h
    · exact h.trans (moves_chargeCategory _ v l e _)

theorem moves_warnLow (s : State) (e : EntryNo) : Moves s (warnLow s e) := by
  unfold warnLow
  refine Moves.foldl (fun s l => ?_) _ s
  split
  · exact .refl s
  · exact (moves_requestMessage s l _ _).trans (moves_fields ⟨rfl, rfl, rfl, rfl, rfl⟩)

theorem moves_cancelExhaustion (s : State) (e : EntryNo) : Moves s (cancelExhaustion s e) :=
  Moves.foldl (f := fun s l => s.modLine l (fun r => { r with exhaustion := none }))
    (fun _ _ => moves_fields ⟨rfl, rfl, rfl, rfl, rfl⟩) _ s

theorem moves_beginExhaustion {endNow : State → LineNo → State} (h : ∀ s l, Moves s (endNow s l)) (s : State)
    (e : EntryNo) : Moves s (beginExhaustion endNow s e) := by
  unfold beginExhaustion
  refine Moves.foldl (fun s l => ?_) _ s
  split
  · exact .refl s
  · have k := (moves_fields (s := s) (l := l)
      (f := fun r => { r with exhaustion := some (s.policy (s.lineClass l)).exhaustionGrace })
      ⟨rfl, rfl, rfl, rfl, rfl⟩).trans
      (moves_requestMessage _ l 11 (s.policy (s.lineClass l)).exhaustionGrace)
    simp only
    split
    · exact k.trans (h _ l)
    · exact k

theorem moves_creditAction {endNow : State → LineNo → State} (h : ∀ s l, Moves s (endNow s l)) (s : State)
    (e : EntryNo) (old : CreditState) : Moves s (creditAction endNow s e old) := by
  unfold creditAction
  split
  · exact .refl s
  · split
    · exact moves_warnLow s e
    · exact moves_beginExhaustion h s e
    · exact moves_beginExhaustion h s e
    · exact moves_cancelExhaustion s e
    · exact (moves_cancelExhaustion s e).trans (moves_warnLow _ e)
    all_goals exact .refl s

theorem moves_closeMeter {act : State → EntryNo → CreditState → State} (h : ∀ s e o, Moves s (act s e o)) (s : State)
    (l : LineNo) (e : EntryNo) (st : AdmittedStage) (ended : Option View) : Moves s (closeMeter act s l e st ended) := by
  have tail : ∀ s1 : State, Moves s1 ((if Config.roundUp ≤ (s1.line l).residue then
      match (s1.line l).lastCategory with
      | none => s1
      | some c => act (postCredit s1 e l c) e (s1.creditOf e)
      else s1).modLine l (fun r => { r with residue := 0 })) := by
    intro s1
    refine Moves.trans ?_ (moves_modLine ⟨rfl, fun _ => Nat.zero_lt_succ _⟩)
    split
    · split
      · exact .refl _
      · exact (moves_postCredit _ e l _).trans (h _ _ _)
    · exact .refl _
  cases ended with
  | none => exact tail s
  | some v => exact ((moves_chargeSecond s v l e st).trans (h _ _ _)).trans (tail _)

theorem examined_examineWatches (s : State) (k : WatchKind) (n : Nat) (l : LineNo) (held : Bool) :
    Examined s (examineWatches s k n l held) := by
  unfold examineWatches
  generalize allWatches = ws
  induction ws generalizing s with
  | nil => exact rfl
  | cons w ws ih =>
    have first : ∀ t : State, Examined s t → Examined s (ws.foldl _ t) := fun t ht => by
      have := ih t
      unfold Examined at *
      rw [this, ht]
    refine first _ ?_
    simp only
    split
    · split <;> rfl
    · rfl

theorem portByReady_entryRef (s : State) (p : PortNo) (k : LineNo) :
    ((portByReady s p).line k).entryRef = (s.line k).entryRef := by
  unfold portByReady serveQueue
  repeat' split
  all_goals simp [callPort, offerPort]
  split <;> simp_all

theorem settleClaims_entryRef (s : State) (l : LineNo) (out : Bool) (k : LineNo) :
    ((settleClaims s l out).line k).entryRef = (s.line k).entryRef := by
  have ports : ∀ t : State, (t.line k).entryRef = (s.line k).entryRef →
      ((match (s.line l).port with
        | none => t
        | some p => releasePort t p l out).line k).entryRef = (s.line k).entryRef := by
    intro t ht
    split
    · exact ht
    · unfold releasePort
      simp only
      split
      · rw [modPort_line_of, modLine_line]
        split
        · subst_vars; exact ht
        · exact ht
      · rw [portByReady_entryRef, modLine_line]
        split
        · subst_vars; exact ht
        · exact ht
  have h := ports (s.modLine l (fun r => { r with phase := .closing })) (by rw [modLine_line]; split <;> simp_all)
  unfold settleClaims
  simp only
  split
  · exact h
  · exact h

/-- Settlement of a call (R185). -/
theorem moves_settle {act : State → EntryNo → CreditState → State} (h : ∀ s e o, Moves s (act s e o)) {s : State}
    {l : LineNo} (hc : (s.line l).phase.inCall = true) (cause : EndCause) (out : Bool) (ended : Option View) :
    Moves s (settle act s l cause out ended) := by
  have watched : ∀ (n : Option Nat) (t : State), Examined t (match n with
      | none => t
      | some n => examineWatches t .sessionEnd n l false) := by
    intro n t
    cases n with
    | none => exact rfl
    | some n => exact examined_examineWatches t _ n l _
  unfold settle settleWork
  split
  · rename_i st hst
    have hl : (s.line l).phase.isAdmitted = true := by rw [hst]; rfl
    unfold settleSession
    have same : ((settleClaims s l out).line l).entryRef = (s.line l).entryRef := settleClaims_entryRef s l out l
    rw [same]
    cases he : (s.line l).entryRef with
    | none => exact .settledCall cause out hc (.inr he) (watched _ _)
    | some e => exact .settledSession cause out hl he (moves_closeMeter h _ l e st ended) (watched _ _)
  · rename_i hst
    have hl : (s.line l).phase.isAdmitted = false := by
      cases hp : (s.line l).phase with
      | admitted st => exact absurd hp (hst st)
      | _ => rfl
    exact .settledCall cause out hc (.inl hl) rfl

end Sys2Proof.Machine
end


section
namespace Sys2Proof.Machine

/-! ## Ends of calls and failed attempts -/

/-- What the key of a line record sees of its phase. -/
def Phase.sight (p : Phase) : Bool × Bool × Bool × Bool :=
  (p.inCall, p.isAdmitted, p.holdsPort, decide (p = .admitted .waiting))

/-- A change between two phases that the key does not tell apart. -/
theorem QuietRec.of_phases {r r' : LineRec} {p p' : Phase} (hp : r.phase = p) (hp' : r'.phase = p') (hs : p'.sight = p.sight)
    (k : r'.entryRef = r.entryRef ∧ r'.port = r.port ∧ r'.selectedGroup = r.selectedGroup ∧ r'.residue = r.residue) :
    QuietRec r r' := by
  obtain ⟨he, ho, hg, hr⟩ := k
  simp only [Phase.sight, Prod.mk.injEq] at hs
  exact ⟨by simp [LineRec.key, hp, hp', hs, he, ho, hg], by rw [hr]; exact id⟩

/-- The sign-on queue, the watches, the NOTE, HOLD, PORT_FAULT and FAILOVER_SPENT items and the port bus are seen by no key. -/
theorem moves_unseen {s t : State} (hc : Calm s t) (hl : t.lc = s.lc) (hp : t.pa.ports = s.pa.ports)
    (hg : t.pa.groups = s.pa.groups) : Moves s t :=
  .quiet hc
    { line := fun l => by simp [State.line, hl]
      port := fun p => by simp [State.port, hp]
      busy := fun p _ h => by simpa [State.port, hp] using h
      queue := fun g => by simp [State.group, hg] }

theorem moves_issuePort (s : State) (c : PortCmd) : Moves s (s.issuePort c) := moves_unseen (calm_issuePort s c) rfl rfl rfl

theorem moves_emptySlots (s : State) (l : LineNo) : Moves s (emptySlots s l) :=
  (moves_fields (l := l) ⟨rfl, rfl, rfl, rfl, rfl⟩).trans (moves_unseen { Calm.refl _ with } rfl rfl rfl)

theorem moves_dropHold (s : State) (l : LineNo) : Moves s (dropHold s l) := moves_unseen (calm_dropHold s l) rfl rfl rfl

theorem settle_phase (act : State → EntryNo → CreditState → State) (s : State) (l : LineNo) (cause : EndCause) (out : Bool)
    (ended : Option View) : ((settle act s l cause out ended).line l).phase = .closing := by rw [settle_line]

/-- The life in CLOSING begins for a line settled (R58). -/
theorem moves_enterClosing {s : State} {l : LineNo} (h : (s.line l).phase = .closing) (k : Nat) :
    Moves s (enterClosing s l k) := by
  have timer := moves_fields (s := s) (l := l) (f := fun r => { r with stageTimer := some Config.closingLimit })
    ⟨rfl, rfl, rfl, rfl, rfl⟩
  unfold enterClosing
  simp only
  split
  · exact timer.trans (moves_lines (hush_requestGoodbye _ l k))
  · refine timer.trans (moves_lines (hush_release ?_))
    show ((s.modLine l _).line l).phase = .closing
    rw [modLine_line, if_pos rfl]
    exact h

theorem moves_endCallWith {act : State → EntryNo → CreditState → State} (h : ∀ s e o, Moves s (act s e o)) (s : State)
    (l : LineNo) (cause : EndCause) (out : Bool) (ended : Option View) : Moves s (endCallWith act s l cause out ended) := by
  unfold endCallWith
  split
  · exact (moves_settle h (by assumption) cause out ended).trans (moves_enterClosing (settle_phase act s l cause out ended) _)
  · exact .refl s

theorem moves_meterAction (co : EndedSecond) (s : State) (e : EntryNo) (old : CreditState) :
    Moves s (meterAction co s e old) :=
  moves_creditAction (fun s l => moves_endCallWith (fun s _ _ => .refl s) s l _ _ _) s e old

theorem moves_endCall (co : EndedSecond) (s : State) (l : LineNo) (cause : EndCause) (out : Bool) :
    Moves s (endCall co s l cause out) := moves_endCallWith (moves_meterAction co) s l cause out _

theorem requestMessage_phase (s : State) (l : LineNo) (n : MsgNo) (k : Nat) :
    ((requestMessage s l n k).line l).phase = (s.line l).phase := by
  obtain ⟨_, _, _, h⟩ := request_line l s.lc n k
  show ((s.lc.request l n k).line l).phase = _
  rw [h]
  rfl

/-- A line in SIGNON goes back to ACCOUNT_ENTRY (R80, R84, R95). -/
theorem moves_enterAccountEntry {s : State} {l : LineNo} {st : SignOnStage} (h : (s.line l).phase = .signon st) :
    Moves s (enterAccountEntry s l) :=
  moves_modLine (.of_phases h rfl (by cases st <;> rfl) ⟨rfl, rfl, rfl, rfl⟩)

theorem moves_attemptFailed (co : EndedSecond) {s : State} {l : LineNo} {st : SignOnStage}
    (h : (s.line l).phase = .signon st) (n : Nat) : Moves s (attemptFailed co s l n) := by
  unfold attemptFailed
  have told := (moves_fields (s := s) (l := l) (f := fun r => { r with attemptsUsed := r.attemptsUsed + 1 })
    ⟨rfl, rfl, rfl, rfl, rfl⟩).trans (moves_requestMessage _ l 3 n)
  simp only
  split
  · refine (told.trans (moves_enterAccountEntry (st := st) ?_)).trans (moves_requestMessage _ l 1 0)
    rw [requestMessage_phase, modLine_line, if_pos rfl]
    exact h
  · exact told.trans (moves_endCall co _ l _ _)

theorem moves_leaveHeld (s : State) (l : LineNo) : Moves s (leaveHeld s l) :=
  (moves_dropHold s l).trans (moves_fields ⟨rfl, rfl, rfl, rfl, rfl⟩)

theorem leaveHeld_phase (s : State) (l : LineNo) : ((leaveHeld s l).line l).phase = (s.line l).phase := by
  simp [leaveHeld]

theorem calm_signOnQueue (s : State) (q : List SignOnOp) : Calm s { s with ctl := { s.ctl with signOnQueue := q } } :=
  { Calm.refl s with ctl := rfl }

theorem moves_handOver {s : State} {l : LineNo} {st : SignOnStage} (h : (s.line l).phase = .signon st) (st' : SignOnStage)
    (account : Nat) (kind : SignOnKind) : Moves s (handOver s l st' account kind) := by
  unfold handOver
  have asked : Moves s (s.modLine l (fun r => { r with phase := .signon st', attempt := r.attempt + 1 })) :=
    moves_modLine (.of_phases h rfl (by cases st <;> cases st' <;> rfl) ⟨rfl, rfl, rfl, rfl⟩)
  simp only
  split
  · exact asked.trans (moves_unseen (calm_signOnQueue _ _) rfl rfl rfl)
  · exact asked.trans (moves_attemptFailed noSecond (st := st') (by rw [modLine_line, if_pos rfl]) 5)

theorem moves_enterHeld {s : State} {l : LineNo} {st : SignOnStage} (h : (s.line l).phase = .signon st) :
    Moves s (enterHeld s l) :=
  (moves_unseen (t := raiseHold s l) { Calm.refl s with } rfl rfl rfl).trans
    (moves_modLine (.of_phases (p := .signon st) h rfl (by cases st <;> rfl) ⟨rfl, rfl, rfl, rfl⟩))

/-! ## Characters in SIGNON -/

theorem moves_endAccountEntry {s : State} {l : LineNo} {st : SignOnStage} (h : (s.line l).phase = .signon st) :
    Moves s (endAccountEntry s l) := by
  unfold endAccountEntry
  simp only
  split
  · exact moves_requestMessage s l 1 0
  · split
    · exact moves_attemptFailed noSecond h 1
    · exact (moves_modLine (.of_phases h rfl (by cases st <;> rfl) ⟨rfl, rfl, rfl, rfl⟩)).trans (moves_requestMessage _ l 2 0)

/-- An edit of the entry buffer with its echo (R81). -/
theorem moves_editBuffer (s : State) (l : LineNo) (b : List Byte) (c : Byte) :
    Moves s ((s.modLine l (fun r => { r with entryBuffer := b })).onLines (fun x => x.echo l c)) :=
  (moves_fields (l := l) ⟨rfl, rfl, rfl, rfl, rfl⟩).trans (moves_lines (hush_echo _ l c))

theorem moves_accountChar {s : State} {l : LineNo} {st : SignOnStage} (h : (s.line l).phase = .signon st) (c : Byte) :
    Moves s (accountChar s l c) := by
  unfold accountChar
  simp only
  split
  · exact moves_endAccountEntry h
  · split
    · split
      · exact moves_editBuffer s l _ c
      · exact .refl s
    · split
      · split
        · exact .refl s
        · exact moves_editBuffer s l _ c
      · exact .refl s

theorem moves_endPasswordEntry {s : State} {l : LineNo} {st : SignOnStage} (h : (s.line l).phase = .signon st) :
    Moves s (endPasswordEntry s l) := by
  unfold endPasswordEntry
  have emptied : Moves s (s.modLine l (fun r => { r with entryBuffer := [] })) := moves_fields ⟨rfl, rfl, rfl, rfl, rfl⟩
  have still : ((s.modLine l (fun r => { r with entryBuffer := [] })).line l).phase = .signon st := by
    rw [modLine_line, if_pos rfl]
    exact h
  simp only
  split
  · exact emptied.trans (moves_attemptFailed noSecond still 1)
  · exact emptied.trans (moves_handOver still _ _ _)

theorem moves_passwordEntryChar {s : State} {l : LineNo} {st : SignOnStage} (h : (s.line l).phase = .signon st) (c : Byte) :
    Moves s (passwordEntryChar s l c) := by
  unfold passwordEntryChar
  simp only
  split
  · exact moves_endPasswordEntry h
  · split
    · split
      · exact moves_fields ⟨rfl, rfl, rfl, rfl, rfl⟩
      · exact .refl s
    · split
      · exact moves_fields ⟨rfl, rfl, rfl, rfl, rfl⟩
      · exact .refl s

theorem moves_signOnChar {s : State} {l : LineNo} {st : SignOnStage} (h : (s.line l).phase = .signon st) (c : Byte) :
    Moves s (signOnChar s l st c) := by
  cases st with
  | accountEntry => exact moves_accountChar h c
  | passwordEntry => exact moves_passwordEntryChar h c
  | checking => exact .refl s
  | held => exact .refl s
  | admitting => exact .refl s

theorem moves_signOnBreak {s : State} {l : LineNo} {st : SignOnStage} (h : (s.line l).phase = .signon st) :
    Moves s (signOnBreak s l st) := by
  cases st with
  | accountEntry => exact (moves_enterAccountEntry h).trans (moves_requestMessage _ l 1 0)
  | passwordEntry => exact (moves_enterAccountEntry h).trans (moves_requestMessage _ l 1 0)
  | checking => exact .refl s
  | held => exact .refl s
  | admitting => exact .refl s

/-! ## Calls and ports -/

/-- A port that names no line changes its state; a port that names one stays CALLING or IN_USE. -/
theorem moves_modPort {s : State} {p : PortNo} {f : PortRec → PortRec} (hl : (f (s.port p)).line = (s.port p).line)
    (hb : (s.port p).line.isSome → (s.port p).state = .calling ∨ (s.port p).state = .inUse →
      (f (s.port p)).state = .calling ∨ (f (s.port p)).state = .inUse) : Moves s (s.modPort p f) :=
  .quiet (calm_modPort s p f)
    { KeysKept.refl s with
      port := fun k => by
        rw [modPort_port]
        split
        · subst_vars; exact hl
        · rfl
      busy := fun k hs hk => by
        rw [modPort_port]
        split
        · subst_vars; exact hb hs hk
        · exact hk }

theorem failPort_line_none {s : State} {p : PortNo} (h : (s.port p).line = none) (cause : Option FaultCause) :
    Moves s (failPort s p cause) := by
  have hung : Moves s (hangUp s p) :=
    (moves_modPort (f := fun x => { x with line := none, callTimer := none }) h.symm (by simp [h])).trans (moves_issuePort _ _)
  have free : ((hangUp s p).port p).line = none := by simp [hangUp]
  cases cause with
  | none => exact hung.trans (moves_modPort (f := fun x => { x with state := .outOfService }) rfl (by simp [free]))
  | some c =>
    exact (hung.trans (moves_modPort (f := fun x => { x with state := .faulted, faultCause := some c }) rfl
      (by simp [free]))).trans (moves_unseen (t := raisePortFault _ p c) { Calm.refl _ with } rfl rfl rfl)

theorem failCall_eq (co : EndedSecond) (s : State) (p : PortNo) (cause : Option FaultCause) :
    failCall co s p cause = match (s.port p).line with
      | none => failPort s p cause
      | some l => callFailed co (failPort s p cause) l := by
  cases cause <;> rfl

theorem moves_failCall (co : EndedSecond) (s : State) (p : PortNo) (cause : Option FaultCause) :
    Moves s (failCall co s p cause) := by
  rw [failCall_eq]
  cases hl : (s.port p).line with
  | none => exact failPort_line_none hl cause
  | some l =>
    simp only [callFailed]
    split
    · exact (Moves.link ((calm_failPort s p cause).trans (calm_modLine id)) (.unlink cause hl)).trans
        (moves_endCall co _ l _ _)
    · exact .link ((calm_failPort s p cause).trans (calm_retryCall _ l)) (.retry cause hl)

theorem moves_lineLosesPort {s : State} {p : PortNo} {l : LineNo} (cause : Option FaultCause) (hl : (s.port p).line = some l)
    (g : Option GroupNo) : Moves s (lineLosesPort (failPort s p cause) g l) := by
  have parted : Moves s (emptySlots ((failPort s p cause).modLine l (fun r => { r with port := none })) l) :=
    (Moves.link ((calm_failPort s p cause).trans (calm_modLine id)) (.unlink cause hl)).trans (moves_emptySlots _ l)
  unfold lineLosesPort
  simp only
  split
  · rename_i g' q hq
    obtain ⟨g', -, hm⟩ := Option.bind_eq_some_iff.1 hq
    obtain ⟨q', ht, hq'⟩ := Option.map_eq_some_iff.1 hm
    simp only [Prod.mk.injEq] at hq'
    obtain ⟨rfl, rfl⟩ := hq'
    refine .link (((calm_failPort s p cause).trans (calm_modLine (l := l) id)).trans
      ((calm_emptySlots _ l).trans (calm_beginMove _ g' l q'))) (.move cause hl ?_)
    unfold moveTarget at ht
    split at ht
    · have := List.find?_some ht
      simp only [State.portIs, Bool.and_eq_true, decide_eq_true_eq] at this
      exact this.2
    · cases ht
  · exact parted.trans (moves_endCall noSecond _ l _ _)

theorem moves_losePort (s : State) (p : PortNo) : Moves s (losePort s p) := by
  unfold losePort
  cases hl : (s.port p).line with
  | none => exact failPort_line_none hl (some .readyLost)
  | some l => exact moves_lineLosesPort (some .readyLost) hl _

/-- A port takes its ACCEPT (R151, R177). -/
theorem moves_portTaken (s : State) (p : PortNo) :
    Moves s (s.modPort p (fun x => { x with state := .inUse, callTimer := none })) :=
  moves_modPort rfl fun _ _ => .inr rfl

theorem moves_connect {s : State} {p : PortNo} {l : LineNo} (h : (s.line l).phase = .admitted .calling) :
    Moves s (connect s p l) :=
  ((moves_portTaken s p).trans (moves_modLine (.of_phases (p := .admitted .calling) h rfl rfl ⟨rfl, rfl, rfl, rfl⟩))).trans
    (moves_requestMessage _ l 7 0)

theorem moves_completeMove {s : State} {p : PortNo} {l : LineNo} (h : (s.line l).phase = .admitted .moving) :
    Moves s (completeMove s p l) :=
  ((moves_portTaken s p).trans (moves_modLine (.of_phases (p := .admitted .moving) h rfl rfl ⟨rfl, rfl, rfl, rfl⟩))).trans
    (moves_requestMessage _ l 9 0)

/-! ## Expiries -/

theorem moves_leaveQueue {s : State} {l : LineNo} (h : (s.line l).phase = .admitted .waiting) : Moves s (leaveQueue s l) :=
  .link (calm_leaveQueue s l) (.unqueue h)

theorem moves_resume {s : State} {l : LineNo} (h : (s.line l).phase = .admitted .escaped) : Moves s (resume s l) :=
  moves_modLine (.of_phases h rfl rfl ⟨rfl, rfl, rfl, rfl⟩)

theorem moves_endGuard {s : State} {l : LineNo} (h : (s.line l).phase = .guard) : Moves s (endGuard s l) := by
  refine moves_modLine (.of_resting (.inr (.inl h)) ?_ ⟨rfl, rfl, rfl, rfl⟩)
  simp only
  split <;> simp

theorem stageTimerIn_due {s : State} {l : LineNo} {p : Phase} (h : stageTimerIn s l p = some 0) : (s.line l).phase = p := by
  unfold stageTimerIn at h
  split at h
  · assumption
  · cases h

theorem moves_takeExpiry (co : EndedSecond) (s : State) (x : Expiry) : Moves s (takeExpiry co s x) := by
  unfold takeExpiry
  split
  · rename_i hd
    replace hd := of_decide_eq_true hd
    cases x with
    | answerLimit l => exact moves_endCall co s l _ _
    | signonLimit l => exact moves_endCall co s l _ _
    | holdTimer l =>
      simp only [timerOf] at hd
      split at hd
      · exact (moves_leaveHeld s l).trans (moves_attemptFailed co ((leaveHeld_phase s l).trans (by assumption)) 5)
      · cases hd
    | selectionLimit l => exact moves_endCall co s l _ _
    | waitLimit l => exact (moves_leaveQueue (stageTimerIn_due hd)).trans (moves_requestMessage _ l 6 0)
    | escapeLimit l => exact moves_resume (stageTimerIn_due hd)
    | closingLimit l => exact moves_lines (f := fun c => c.release l) (hush_release (stageTimerIn_due hd))
    | guardTime l => exact moves_endGuard (stageTimerIn_due hd)
    | carrierHold l => exact moves_endCall co s l _ _
    | idleWarning l => exact moves_endCall co s l _ _
    | exhaustion l => exact moves_endCall co s l _ _
    | hours l => exact moves_endCall co s l _ _
    | callTimer p => exact moves_failCall co s p (some .noAccept)
  · exact .refl s

/-! ## Line events -/

theorem moves_beginSignOn {s : State} {l : LineNo} (h : (s.line l).phase = .answering) : Moves s (beginSignOn s l) :=
  ((moves_modLine (.of_phases h rfl rfl ⟨rfl, rfl, rfl, rfl⟩)).trans (moves_requestMessage _ l 0 0)).trans
    (moves_requestMessage _ l 1 0)

theorem moves_carrierOn (s : State) (l : LineNo) : Moves s (carrierOn s l) := by
  have flag : Moves s (s.modLine l (fun r => { r with carrier := true })) := moves_fields ⟨rfl, rfl, rfl, rfl, rfl⟩
  unfold carrierOn
  cases hp : (s.line l).phase with
  | down => exact flag.trans (moves_lines (hush_issue _ _))
  | idle => exact flag.trans (moves_lines (hush_issue _ _))
  | guard => exact flag.trans (moves_lines (hush_issue _ _))
  | answering => exact flag.trans (moves_beginSignOn (by simp [hp]))
  | signon _ => exact flag.trans (moves_fields ⟨rfl, rfl, rfl, rfl, rfl⟩)
  | admitted _ => exact flag.trans (moves_fields ⟨rfl, rfl, rfl, rfl, rfl⟩)
  | closing => exact flag

theorem moves_startCarrierHold (s : State) (l : LineNo) : Moves s (startCarrierHold s l) := by
  have timer : Moves s (s.modLine l (fun r => { r with carrierHold := some s.lc.params.carrierHold })) :=
    moves_fields ⟨rfl, rfl, rfl, rfl, rfl⟩
  unfold startCarrierHold
  split
  · exact .refl s
  · simp only
    split
    · exact timer.trans (moves_endCall noSecond _ l _ _)
    · exact timer

theorem moves_carrierOff (s : State) (l : LineNo) : Moves s (carrierOff s l) := by
  have flag : Moves s (s.modLine l (fun r => { r with carrier := false })) := moves_fields ⟨rfl, rfl, rfl, rfl, rfl⟩
  unfold carrierOff
  cases hp : (s.line l).phase with
  | down => exact flag
  | idle => exact flag
  | guard => exact flag
  | answering => exact flag
  | signon _ => exact flag.trans (moves_startCarrierHold _ l)
  | admitted _ => exact flag.trans (moves_startCarrierHold _ l)
  | closing => exact flag.trans (moves_lines (hush_release (by
      show ((s.modLine l _).line l).phase = .closing
      rw [modLine_line, if_pos rfl]
      exact hp)))

theorem moves_promptSelection (s : State) (l : LineNo) : Moves s (promptSelection s l) := moves_requestMessage s l 4 _

theorem freePort_state {s : State} {g : GroupNo} {role : PortRole} {p : PortNo} (h : s.freePort g role = some p) :
    (s.port p).state = .free := by
  have := List.find?_some h
  simp only [State.portIs, Bool.and_eq_true, decide_eq_true_eq] at this
  exact this.2

theorem moves_refused (s : State) (l : LineNo) (g : GroupNo) : Moves s ((requestMessage s l 6 0).modGroup g (fun x =>
    { x with refusedCount := satSucc max24 x.refusedCount })) := by
  refine (moves_requestMessage s l 6 0).trans (.quiet (calm_modGroup ?_) { KeysKept.refl _ with queue := fun k => ?_ })
  · rintro ⟨h1, h2, h3, h4, h5, h6⟩
    exact ⟨h1, h2, h3, h4, h5, satSucc_le h6⟩
  · rw [modGroup_group]
    split
    · subst_vars; rfl
    · rfl

theorem moves_chooseGroup {s : State} {l : LineNo} (h : (s.line l).phase = .admitted .selecting) (g : GroupNo) :
    Moves s (chooseGroup s l g) := by
  unfold chooseGroup
  have chosen : Calm s (s.modLine l (fun r => { r with selectedGroup := some g })) := calm_modLine id
  split
  · split
    · exact .link (chosen.trans (calm_offerPort _ _ l _)) (.choose h (freePort_state (by assumption)))
    · split
      · exact .link (chosen.trans (calm_waitInQueue _ g l _)) (.wait h)
      · exact moves_refused s l g
  · exact moves_requestMessage s l 8 0

theorem moves_selectingChar {s : State} {l : LineNo} (h : (s.line l).phase = .admitted .selecting) (c : Byte) :
    Moves s (selectingChar s l c) := by
  unfold selectingChar
  split
  · exact moves_promptSelection s l
  · split
    · exact .refl s
    · exact moves_promptSelection s l
    · split
      · exact moves_chooseGroup h _
      · exact moves_promptSelection s l

theorem moves_activity (s : State) (l : LineNo) : Moves s (activity s l) := moves_fields ⟨rfl, rfl, rfl, rfl, rfl⟩

theorem activity_phase (s : State) (l : LineNo) : ((activity s l).line l).phase = (s.line l).phase := by
  simp [activity]

theorem moves_enterEscaped {s : State} {l : LineNo} (h : (s.line l).phase = .admitted .connected) :
    Moves s (enterEscaped s l) :=
  ((moves_activity s l).trans (moves_modLine (.of_phases ((activity_phase s l).trans h) rfl rfl ⟨rfl, rfl, rfl, rfl⟩))).trans
    (moves_requestMessage _ l 14 _)

theorem moves_forwardChar (s : State) (l : LineNo) (c : Byte) : Moves s (forwardChar s l c) := by
  unfold forwardChar
  split
  · exact moves_fields ⟨rfl, rfl, rfl, rfl, rfl⟩
  · have held : Moves s (s.modLine l (fun r => { r with lineToPort := some c })) := moves_fields ⟨rfl, rfl, rfl, rfl, rfl⟩
    simp only
    split
    · exact held
    · exact held.trans (moves_issuePort _ _)

theorem moves_admittedChar {s : State} {l : LineNo} {st : AdmittedStage} (h : (s.line l).phase = .admitted st) (c : Byte) :
    Moves s (admittedChar s l st c) := by
  cases st with
  | selecting => exact moves_selectingChar h c
  | waiting => exact .refl s
  | calling => exact .refl s
  | moving => exact .refl s
  | connected =>
    simp only [admittedChar, connectedChar]
    split
    · exact moves_enterEscaped h
    · exact (moves_activity s l).trans (moves_forwardChar _ l c)
  | escaped =>
    simp only [admittedChar, escapedChar]
    split
    · exact moves_resume h
    · split
      · exact moves_endCall noSecond s l _ _
      · exact .refl s

theorem moves_lineRxChar (s : State) (l : LineNo) (c : Byte) : Moves s (lineRxChar s l c) := by
  unfold lineRxChar
  split
  · exact moves_signOnChar (by assumption) c
  · exact moves_admittedChar (by assumption) c
  all_goals exact .refl s

theorem moves_admittedBreak {s : State} {l : LineNo} {st : AdmittedStage} (h : (s.line l).phase = .admitted st) :
    Moves s (admittedBreak s l st) := by
  cases st with
  | selecting => exact moves_promptSelection s l
  | waiting => exact (moves_leaveQueue h).trans (moves_promptSelection _ l)
  | connected => exact moves_enterEscaped h
  | calling => exact .refl s
  | escaped => exact .refl s
  | moving => exact .refl s

theorem moves_rxBreak (s : State) (l : LineNo) : Moves s (rxBreak s l) := by
  unfold rxBreak
  split
  · exact moves_signOnBreak (by assumption)
  · exact moves_admittedBreak (by assumption)
  all_goals exact .refl s

theorem moves_txDone (s : State) (l : LineNo) : Moves s (txDone s l) := moves_lines (hush_txDone _ l)

theorem moves_lineCommandDone (s : State) : Moves s (lineCommandDone s) := moves_lines ⟨rfl, rfl, fun _ => .refl _⟩

theorem moves_lineCommandWithdrawn (s : State) : Moves s (lineCommandWithdrawn s) := by
  unfold lineCommandWithdrawn
  split
  · exact (moves_lineCommandDone s).trans (moves_txDone _ _)
  · exact moves_lineCommandDone s
  · exact moves_lineCommandDone s
  · exact .refl s

/-! ## Port events -/

theorem moves_portByReady {s : State} {p : PortNo} (h : (s.port p).state ≠ .calling) (k : (s.port p).state ≠ .inUse) :
    Moves s (portByReady s p) := .link (calm_portByReady s p) (.ready h k)

theorem moves_hostReady (s : State) (p : PortNo) (b : Bool) : Moves s (s.modPort p (fun x => { x with hostReady := b })) :=
  moves_modPort rfl fun _ h => h

theorem moves_hostReadyOn (s : State) (p : PortNo) : Moves s (hostReadyOn s p) := by
  have flag := moves_hostReady s p true
  unfold hostReadyOn
  cases hs : (s.port p).state with
  | notReady => exact flag.trans (moves_portByReady (by simp [hs]) (by simp [hs]))
  | _ => exact flag

theorem moves_hostReadyOff (s : State) (p : PortNo) : Moves s (hostReadyOff s p) := by
  have flag := moves_hostReady s p false
  unfold hostReadyOff
  cases hs : (s.port p).state with
  | free => exact flag.trans (moves_portByReady (by simp [hs]) (by simp [hs]))
  | calling => exact flag.trans (moves_failCall noSecond _ p _)
  | inUse => exact flag.trans (moves_losePort _ p)
  | _ => exact flag

theorem moves_acceptPort (s : State) (p : PortNo) : Moves s (acceptPort s p) := by
  unfold acceptPort
  split
  · unfold acceptLine
    split
    · exact moves_connect (by assumption)
    · exact moves_completeMove (by assumption)
    · exact moves_issuePort s _
  · exact moves_issuePort s _

theorem moves_hostChar (s : State) (l : LineNo) (c : Byte) : Moves s (hostChar s l c) := by
  unfold hostChar
  split
  · simp only
    split
    · exact (moves_activity s l).trans (moves_fields ⟨rfl, rfl, rfl, rfl, rfl⟩)
    · have held : Moves s ((activity s l).modLine l (fun r => { r with portToLine := some c })) :=
        (moves_activity s l).trans (moves_fields ⟨rfl, rfl, rfl, rfl, rfl⟩)
      split
      · exact held
      · exact held.trans (moves_lines (hush_boundary _ l))
  · exact .refl s

theorem moves_portRxChar (s : State) (p : PortNo) (c : Byte) : Moves s (portRxChar s p c) := by
  unfold portRxChar
  split
  · exact moves_hostChar s _ c
  · exact .refl s

theorem moves_hostDisconnect (s : State) (p : PortNo) : Moves s (hostDisconnect s p) := by
  unfold hostDisconnect
  split
  · exact moves_endCall noSecond s _ _ _
  · exact .refl s

theorem moves_portCommandDone (s : State) : Moves s (portCommandDone s) := by
  unfold portCommandDone
  have gone : Moves s { s with pa := { s.pa with bus := s.pa.bus.tail } } := moves_unseen { Calm.refl s with } rfl rfl rfl
  simp only
  split
  · exact gone.trans (moves_fields ⟨rfl, rfl, rfl, rfl, rfl⟩)
  · exact gone

/-! ## The parts of a second event -/

theorem QuietRec.tickLine (r : LineRec) : QuietRec r (tickLine r) := .of_fields ⟨rfl, rfl, rfl, rfl, rfl⟩

theorem moves_tickTimers (s : State) : Moves s (tickTimers s) := by
  have line : ∀ l, (tickTimers s).line l = tickLine (s.line l) := fun l => by
    simp [tickTimers, State.line, LineCtl.line, Vector.get_eq_getElem]
  have port : ∀ p, (tickTimers s).port p = tickPort (s.port p) := fun p => by
    simp [tickTimers, State.port, Vector.get_eq_getElem]
  refine .quiet { Calm.refl s with residue := fun l h => ?_ } ⟨fun l => ?_, fun p => ?_, fun p _ h => ?_, fun _ => rfl⟩
  · rw [line]; exact h
  · rw [line]; rfl
  · rw [port]; rfl
  · rw [port]; exact h

theorem moves_countIdle (s : State) (l : LineNo) : Moves s (countIdle s l) := by
  unfold countIdle
  simp only
  split
  · have counted : Moves s (s.modLine l (fun r =>
        { r with idleCount := some (satSucc 65535 ((s.line l).idleCount.getD 0)) })) := moves_fields ⟨rfl, rfl, rfl, rfl, rfl⟩
    split
    · exact (counted.trans (moves_fields (l := l) ⟨rfl, rfl, rfl, rfl, rfl⟩)).trans (moves_requestMessage _ l 13 _)
    · exact counted
  · exact .refl s

theorem countLevel_inRange {x : GroupRec} (h : x.InRange) : (countLevel x).InRange := by
  unfold countLevel
  split
  · obtain ⟨h1, h2, h3, h4, h5, h6⟩ := h
    exact ⟨h1, h2, h3, h4, satSucc_le h5, h6⟩
  · exact h

theorem moves_countCongestion (s : State) : Moves s (countCongestion s) := by
  have group : ∀ g, (countCongestion s).group g = countLevel (s.group g) := fun g => by
    simp [countCongestion, State.group, Vector.get_eq_getElem]
  refine .quiet { Calm.refl s with group := fun g h => ?_ } ⟨fun _ => rfl, fun _ => rfl, fun _ _ h => h, fun g => ?_⟩
  · rw [group]; exact countLevel_inRange h
  · rw [group, countLevel]; split <;> rfl

theorem moves_meterStep (co : EndedSecond) (v : View) (s : State) (l : LineNo) : Moves s (meterStep co v s l) := by
  unfold meterStep
  split
  · exact (moves_chargeSecond s v l _ _).trans (moves_meterAction co _ _ _)
  · exact .refl s

theorem moves_meterSteps (v : View) (ls : List LineNo) (s : State) : Moves s (meterSteps v ls s) := by
  induction ls generalizing s with
  | nil => exact .refl s
  | cons l ls ih => exact (moves_meterStep _ v s l).trans (ih _)

theorem moves_judgeHours (b : Band) (s : State) (l : LineNo) : Moves s (judgeHours b s l) := by
  unfold judgeHours
  simp only
  split
  · split
    · exact moves_fields ⟨rfl, rfl, rfl, rfl, rfl⟩
    · split
      · exact .refl s
      · have warned := (moves_fields (s := s) (l := l)
          (f := fun r => { r with hours := some (s.policy (s.lineClass l)).hoursGrace }) ⟨rfl, rfl, rfl, rfl, rfl⟩).trans
          (moves_requestMessage _ l 12 (s.policy (s.lineClass l)).hoursGrace)
        split
        · exact warned.trans (moves_endCall noSecond _ l _ _)
        · exact warned
  · exact .refl s

theorem moves_takeBandEdge (s : State) : Moves s (takeBandEdge s) := by
  unfold takeBandEdge
  split
  · exact Moves.foldl (moves_judgeHours _) _ s
  · exact .refl s

theorem announce_lines (l : LineNo) (n : Nat) (queue : List Place) :
    (announce l n queue).map (fun q => q.line) = queue.map (fun q => q.line) := by
  rw [announce, List.map_map]
  refine List.map_congr_left fun q _ => ?_
  simp only [Function.comp_apply]
  split <;> rfl

theorem moves_announcePlace (g : GroupNo) (s : State) (l : LineNo) : Moves s (announcePlace g s l) := by
  unfold announcePlace
  simp only
  split
  · refine Moves.trans (.quiet (calm_modGroup id) { KeysKept.refl _ with queue := fun k => ?_ }) (moves_requestMessage _ l 5 _)
    rw [modGroup_group]
    split
    · subst_vars; exact announce_lines l _ _
    · rfl
  · exact .refl s

theorem moves_flushEntries (s : State) : Moves s (flushEntries s) := by
  unfold flushEntries
  refine Moves.foldl (fun s e => ?_) _ s
  split
  · exact .refl s
  · split
    · exact .queue s e
    · exact .refl s

theorem moves_minuteEvent (s : State) : Moves s (minuteEvent s) := by
  have told : Moves s (allGroups.foldl announceQueue s) :=
    Moves.foldl (fun s g => Moves.foldl (moves_announcePlace g) _ s) _ s
  unfold minuteEvent
  simp only
  split
  · exact told.trans (moves_flushEntries _)
  · exact told

theorem moves_takeOverdue (s : State) : Moves s (takeOverdue s) := Moves.foldl (moves_takeExpiry noSecond) _ s

theorem moves_takeEarly (xs : List Expiry) (s : State) : Moves s (takeEarly xs s) := Moves.foldl (moves_takeExpiry _) _ s

end Sys2Proof.Machine
end


/-! # The state right after power-on reset -/

section
namespace Sys2Proof.Machine

theorem reset_entry (e : EntryNo) : State.reset.entry e = none := Vector.getElem_replicate e.isLt

theorem reset_line (l : LineNo) : State.reset.line l = resetLine := Vector.getElem_replicate l.isLt

theorem reset_port (p : PortNo) : State.reset.port p = resetPort := Vector.getElem_replicate p.isLt

theorem reset_group (g : GroupNo) : State.reset.group g = resetGroup := Vector.getElem_replicate g.isLt

theorem reset_watch (w : WatchNo) : State.reset.watches.get w = resetWatch := Vector.getElem_replicate w.isLt

theorem reset_idle {op : Operation} : State.reset.ctl.inProgress ≠ some op := nofun

/-- No line is ADMITTED right after reset, so no entry has a session. -/
theorem reset_sessions (e : EntryNo) : State.reset.sessions e = [] := by
  simp [State.sessions, reset_line, resetLine]

theorem resetPolicy_inRange : PolicyInRange resetPolicy := by unfold PolicyInRange; decide

theorem reset_policies (c : ClassNo) : resetTariff.policies.get c = resetPolicy := Vector.getElem_replicate c.isLt

theorem reset_linksLawful : LinksLawful State.reset := by
  simp [LinksLawful, PortsNameLines, PortStagesAgree, QueuesHoldWaiting, QueuesWaitForPorts, reset_line, reset_port,
    reset_group, resetLine, resetPort, resetGroup, Phase.holdsPort]

theorem reset_sessionsLawful : SessionsLawful State.reset := by
  refine ⟨fun e => ?_, ⟨fun e x h => ?_, fun e k x y h => ?_⟩, fun l => ?_, fun n h => absurd h reset_idle, reset_idle⟩
  · rw [reset_entry]; exact reset_sessions e
  · simp [reset_entry] at h
  · simp [reset_entry] at h
  · rw [reset_line]; rfl

theorem reset_accountsInRange : AccountsInRange State.reset :=
  ⟨fun e x h => by simp [reset_entry] at h, nofun, fun _ h => absurd h reset_idle⟩

theorem reset_messagesFit : MessagesFit State.reset := by unfold MessagesFit; decide +kernel

theorem reset_paramsInRange : ParamsInRange State.reset := by unfold ParamsInRange; decide

theorem reset_clockInRange : ClockInRange State.reset := by unfold ClockInRange; decide

/-- Settles O3: with no session, no port named and no place taken, the laws of ties hold emptily; the settings lie in their ranges. -/
theorem resetMeetsLaws : Obligations.ResetMeetsLaws := by
  unfold Obligations.ResetMeetsLaws
  refine ⟨storeWf_reset, fun l => ?_, List.nodup_nil, ⟨Nat.zero_le _, .nil⟩, ⟨fun c => ?_, fun c => ?_⟩, reset_clockInRange, reset_messagesFit,
    reset_paramsInRange, fun g => ?_, reset_accountsInRange, nofun, reset_linksLawful, reset_sessionsLawful, .nil, nofun⟩
  · rw [reset_line]; decide
  · exact (reset_policies c).symm ▸ resetPolicy_inRange
  · exact (reset_policies c).symm ▸ resetPolicy_inRange
  · rw [reset_group]; decide

theorem reset_tariff (t : TariffSet) (h : t = State.reset.cal.active ∨ t = State.reset.cal.pendingSet) : t = resetTariff :=
  h.elim id id

theorem reset_view (v : View) (h : v = State.reset.cal.view ∨ v = State.reset.cal.prevView) : v = resetView := h.elim id id

/-- What R109 and R110 give for a tariff set. -/
theorem resetTariff_values : (∀ i : Fin 336, resetTariff.schedule.get i = 0) ∧
    (∀ (b : Band) (c : ClassNo), (resetTariff.rates.get b).get c = 0) ∧ ∀ c : ClassNo, resetTariff.waitRates.get c = 0 ∧
      resetTariff.policies.get c = resetPolicy := by
  refine ⟨fun i => Vector.getElem_replicate i.isLt, by decide, fun c => ⟨Vector.getElem_replicate c.isLt, reset_policies c⟩⟩

/-- Settles O2: each block's record is read off the reset values. -/
theorem resetValues : Obligations.ResetValues := by
  unfold Obligations.ResetValues
  refine ⟨rfl, ⟨reset_entry, rfl⟩, reset_line, rfl, by decide +kernel, rfl, ?_, ?_, ⟨rfl, rfl, rfl, rfl, rfl⟩, ?_, ?_, reset_port,
    rfl, ?_, reset_group, ⟨rfl, rfl, rfl, rfl, rfl, rfl⟩, by decide +kernel, rfl⟩
  · intro l
    simp [State.reset, resetLineCtl]
  · intro w
    rw [reset_watch]
    exact ⟨rfl, rfl, rfl⟩
  · intro t h
    rw [reset_tariff t h]
    exact resetTariff_values
  · intro v h
    rw [reset_view v h]
    exact ⟨rfl, rfl, rfl, rfl, fun c => ⟨Vector.getElem_replicate c.isLt, Vector.getElem_replicate c.isLt⟩⟩
  · intro p
    simp [State.reset, resetPortCtl]

end Sys2Proof.Machine
end


/-! # What a command outside the store operations can do

`Acts W Op s t` says that `t` comes from `s` by moves, by the settings and answers of the supervisor's requests, and by the steps `Op`
of the Account Store Controller. `W` is what is known of the operands of the commands. -/

section
namespace Sys2Proof.Machine

/-- See the head of this part. -/
inductive Acts (W : Prop) (Op : State → State → Prop) : State → State → Prop
  | refl (s : State) : Acts W Op s s
  | trans {a b c : State} : Acts W Op a b → Acts W Op b c → Acts W Op a c
  | moves {s t : State} : Moves s t → Acts W Op s t
  | op {s t : State} : Op s t → Acts W Op s t
  /-- A call is answered (R53, R54). -/
  | answer {s : State} {l : LineNo} : (s.line l).phase = .idle →
      Acts W Op s (s.onLines (fun c => (c.issue (.answer l)).modLine l (answeredLine c.params.answerLimit)))
  | port {s : State} (p : SupPort) : (PortFlagsApart s → PortFlagsApart { s with sup := p }) → Acts W Op s { s with sup := p }
  | calendar {s : State} (c : Calendar) : (PoliciesInRange s → PoliciesInRange { s with cal := c }) →
      (ClockInRange s → ClockInRange { s with cal := c }) → Acts W Op s { s with cal := c }
  | params {s : State} (p : LineParams) : ParamsInRange (s.onLines fun c => { c with params := p }) ∨ ¬ ParamsInRange s →
      Acts W Op s (s.onLines fun c => { c with params := p })
  | message {s : State} (m : MsgNo) (text : List Byte) : text.length ≤ Config.maxMessageLength →
      Acts W Op s (s.onLines fun c => { c with messages := c.messages.set m text })
  | attention {s : State} (a : Attention) : a.accounts = s.attn.accounts ∨ a.accounts = s.attn.accounts.tail →
      Acts W Op s { s with attn := a }
  | wait {s : State} (r : StoreReq) : (W → requestFits r) → Acts W Op s (s.onCtl fun c => { c with waiting := some r })

namespace Acts

theorem foldl {W : Prop} {Op : State → State → Prop} {α : Type} {f : State → α → State} (h : ∀ s a, Acts W Op s (f s a))
    (xs : List α) (s : State) : Acts W Op s (xs.foldl f s) := by
  induction xs generalizing s with
  | nil => exact .refl s
  | cons x xs ih => exact (h s x).trans (ih _)

end Acts

section
variable {W : Prop} {Op : State → State → Prop}

/-- A response clears BUSY (R201). -/
theorem acts_respond (s : State) (c : Code) (clamped : Bool) (result : List Byte) : Acts W Op s (respond s c clamped result) :=
  .port _ fun _ h => nomatch h.1

theorem Acts.answered {s t : State} (h : Acts W Op s t) (c : Code) (clamped : Bool) (result : List Byte) :
    Acts W Op s (respond t c clamped result) := h.trans (acts_respond t c clamped result)

theorem Moves.answered {s t : State} (h : Moves s t) (c : Code) (clamped : Bool) (result : List Byte) :
    Acts W Op s (respond t c clamped result) := (Acts.moves h).answered c clamped result

/-! ## Requests on the calendar and the tariffs -/

theorem clamp_mem {lo hi n : Nat} (h : lo ≤ hi) : lo ≤ clamp lo hi n ∧ clamp lo hi n ≤ hi := by
  unfold clamp
  split
  · omega
  · split <;> omega

/-- An optional field brought into its range stays in it. -/
theorem getD_clamp_mem {lo hi d : Nat} (h : lo ≤ hi) (hd : lo ≤ d ∧ d ≤ hi) (o : Option Nat) :
    lo ≤ (o.map (clamp lo hi)).getD d ∧ (o.map (clamp lo hi)).getD d ≤ hi := by
  cases o with
  | none => exact hd
  | some n => exact clamp_mem h

theorem getD_clamp_le {hi d : Nat} (hd : d ≤ hi) (o : Option Nat) : (o.map (clamp 0 hi)).getD d ≤ hi :=
  (getD_clamp_mem (Nat.zero_le hi) ⟨Nat.zero_le d, hd⟩ o).2

theorem clampIdleLimit_mem (n : Nat) : clampIdleLimit n = 0 ∨ 4 ≤ clampIdleLimit n ∧ clampIdleLimit n ≤ 255 := by
  unfold clampIdleLimit
  split
  · exact .inl rfl
  · exact .inr (clamp_mem (by decide))

theorem changePolicy_inRange {p : ClassPolicy} (h : PolicyInRange p) (f : PolicyChange) : PolicyInRange (changePolicy f p) := by
  obtain ⟨hq, hg, hi, hw, he, hh⟩ := h
  refine ⟨getD_clamp_le hq _, getD_clamp_le hg _, ?_, getD_clamp_mem (by decide) hw _, getD_clamp_le he _, getD_clamp_le hh _⟩
  cases hf : f.idleLimit with
  | none => simpa [changePolicy, hf] using hi
  | some n => simpa [changePolicy, hf] using clampIdleLimit_mem n

/-- A change of the calendar that keeps its times, and whose policies are those of the two sets or a changed one. -/
theorem acts_calendar {s : State} {f : Calendar → Calendar} (hp : PoliciesInRange s → PoliciesInRange (s.onCal f))
    (ht : ((f s.cal).minute, (f s.cal).second, (f s.cal).view, (f s.cal).prevView) =
      (s.cal.minute, s.cal.second, s.cal.view, s.cal.prevView)) : Acts W Op s (s.onCal f) := by
  simp only [Prod.mk.injEq] at ht
  obtain ⟨hm, hs, hv, hw⟩ := ht
  exact .calendar _ hp (fun h => by simpa [ClockInRange, hm, hs, hv, hw] using h)

/-- A change of the calendar that keeps its times and every policy. -/
theorem acts_calendar_same {s : State} {f : Calendar → Calendar} (ha : (f s.cal).active.policies = s.cal.active.policies)
    (hp : (f s.cal).pendingSet.policies = s.cal.pendingSet.policies)
    (ht : ((f s.cal).minute, (f s.cal).second, (f s.cal).view, (f s.cal).prevView) =
      (s.cal.minute, s.cal.second, s.cal.view, s.cal.prevView)) : Acts W Op s (s.onCal f) := by
  refine acts_calendar (fun h => ?_) ht
  have hc : (s.onCal f).cal = f s.cal := rfl
  simpa [PoliciesInRange, hc, ha, hp] using h

theorem writeRun_policies (t : TariffSet) (first : Nat) (bands : List Nat) : (t.writeRun first bands).policies = t.policies := by
  simp only [TariffSet.writeRun]

theorem acts_writeSchedule (s : State) (first : Nat) (bands : List Nat) : Acts W Op s (writeSchedule s first bands) := by
  unfold writeSchedule
  split
  · have run : Acts W Op s (s.onCal fun c => { c with pendingSet := c.pendingSet.writeRun first bands }) :=
      acts_calendar_same rfl (writeRun_policies _ _ _) rfl
    exact run.answered _ _ _
  · exact acts_respond s _ _ _

theorem acts_writeRates (s : State) (cls : Nat) (rates : List Nat) (w : Nat) : Acts W Op s (writeRates s cls rates w) := by
  unfold writeRates
  split
  · exact acts_respond s _ _ _
  · split
    · exact acts_respond s _ _ _
    · exact (acts_calendar_same rfl rfl rfl).answered _ _ _

theorem acts_writeClass (s : State) (cls : Nat) (f : PolicyChange) : Acts W Op s (writeClass s cls f) := by
  unfold writeClass
  split
  · exact acts_respond s _ _ _
  · rename_i c _
    split
    · exact acts_respond s _ _ _
    · split
      · exact acts_respond s _ _ _
      · refine (acts_calendar (fun ⟨ha, hp⟩ => ⟨ha, fun k => ?_⟩) rfl).answered _ _ _
        have hk : PolicyInRange ((s.cal.pendingSet.policies.set c (changePolicy f (s.cal.pendingSet.policies.get c))).get k) := by
          rw [vector_get_set]
          split
          · exact changePolicy_inRange (hp c) f
          · exact hp k
        exact hk

theorem acts_armTariff (s : State) (action : Nat) : Acts W Op s (armTariff s action) := by
  unfold armTariff
  split
  · exact (acts_calendar_same rfl rfl rfl).answered _ _ _
  · exact (acts_calendar_same rfl rfl rfl).answered _ _ _
  · split
    · exact acts_respond s _ _ _
    · exact (acts_calendar (fun h => ⟨h.1, h.1⟩) rfl).answered _ _ _
  · exact acts_respond s _ _ _

theorem acts_setClock (s : State) (minute second : Nat) : Acts W Op s (setClock s minute second) :=
  (Acts.calendar (s.cal.setClock minute second) id fun h => ⟨⟨Nat.lt_succ_of_le (clamp_mem (Nat.zero_le _)).2,
    Nat.lt_succ_of_le (clamp_mem (Nat.zero_le _)).2⟩, h.2⟩).answered _ _ _

/-! ## Requests on lines, messages, watches and verdicts -/

theorem changeParams_inRange {s : State} (h : ParamsInRange s) (f : LineParamChange) :
    ParamsInRange (s.onLines fun c => { c with params := changeParams f s.lc.params }) := by
  obtain ⟨h1, h2, h3, h4, h5, h6, h7, h8, h9, h10, h11⟩ := h
  exact ⟨getD_clamp_le h1 _, getD_clamp_mem (by decide) h2 _, getD_clamp_le h3 _, getD_clamp_mem (by decide) h4 _,
    getD_clamp_mem (by decide) h5 _, getD_clamp_le h6 _, getD_clamp_mem (by decide) h7 _, getD_clamp_mem (by decide) h8 _,
    getD_clamp_mem (by decide) h9 _, getD_clamp_le h10 _, getD_clamp_le h11 _⟩

theorem acts_setLineParams (s : State) (f : LineParamChange) : Acts W Op s (setLineParams s f) :=
  (Acts.params _ (by
    by_cases h : ParamsInRange s
    · exact .inl (changeParams_inRange h f)
    · exact .inr h)).answered _ _ _

theorem acts_writeMessage (s : State) (m : Nat) (text : List Byte) : Acts W Op s (writeMessage s m text) := by
  unfold writeMessage
  split
  · exact acts_respond s _ _ _
  · exact (Acts.message _ _ (List.length_take_le _ _)).answered _ _ _

theorem acts_onLineRequest {s : State} {line : Nat} {f : LineNo → State} (h : ∀ l, Acts W Op s (f l)) :
    Acts W Op s (onLineRequest s line f) := by
  unfold onLineRequest
  split
  · exact acts_respond s _ _ _
  · exact h _

theorem moves_lineOut (s : State) (l : LineNo) : Moves s (lineOut s l) := by
  have ended : Moves s ((endCall noSecond s l .supervisor false).modLine l (fun r => { r with outOfService := true })) :=
    (moves_endCall _ s l _ _).trans (moves_fields ⟨rfl, rfl, rfl, rfl, rfl⟩)
  unfold lineOut
  split
  · exact .refl s
  · rename_i h
    exact moves_modLine (.of_phases h rfl rfl ⟨rfl, rfl, rfl, rfl⟩)
  · exact ended
  · exact ended
  · exact ended
  · exact moves_fields ⟨rfl, rfl, rfl, rfl, rfl⟩
  · exact moves_fields ⟨rfl, rfl, rfl, rfl, rfl⟩

theorem moves_lineIn (s : State) (l : LineNo) : Moves s (lineIn s l) := by
  unfold lineIn
  split
  · rename_i h
    exact moves_modLine (.of_phases h rfl rfl ⟨rfl, rfl, rfl, rfl⟩)
  · exact .refl s
  all_goals exact moves_fields ⟨rfl, rfl, rfl, rfl, rfl⟩

theorem acts_lineService (s : State) (line d : Nat) : Acts W Op s (lineService s line d) :=
  acts_onLineRequest fun l => by
    split
    · exact (moves_lineOut s l).answered _ _ _
    · exact (moves_lineIn s l).answered _ _ _
    · exact acts_respond s _ _ _

theorem acts_forceEnd (s : State) (line : Nat) : Acts W Op s (forceEnd s line) :=
  acts_onLineRequest fun l => by
    unfold forceEndLine
    split
    · exact (moves_endCall _ s l _ _).answered _ _ _
    · exact (moves_endCall _ s l _ _).answered _ _ _
    · exact (moves_endCall _ s l _ _).answered _ _ _
    · rename_i h
      exact (moves_lines (f := fun c => c.release l) (hush_release h)).answered _ _ _
    all_goals exact acts_respond s _ _ _

theorem acts_readLine (s : State) (line : Nat) : Acts W Op s (readLine s line) :=
  acts_onLineRequest fun _ => (moves_fields ⟨rfl, rfl, rfl, rfl, rfl⟩).answered _ _ _

theorem acts_clearSummary (s : State) (line : Nat) : Acts W Op s (clearSummary s line) :=
  acts_onLineRequest fun _ => (moves_fields ⟨rfl, rfl, rfl, rfl, rfl⟩).answered _ _ _

theorem moves_verdictAdmit {s : State} {l : LineNo} (h : (s.line l).phase = .signon .held) : Moves s (verdictAdmit s l) := by
  unfold verdictAdmit
  refine ((moves_leaveHeld s l).trans (moves_fields (l := l) (f := fun r => { r with verdictGiven := true })
    ⟨rfl, rfl, rfl, rfl, rfl⟩)).trans (moves_handOver (st := .held) ?_ _ _ _)
  simpa using (leaveHeld_phase s l).trans h

theorem acts_verdict (s : State) (line v : Nat) : Acts W Op s (verdict s line v) := by
  have on : ∀ (l : LineNo) (act : State → LineNo → State), ((s.line l).phase = .signon .held → Moves s (act s l)) →
      Acts W Op s (verdictOn s l act) := by
    intro l act h
    unfold verdictOn
    split
    · exact (h (by assumption)).answered _ _ _
    · exact acts_respond s _ _ _
  refine acts_onLineRequest fun l => ?_
  split
  · exact on l _ moves_verdictAdmit
  · exact on l _ fun h => (moves_leaveHeld s l).trans (moves_attemptFailed _ ((leaveHeld_phase s l).trans h) 5)
  · exact acts_respond s _ _ _

theorem moves_modWatch (s : State) (w : WatchNo) (f : Watch → Watch) : Moves s (s.modWatch w f) :=
  moves_unseen { Calm.refl s with } rfl rfl rfl

theorem acts_setWatch (s : State) (w low high kinds action : Nat) : Acts W Op s (setWatch s w low high kinds action) := by
  unfold setWatch
  simp only
  split
  · exact acts_respond s _ _ _
  · exact acts_respond s _ _ _
  · split
    · exact acts_respond s _ _ _
    · split
      · exact acts_respond s _ _ _
      · exact (moves_modWatch s _ _).answered _ _ _

theorem acts_clearWatch (s : State) (w : Nat) : Acts W Op s (clearWatch s w) := by
  unfold clearWatch
  split
  · exact acts_respond s _ _ _
  · exact (moves_modWatch s _ _).answered _ _ _

/-! ## Requests on ports, groups and the attention set -/

theorem acts_onPortRequest {s : State} {port : Nat} {f : PortNo → State} (h : ∀ p, Acts W Op s (f p)) :
    Acts W Op s (onPortRequest s port f) := by
  unfold onPortRequest
  split
  · exact acts_respond s _ _ _
  · exact h _

theorem acts_onGroupRequest {s : State} {group : Nat} {f : GroupNo → State} (h : ∀ g, Acts W Op s (f g)) :
    Acts W Op s (onGroupRequest s group f) := by
  unfold onGroupRequest
  split
  · exact acts_respond s _ _ _
  · exact h _

theorem acts_configurePort (s : State) (port group role : Nat) : Acts W Op s (configurePort s port group role) :=
  acts_onPortRequest fun p => by
    split
    · exact acts_respond s _ _ _
    · exact acts_respond s _ _ _
    · split
      · exact (moves_modPort rfl fun _ => id).answered _ _ _
      · exact acts_respond s _ _ _

/-- A port that is neither CALLING nor IN_USE takes another state. -/
theorem moves_idlePort {s : State} {p : PortNo} {f : PortRec → PortRec} (hl : (f (s.port p)).line = (s.port p).line)
    (hc : (s.port p).state ≠ .calling) (hu : (s.port p).state ≠ .inUse) : Moves s (s.modPort p f) :=
  moves_modPort hl fun _ h => (h.elim hc hu).elim

theorem moves_portOut (s : State) (p : PortNo) : Moves s (portOut s p) := by
  unfold portOut
  split
  · exact .refl s
  · exact moves_idlePort rfl (by simp [*]) (by simp [*])
  · exact moves_idlePort rfl (by simp [*]) (by simp [*])
  · exact moves_idlePort rfl (by simp [*]) (by simp [*])
  · exact moves_failCall _ s p none
  · split
    · exact .refl s
    · exact moves_endCall _ s _ _ _

theorem moves_portIn (s : State) (p : PortNo) : Moves s (portIn s p) := by
  unfold portIn
  split
  · exact moves_portByReady (by simp [*]) (by simp [*])
  all_goals exact .refl s

theorem acts_portService (s : State) (port d : Nat) : Acts W Op s (portService s port d) :=
  acts_onPortRequest fun p => by
    split
    · exact (moves_portOut s p).answered _ _ _
    · exact (moves_portIn s p).answered _ _ _
    · exact acts_respond s _ _ _

theorem acts_returnPort (s : State) (port : Nat) : Acts W Op s (returnPort s port) :=
  acts_onPortRequest fun p => by
    split
    · rename_i h
      have clear : Moves s (s.modPort p (fun x => { x with faultCause := none })) :=
        moves_modPort rfl fun _ => id
      refine (clear.trans (moves_portByReady ?_ ?_)).answered _ _ _ <;> simp [h]
    · exact acts_respond s _ _ _

theorem acts_readPort (s : State) (port : Nat) : Acts W Op s (readPort s port) :=
  acts_onPortRequest fun _ => acts_respond s _ _ _

theorem changeGroup_inRange {x : GroupRec} (h : x.InRange) (f : GroupChange) : (changeGroup f x).InRange := by
  obtain ⟨h1, h2, h3, h4, h5, h6⟩ := h
  exact ⟨getD_clamp_le h1 _, getD_clamp_le h2 _, getD_clamp_le h3 _, getD_clamp_mem (by decide) h4 _, h5, h6⟩

/-- A group's settings or counts change, its queue does not. -/
theorem moves_modGroup {s : State} {g : GroupNo} {f : GroupRec → GroupRec} (h : (s.group g).InRange → (f (s.group g)).InRange)
    (hq : (f (s.group g)).queue = (s.group g).queue) : Moves s (s.modGroup g f) :=
  .quiet (calm_modGroup h)
    { KeysKept.refl s with
      queue := fun k => by
        rw [modGroup_group]
        split
        · subst_vars; rw [hq]
        · rfl }

theorem acts_setGroup (s : State) (group : Nat) (f : GroupChange) : Acts W Op s (setGroup s group f) :=
  acts_onGroupRequest fun g => by
    split
    · exact acts_respond s _ _ _
    · exact (moves_modGroup (f := fun _ => changeGroup f (s.group g)) (fun h => changeGroup_inRange h f) rfl).answered _ _ _

theorem acts_readGroup (s : State) (group : Nat) : Acts W Op s (readGroup s group) :=
  acts_onGroupRequest fun _ => acts_respond s _ _ _

theorem acts_clearCounters (s : State) (group : Nat) : Acts W Op s (clearCounters s group) :=
  acts_onGroupRequest fun _ =>
    (moves_modGroup (fun ⟨h1, h2, h3, h4, _⟩ => ⟨h1, h2, h3, h4, Nat.zero_le _, Nat.zero_le _⟩) rfl).answered _ _ _

theorem take_accounts (a : Attention) : a.take.1.accounts = a.accounts ∨ a.take.1.accounts = a.accounts.tail := by
  unfold Attention.take
  split
  · exact .inl rfl
  · split
    · exact .inl rfl
    · split
      · rename_i h
        exact .inr (by rw [h]; rfl)
      · unfold Attention.takeLate
        split
        · exact .inl rfl
        · split <;> exact .inl rfl

theorem acts_takeAttention (s : State) : Acts W Op s (takeAttention s) :=
  (Acts.attention _ (take_accounts s.attn)).answered _ _ _

/-! ## Frames -/

theorem acts_readSchedule (s : State) (copy first count : Nat) : Acts W Op s (readSchedule s copy first count) := by
  unfold readSchedule
  split
  · exact acts_respond s _ _ _
  · split <;> exact acts_respond s _ _ _

theorem acts_readRates (s : State) (copy cls : Nat) : Acts W Op s (readRates s copy cls) := by
  unfold readRates
  split <;> exact acts_respond s _ _ _

theorem acts_readClass (s : State) (copy cls : Nat) : Acts W Op s (readClass s copy cls) := by
  unfold readClass
  split <;> exact acts_respond s _ _ _

theorem acts_readWatch (s : State) (w : Nat) : Acts W Op s (readWatch s w) := by
  unfold readWatch
  split <;> exact acts_respond s _ _ _

theorem acts_carryOutQuick (s : State) (q : QuickReq) : Acts W Op s (carryOutQuick s q) := by
  cases q with
  | writeSchedule first bands => exact acts_writeSchedule s first bands
  | writeRates cls rates wait => exact acts_writeRates s cls rates wait
  | writeClass cls f => exact acts_writeClass s cls f
  | armTariff action => exact acts_armTariff s action
  | readSchedule copy first count => exact acts_readSchedule s copy first count
  | readRates copy cls => exact acts_readRates s copy cls
  | readClass copy cls => exact acts_readClass s copy cls
  | setClock minute second => exact acts_setClock s minute second
  | readClock => exact acts_respond s _ _ _
  | setLineParams f => exact acts_setLineParams s f
  | lineService line direction => exact acts_lineService s line direction
  | forceEnd line => exact acts_forceEnd s line
  | readLine line => exact acts_readLine s line
  | clearSummary line => exact acts_clearSummary s line
  | writeMessage message text => exact acts_writeMessage s message text
  | configurePort port group role => exact acts_configurePort s port group role
  | portService port direction => exact acts_portService s port direction
  | returnPort port => exact acts_returnPort s port
  | setGroup group f => exact acts_setGroup s group f
  | readPort port => exact acts_readPort s port
  | readGroup group => exact acts_readGroup s group
  | clearCounters group => exact acts_clearCounters s group
  | setWatch watch low high kinds action => exact acts_setWatch s watch low high kinds action
  | clearWatch watch => exact acts_clearWatch s watch
  | readWatch watch => exact acts_readWatch s watch
  | verdict line v => exact acts_verdict s line v
  | takeAttention => exact acts_takeAttention s
  | describe => exact acts_respond s _ _ _

theorem acts_acceptStore (s : State) {r : StoreReq} (h : W → requestFits r) : Acts W Op s (acceptStore s r) := by
  unfold acceptStore
  split
  · exact acts_respond s _ _ _
  · exact .wait r h

/-- What a frame asks fits its fields, if it asks for a store request. -/
def CarriesFits (r : Request) : Prop := ∀ q, r = .store q → requestFits q

theorem acts_carryOut (s : State) {r : Request} (h : W → CarriesFits r) : Acts W Op s (carryOut s r) := by
  cases r with
  | store q => exact acts_acceptStore s fun w => h w q rfl
  | quick q => exact acts_carryOutQuick s q

theorem acts_onFrame (s : State) {act : State → State} (h : ∀ t, Acts W Op t (act t)) : Acts W Op s (onFrame s act) := by
  unfold onFrame
  split
  · exact .port _ id
  · exact (Acts.port s.sup.accepted fun _ h => nomatch h.2).trans (h _)

theorem acts_submit (s : State) {r : Request} (h : W → CarriesFits r) : Acts W Op s (submit s r) := by
  refine acts_onFrame s fun t => ?_
  unfold checkAndCarryOut
  split
  · exact acts_carryOut t h
  · exact acts_respond t _ _ _

/-- A request other than CHANGE_ACCOUNT fits its frame. -/
theorem acts_submit_other (s : State) {r : Request} (h : ∀ n f, r ≠ .store (.change n f)) : Acts W Op s (submit s r) :=
  acts_submit s fun _ q hq => by
    cases q with
    | change n f => exact absurd hq (h n f)
    | _ => trivial

theorem beNat_lt (bs : List Byte) : beNat bs < 256 ^ bs.length := by
  have fold : ∀ (bs : List Byte) (n : Nat), bs.foldl (fun n b => n * 256 + b.toNat) n < (n + 1) * 256 ^ bs.length := by
    intro bs
    induction bs with
    | nil => intro n; simp
    | cons b bs ih =>
      intro n
      have hb : n * 256 + b.toNat + 1 ≤ (n + 1) * 256 := by have := b.isLt; omega
      calc (b :: bs).foldl (fun n b => n * 256 + b.toNat) n < (n * 256 + b.toNat + 1) * 256 ^ bs.length := ih _
        _ ≤ (n + 1) * 256 * 256 ^ bs.length := Nat.mul_le_mul_right _ hb
        _ = (n + 1) * 256 ^ (b :: bs).length := by rw [List.length_cons, pow_succ, Nat.mul_assoc, Nat.mul_comm 256]
  simpa [beNat] using fold bs 0

/-- A field of an optional list is below the bound of its size. -/
theorem presentFields_lt {sizes : List Nat} {presence : Nat} {bs : List Byte} {fs : List (Option Nat)}
    (h : presentFields sizes presence bs = some fs) {k n : Nat} (hn : optField fs k = some n) : n < 256 ^ (sizes.getD k 0) := by
  induction sizes generalizing presence bs fs k with
  | nil => 
    unfold presentFields at h
    split at h
    · cases h; simp [optField] at hn
    · cases h
  | cons a as ih =>
    unfold presentFields at h
    split at h
    · split at h
      · cases h
      · obtain ⟨gs, hg, rfl⟩ := Option.map_eq_some_iff.1 h
        cases k with
        | zero =>
          obtain rfl : beNat (bs.take a) = n := by simpa [optField] using hn
          have := beNat_lt (bs.take a)
          rw [List.length_take, Nat.min_eq_left (by omega)] at this
          exact this
        | succ k => exact ih hg (k := k) (by simpa [optField] using hn)
    · obtain ⟨gs, hg, rfl⟩ := Option.map_eq_some_iff.1 h
      cases k with
      | zero => simp [optField] at hn
      | succ k => exact ih hg (k := k) (by simpa [optField] using hn)

/-! ## What frames carry -/

theorem parseAccount_some {bs : List Byte} {f : Nat → StoreReq} {r : Request} (h : parseAccount bs f = some r) :
    ∃ n, r = .store (f n) := by
  unfold parseAccount at h
  split at h
  · exact ⟨_, (Option.some.inj h).symm⟩
  · cases h

theorem parseStore_fits {code : Nat} {bs : List Byte} {r : Request} (h : parseStore code bs = some r) : CarriesFits r := by
  have plain : ∀ q : StoreReq, requestFits q → CarriesFits (.store q) := by
    rintro q hq _ ⟨⟩
    exact hq
  have named : ∀ {f : Nat → StoreReq}, parseAccount bs f = some r → (∀ n, requestFits (f n)) → CarriesFits r := by
    intro f hp hf
    obtain ⟨n, rfl⟩ := parseAccount_some hp
    exact plain _ (hf n)
  have bare : ∀ {q : StoreReq}, parseNone bs (.store q) = some r → requestFits q → CarriesFits r := by
    intro q hp hq
    unfold parseNone at hp
    split at hp
    · cases hp; exact plain _ hq
    · cases hp
  unfold parseStore at h
  split at h
  case h_4 =>
    split at h
    · cases h
    · obtain ⟨fs, hfs, rfl⟩ := Option.map_eq_some_iff.1 h
      rintro _ ⟨⟩ n hn
      have := presentFields_lt hfs (k := 4) hn
      exact Nat.le_of_lt_succ this
  case h_7 => exact named h fun _ => trivial
  case h_8 => exact named h fun _ => trivial
  case h_10 => exact named h fun _ => trivial
  case h_12 => exact named h fun _ => trivial
  case h_13 => exact bare h trivial
  case h_14 => exact named h fun _ => trivial
  case h_15 => exact bare h trivial
  case h_16 => cases h
  all_goals
    split at h
    · cases h; exact plain _ trivial
    · cases h

/-- A request that completes at once. -/
def IsQuick (r : Option Request) : Prop := ∀ q, r ≠ some (.store q)

theorem parseByte_quick (bs : List Byte) (f : Nat → QuickReq) : IsQuick (parseByte bs f) := by
  unfold parseByte
  split <;> nofun

theorem parseTwo_quick (bs : List Byte) (f : Nat → Nat → QuickReq) : IsQuick (parseTwo bs f) := by
  unfold parseTwo
  split <;> nofun

theorem parseNone_quick (bs : List Byte) (q : QuickReq) : IsQuick (parseNone bs (.quick q)) := by
  unfold parseNone
  split <;> nofun

theorem map_quick {α : Type} (o : Option α) (f : α → QuickReq) : IsQuick (o.map fun x => .quick (f x)) := by
  cases o <;> nofun

theorem parseTariff_quick (code : Nat) (bs : List Byte) : IsQuick (parseTariff code bs) := by
  unfold parseTariff
  split
  · split <;> nofun
  · split <;> nofun
  · split
    · nofun
    · exact map_quick _ _
  · exact parseByte_quick _ _
  · split
    · split <;> nofun
    · nofun
  · split <;> nofun
  · exact parseNone_quick _ _
  · nofun

theorem parseLine_quick (code : Nat) (bs : List Byte) : IsQuick (parseLine code bs) := by
  unfold parseLine
  split
  · split
    · nofun
    · exact map_quick _ _
  · exact parseTwo_quick _ _
  · exact parseByte_quick _ _
  · exact parseByte_quick _ _
  · exact parseByte_quick _ _
  · split <;> nofun
  · nofun

theorem parsePort_quick (code : Nat) (bs : List Byte) : IsQuick (parsePort code bs) := by
  unfold parsePort
  split
  · split <;> nofun
  · exact parseTwo_quick _ _
  · exact parseByte_quick _ _
  · split
    · nofun
    · exact map_quick _ _
  · exact parseByte_quick _ _
  · exact parseByte_quick _ _
  · exact parseByte_quick _ _
  · nofun

theorem parseWatch_quick (code : Nat) (bs : List Byte) : IsQuick (parseWatch code bs) := by
  unfold parseWatch
  split
  · split <;> nofun
  · exact parseByte_quick _ _
  · exact parseByte_quick _ _
  · exact parseTwo_quick _ _
  · exact parseNone_quick _ _
  · exact parseNone_quick _ _
  · nofun

/-- Every request a frame can carry fits: the low threshold of CHANGE_ACCOUNT has two bytes. -/
theorem parseRequest_fits {code : Nat} {bs : List Byte} {r : Request} (h : parseRequest code bs = some r) : CarriesFits r := by
  simp only [parseRequest, Option.or_eq_some_iff] at h
  rintro q rfl
  rcases h with (((h | ⟨_, h⟩) | ⟨_, h⟩) | ⟨_, h⟩) | ⟨_, h⟩
  · exact parseStore_fits h q rfl
  · exact absurd h (parseTariff_quick code bs q)
  · exact absurd h (parseLine_quick code bs q)
  · exact absurd h (parsePort_quick code bs q)
  · exact absurd h (parseWatch_quick code bs q)

theorem acts_takeFrame (s : State) (code n : Nat) (bs : List Byte) : Acts W Op s (takeFrame s code n bs) := by
  refine acts_onFrame s fun t => ?_
  unfold carryOutFrame
  split
  · split
    · exact acts_respond t _ _ _
    · split
      · rename_i h
        exact acts_carryOut t fun _ => parseRequest_fits h
      · exact acts_respond t _ _ _
  · exact acts_respond t _ _ _

theorem acts_writeStrobe (s : State) (b : Byte) : Acts W Op s (writeStrobe s b) := by
  have stored : Acts W Op s (storeByte s b) := .port _ id
  unfold writeStrobe
  simp only
  split
  · split
    · exact stored.trans (acts_takeFrame _ _ _ _)
    · exact stored
  · exact stored

theorem acts_readStrobe (s : State) : Acts W Op s { s with sup := readStrobe s.sup } := by
  refine .port _ fun h k => h ?_
  unfold readStrobe at k
  split at k
  · rename_i hr
    exact ⟨k.1, hr⟩
  · exact k

/-! ## Every command -/

theorem acts_lineEvent {n : Nat} {s : State} {f : State → LineNo → State} (h : ∀ l, Acts W Op s (f s l)) :
    Acts W Op s (lineEvent n s f) := by
  unfold lineEvent
  split
  · exact .refl s
  · exact h _

theorem acts_ring (s : State) (l : LineNo) : Acts W Op s (ring s l) := by
  unfold ring
  split
  · rename_i h
    exact .answer h.1
  · exact .refl s

theorem advance_inRange {c : Calendar} (h : c.minute < Config.weekMinutes ∧ c.second < 60) :
    c.advance.minute < Config.weekMinutes ∧ c.advance.second < 60 := by
  unfold Calendar.advance
  split
  · exact ⟨h.1, by simpa using by omega⟩
  · refine ⟨?_, Nat.zero_lt_succ _⟩
    simp only
    split
    · assumption
    · decide

theorem advance_sets (c : Calendar) :
    c.advance.active = c.active ∧ c.advance.pendingSet = c.pendingSet ∧ c.advance.view = c.view := by
  unfold Calendar.advance
  split <;> exact ⟨rfl, rfl, rfl⟩

/-- The calendar's part of a second event keeps its laws: the swap makes PENDING ACTIVE (R118), the views take the time (R117). -/
theorem acts_latchSecond (s : State) : Acts W Op s (latchSecond s) := by
  obtain ⟨ha, hp, hw⟩ := advance_sets s.cal
  refine .calendar _ (fun h => ?_) fun ⟨ht, hv, _⟩ => ?_
  · have swapped : ∀ c, PolicyInRange (s.cal.advance.pendingSet.policies.get c) := hp ▸ h.2
    have kept : ∀ c, PolicyInRange (s.cal.advance.active.policies.get c) := ha ▸ h.1
    unfold Calendar.secondEvent
    split
    · exact ⟨swapped, swapped⟩
    · exact ⟨kept, swapped⟩
  · have adv := advance_inRange ht
    rw [← hw] at hv
    unfold Calendar.secondEvent
    split
    · exact ⟨adv, adv, hv⟩
    · exact ⟨adv, adv, hv⟩

/-- The completions a command stands for: its own, or a moment of a second event (R138). -/
def Completes (i : Instr) (writes : List WriteOutcome) : Prop :=
  i = .storeOperationComplete writes ∨ ∃ order, i = .secondEvent order ∧ .storeOperationComplete writes ∈ order.moments

theorem acts_takeMoments (hr : ∀ s, Op s (rotationChoice s)) (v : View) {ms : List SecondMoment}
    (hc : ∀ s w, .storeOperationComplete w ∈ ms → Op s (storeOperationComplete s w)) (owed : List LineNo) (s : State) :
    Acts W Op s (takeMoments v owed ms s) := by
  induction ms generalizing owed s with
  | nil => exact .moves (moves_meterSteps v owed s)
  | cons m ms ih =>
    have first : Acts W Op s (takeMoment v owed s m) := by
      cases m with
      | step l =>
        simp only [takeMoment]
        split
        · exact .moves (moves_meterStep _ v s l)
        · exact .refl s
      | expiry x =>
        simp only [takeMoment]
        split
        · exact .moves (moves_takeExpiry _ s x)
        · exact .refl s
      | rotationChoice => exact .op (hr s)
      | storeOperationComplete w => exact .op (hc s w List.mem_cons_self)
    exact first.trans (ih (fun s w h => hc s w (List.mem_cons_of_mem _ h)) _ _)

theorem acts_secondEvent (hr : ∀ s, Op s (rotationChoice s)) {order : SecondOrder}
    (hc : ∀ s w, .storeOperationComplete w ∈ order.moments → Op s (storeOperationComplete s w)) (s : State) :
    Acts W Op s (secondEvent order s) := by
  have early : Moves s (takeEarly order.early (tickTimers (takeOverdue s))) :=
    ((moves_takeOverdue s).trans (moves_tickTimers _)).trans (moves_takeEarly _ _)
  have counted : ∀ t, Moves t (countCongestion (allLines.foldl countIdle t)) := fun t =>
    (Moves.foldl moves_countIdle _ t).trans (moves_countCongestion _)
  have edge : ∀ t, Moves t (takeBandEdge (order.beforeEdge.foldl (takeExpiry noSecond) t)) := fun t =>
    (Moves.foldl (moves_takeExpiry noSecond) _ t).trans (moves_takeBandEdge _)
  have before := ((Acts.moves (W := W) (Op := Op) early).trans (acts_latchSecond _)).trans (.moves (counted _))
  have whole := fun v owed => (before.trans (acts_takeMoments hr v hc owed _)).trans (.moves (edge _))
  unfold secondEvent
  simp only
  split
  · exact (whole _ _).trans (.moves (moves_minuteEvent _))
  · exact whole _ _

/-- What every command but a power-on reset can do. -/
theorem exec_acts {i : Instr} {s t : State} (h : exec i s = .next t) (hi : ∀ d m, i ≠ .powerOnReset d m)
    (hw : W → i.wellFormed = true) (hr : ∀ s, Op s (rotationChoice s))
    (hc : ∀ s w, Completes i w → Op s (storeOperationComplete s w)) : Acts W Op s t := by
  have sub : ∀ {r : Request}, (.next (submit s r) : Host.Outcome State Fault Refusal) = .next t → (∀ n f, r ≠ .store (.change n f)) → Acts W Op s t := by
    rintro r ⟨⟩ hq
    exact acts_submit_other s hq
  have exp : ∀ {x : Expiry}, (.next (takeExpiry noSecond s x) : Host.Outcome State Fault Refusal) = .next t → Acts W Op s t := by
    rintro x ⟨⟩
    exact .moves (moves_takeExpiry _ s x)
  have mov : ∀ {u : State}, (.next u : Host.Outcome State Fault Refusal) = .next t → Moves s u → Acts W Op s t := by
    rintro u ⟨⟩ hu
    exact .moves hu
  cases i with
  | powerOnReset d m => exact absurd rfl (hi d m)
  | secondEvent order =>
    cases h
    exact acts_secondEvent hr (fun s w hm => hc s w (.inr ⟨order, rfl, hm⟩)) s
  | answerLimitExpiry l => exact exp h
  | signonLimitExpiry l => exact exp h
  | holdTimerExpiry l => exact exp h
  | selectionLimitExpiry l => exact exp h
  | waitLimitExpiry l => exact exp h
  | escapeLimitExpiry l => exact exp h
  | closingLimitExpiry l => exact exp h
  | guardTimeExpiry l => exact exp h
  | carrierHoldExpiry l => exact exp h
  | idleWarningExpiry l => exact exp h
  | exhaustionCountdownExpiry l => exact exp h
  | hoursCountdownExpiry l => exact exp h
  | callTimerExpiry p => exact exp h
  | lineCommandTimeout => exact mov h (moves_lineCommandWithdrawn s)
  | portCommandTimeout => exact mov h (moves_portCommandDone s)
  | ring n => cases h; exact acts_lineEvent fun l => acts_ring s l
  | carrierOn n => cases h; exact acts_lineEvent fun l => .moves (moves_carrierOn s l)
  | carrierOff n => cases h; exact acts_lineEvent fun l => .moves (moves_carrierOff s l)
  | lineRxChar n c => cases h; exact acts_lineEvent (f := fun s l => lineRxChar s l c) fun l => .moves (moves_lineRxChar s l c)
  | rxBreak n => cases h; exact acts_lineEvent fun l => .moves (moves_rxBreak s l)
  | txDone n => cases h; exact acts_lineEvent fun l => .moves (moves_txDone s l)
  | lineCommandAccepted => exact mov h (moves_lineCommandDone s)
  | hostReadyOn p => exact mov h (moves_hostReadyOn s p)
  | hostReadyOff p => exact mov h (moves_hostReadyOff s p)
  | accept p => exact mov h (moves_acceptPort s p)
  | portRxChar p c => exact mov h (moves_portRxChar s p c)
  | hostDisconnect p => exact mov h (moves_hostDisconnect s p)
  | portCommandAccepted => exact mov h (moves_portCommandDone s)
  | rotationChoice => cases h; exact .op (hr s)
  | storeOperationComplete w => cases h; exact .op (hc s w (.inl rfl))
  | frameRejected code params => cases h; exact acts_takeFrame s _ _ _
  | unknownRequest code params => cases h; exact acts_takeFrame s _ _ _
  | supervisorWriteStrobe b => cases h; exact acts_writeStrobe s b
  | responseRead => cases h; exact acts_readStrobe s
  | changeAccount n f =>
    cases h
    refine acts_submit s fun w => ?_
    rintro _ ⟨⟩ m hm
    have all := hw w
    simp only [Instr.wellFormed, AccountChange.wellFormed, Bool.and_eq_true, hm] at all
    obtain ⟨_, ⟨_, fits⟩, _⟩ := all
    simpa [optFits16, fits16, Nat.lt_succ_iff] using fits
  | attachStore _ _ | addAccount _ | setPassword _ _ | grant _ _ | revoke _ _ | forgive _ | readAccount _ | readSlots _ _
  | readAndClearTotals _ | replaceSlot _ _ | retire _ | flush | discardOpen _ | restart | writeSchedule _ _ | writeRates _ _ _
  | writeClass _ _ | arm | cancel | revert | readTariffSchedule _ _ _ | readTariffRates _ _ | readTariffClass _ _ | setClock _ _
  | readClock | setLineParameters _ | lineServiceOut _ | lineServiceIn _ | forceEnd _ | readLine _ | clearSummary _
  | writeMessage _ _ | configurePort _ _ _ | portServiceOut _ | portServiceIn _ | returnPort _ | setGroup _ _ | readPort _
  | readGroup _ | clearCounters _ | setWatch _ _ _ _ _ | clearWatch _ | readWatch _ | verdictAdmit _ | verdictRefuse _
  | takeAttention | describe => exact sub h (fun _ _ h => nomatch h)

end

end Sys2Proof.Machine
end


/-! # The account slot image -/

section
namespace Sys2Proof.Machine

/-! ## Numbers in bytes -/

theorem beNat_cons (b : Byte) (bs : List Byte) : beNat (b :: bs) = b.toNat * 256 ^ bs.length + beNat bs := by
  have fold : ∀ (bs : List Byte) (n : Nat), bs.foldl (fun n b => n * 256 + b.toNat) n =
      n * 256 ^ bs.length + bs.foldl (fun n b => n * 256 + b.toNat) 0 := by
    intro bs
    induction bs with
    | nil => simp
    | cons b bs ih =>
      intro n
      rw [List.foldl_cons, List.foldl_cons, ih, ih (0 * 256 + b.toNat), List.length_cons, pow_succ]
      ring
  simpa [beNat] using fold bs b.toNat

theorem beNat_beBytes (k n : Nat) : beNat (beBytes k n) = n % 256 ^ k := by
  induction k with
  | zero => simp [beBytes, beNat, Nat.mod_one]
  | succ k ih =>
    have hb : (BitVec.ofNat 8 (n / 256 ^ k)).toNat = n / 256 ^ k % 256 := by simp
    rw [beBytes, beNat_cons, ih, hb, Sys2Proof.Laws.Fits.length_beBytes, pow_succ, Nat.mod_mul, Nat.mul_comm, Nat.add_comm]

theorem beNat_beBytes_of_lt {k n : Nat} (h : n < 256 ^ k) : beNat (beBytes k n) = n := by
  rw [beNat_beBytes, Nat.mod_eq_of_lt h]

/-- The low bytes of a number do not see what stands above them. -/
theorem beBytes_add_mul (k n m : Nat) : beBytes k (m * 256 ^ k + n) = beBytes k n := by
  induction k generalizing m with
  | zero => rfl
  | succ k ih =>
    have hp : m * 256 ^ (k + 1) = 256 ^ k * (m * 256) := by rw [pow_succ]; ring
    have hq : m * 256 ^ (k + 1) + n = (m * 256) * 256 ^ k + n := by rw [pow_succ]; ring
    rw [beBytes, beBytes, hq, ih, Nat.mul_comm, Nat.mul_add_div (by positivity)]
    congr 1
    apply BitVec.eq_of_toNat_eq
    simp [Nat.add_mod]

theorem beBytes_beNat (bs : List Byte) : beBytes bs.length (beNat bs) = bs := by
  induction bs with
  | nil => rfl
  | cons b bs ih =>
    rw [List.length_cons, beBytes, beNat_cons, beBytes_add_mul, ih]
    congr 1
    rw [Nat.mul_comm, Nat.mul_add_div (by positivity), Nat.div_eq_of_lt (beNat_lt bs)]
    simp

/-! ## Codes -/

theorem statusOf_statusByte (s : Status) : statusOf? (statusByte s).toNat = some s := by cases s <;> rfl

theorem statusByte_of {n : Nat} {s : Status} (h : statusOf? n = some s) : (statusByte s).toNat = n := by
  unfold statusOf? at h
  split at h <;> cases h <;> rfl

theorem fin4_val (c : Fin 4) : fin4? c.val = some c := by simp [fin4?]

theorem fin4_eq {n : Nat} {c : Fin 4} (h : fin4? n = some c) : c.val = n := by
  unfold fin4? at h
  split at h <;> cases h
  rfl

theorem optGroup_groupNumber (g : Option GroupNo) : optGroup? (groupNumber g) = some g := by
  cases g with
  | none => rfl
  | some g =>
    have := g.isLt
    simp [optGroup?, groupNumber, groupNo?, show g.val + 1 ≤ 6 by omega]

theorem groupNumber_of {n : Nat} {g : Option GroupNo} (h : optGroup? n = some g) : groupNumber g = n := by
  unfold optGroup? at h
  split at h
  · cases h; exact (by assumption : n = 0).symm
  · obtain ⟨k, hk, rfl⟩ := Option.map_eq_some_iff.1 h
    unfold groupNo? at hk
    split at hk <;> cases hk
    simp [groupNumber]
    omega

/-! ## The image of an account in range decodes to it -/

theorem vector_four (v : Vector Nat 4) : v = #v[v.get 0, v.get 1, v.get 2, v.get 3] := by
  ext i hi
  match i, hi with
  | 0, _ => rfl
  | 1, _ => rfl
  | 2, _ => rfl
  | 3, _ => rfl

theorem byteSum_append (xs ys : List Byte) : byteSum (xs ++ ys) = byteSum xs + byteSum ys := by
  have fold : ∀ (ys : List Byte) (x : Byte), ys.foldl (· + ·) x = x + ys.foldl (· + ·) 0 := by
    intro ys
    induction ys with
    | nil => simp
    | cons y ys ih =>
      intro x
      rw [List.foldl_cons, List.foldl_cons, ih, ih (0 + y)]
      simp [BitVec.add_assoc]
  rw [byteSum, List.foldl_append, fold]
  rfl

theorem byteSum_withCheck (bs : List Byte) : byteSum (withCheck bs) = 0 := by
  rw [withCheck, byteSum_append]
  simp [byteSum]

/-- The three bytes of a last sign-on (R3). -/
def signOnBytes (last : Option (Nat × LineNo)) : List Byte :=
  match last with
  | none => [0, 0, 0xFF]
  | some (m, l) => beBytes 2 m ++ [BitVec.ofNat 8 l.val]

theorem accountBytes_eq (a : Account) : accountBytes a =
    [BitVec.ofNat 8 (a.sessionLimit * 16 + a.cls.val), BitVec.ofNat 8 (groupNumber a.defaultGroup * 16 + a.failedCount),
      a.permitted.setWidth 8] ++ beBytes 3 a.password ++ beBytes 3 a.allotment ++ beBytes 2 a.overdraft ++
      beBytes 2 a.lowThreshold ++ (beBytes 3 (a.bandTotals.get 0) ++ beBytes 3 (a.bandTotals.get 1) ++
      beBytes 3 (a.bandTotals.get 2) ++ beBytes 3 (a.bandTotals.get 3) ++ beBytes 3 a.waitTotal) ++
      beBytes 3 a.connectSeconds ++ signOnBytes a.lastSignOn := by
  have totals : a.totals.flatMap (beBytes 3) = beBytes 3 (a.bandTotals.get 0) ++ beBytes 3 (a.bandTotals.get 1) ++
      beBytes 3 (a.bandTotals.get 2) ++ beBytes 3 (a.bandTotals.get 3) ++ beBytes 3 a.waitTotal := by
    rw [Account.totals, vector_four a.bandTotals]
    rfl
  rw [← totals]
  rfl

theorem length_signOnBytes (last : Option (Nat × LineNo)) : (signOnBytes last).length = 3 := by
  rcases last with _ | ⟨m, l⟩ <;> rfl

theorem length_accountBytes (a : Account) : (accountBytes a).length = 34 := by
  simp [accountBytes_eq, length_signOnBytes]

theorem length_slotImage {number : List Byte} (h : number.length = 3) (state : Byte) (a : Account) :
    (slotImage state number a).length = 40 := by
  simp [slotImage, withCheck, length_accountBytes, h]

theorem length_encodeSlot (state : SlotState) (n : Nat) (a : Account) : (encodeSlot state n a).length = 40 :=
  length_slotImage rfl _ a

theorem toNat_byte {n : Nat} (h : n < 256) : (BitVec.ofNat 8 n).toNat = n := by
  rw [BitVec.toNat_ofNat, Nat.mod_eq_of_lt h]

/-- The bytes of a last sign-on in range are read back. -/
theorem lastSignOn_signOnBytes {last : Option (Nat × LineNo)} (h : ∀ m l, last = some (m, l) → m < Config.weekMinutes) :
    lastSignOnOf? (beNat ((signOnBytes last).take 2)) ((signOnBytes last).getD 2 0).toNat = some last := by
  rcases last with _ | ⟨m, l⟩
  · simp [signOnBytes, lastSignOnOf?, beNat]
  · have hm : m < 10080 := h m l rfl
    have hl : l.val < 96 := l.isLt
    have two : (signOnBytes (some (m, l))).take 2 = beBytes 2 m := rfl
    have third : (signOnBytes (some (m, l))).getD 2 0 = BitVec.ofNat 8 l.val := rfl
    simp only [two, third, beNat_beBytes_of_lt (show m < 256 ^ 2 by omega), toNat_byte (show l.val < 256 by omega)]
    unfold lastSignOnOf? lineNo?
    simp only [hm, hl, if_true, dite_true, Option.map_some]
    exact if_neg (by omega)

/-- The fields of the image of an account in range are the account's. -/
theorem imageFields_slotImage {n : Nat} {a : Account} (hn : 1 ≤ n ∧ n ≤ maxAccount) (h : AccountInRange a) (state : Byte) :
    imageFields? (slotImage state (beBytes 3 n) a) = some (n, a) := by
  obtain ⟨status, cls, limit, permitted, group, password, failed, allotment, overdraft, low, bands, wait, seconds, last⟩ := a
  obtain ⟨⟨hl1, hl4⟩, hpw, hf, hal, hod, hlow, hb, hw, hs, hls⟩ := h
  simp only [max24, maxAccount] at *
  have hc := cls.isLt
  have hg : groupNumber group ≤ 6 := by
    cases group with
    | none => exact Nat.zero_le _
    | some g => exact g.isLt
  have hp : permitted.toNat < 64 := permitted.isLt
  have three : ∀ {x : Nat}, x ≤ 16777215 → beNat (beBytes 3 x) = x := fun hx => beNat_beBytes_of_lt (by omega)
  have two : ∀ {x : Nat}, x ≤ 65535 → beNat (beBytes 2 x) = x := fun hx => beNat_beBytes_of_lt (by omega)
  generalize hB : slotImage state (beBytes 3 n) _ = b
  simp only [slotImage, withCheck, accountBytes_eq] at hB
  have f1 : imageByte b 1 = (statusByte status).toNat := by rw [← hB]; rfl
  have f2 : imageNat b 2 3 = n := (by rw [← hB]; rfl : imageNat b 2 3 = beNat (beBytes 3 n)).trans (three (by omega))
  have f5 : imageByte b 5 = limit * 16 + cls.val :=
    (by rw [← hB]; rfl : imageByte b 5 = (BitVec.ofNat 8 (limit * 16 + cls.val)).toNat).trans (toNat_byte (by omega))
  have f6 : imageByte b 6 = groupNumber group * 16 + failed :=
    (by rw [← hB]; rfl : imageByte b 6 = (BitVec.ofNat 8 (groupNumber group * 16 + failed)).toNat).trans (toNat_byte (by omega))
  have f7 : imageByte b 7 = permitted.toNat :=
    (by rw [← hB]; rfl : imageByte b 7 = (permitted.setWidth 8).toNat).trans (by simp; omega)
  have f8 : imageNat b 8 3 = password := (by rw [← hB]; rfl : _ = beNat (beBytes 3 password)).trans (three hpw)
  have f11 : imageNat b 11 3 = allotment := (by rw [← hB]; rfl : _ = beNat (beBytes 3 allotment)).trans (three hal)
  have f14 : imageNat b 14 2 = overdraft := (by rw [← hB]; rfl : _ = beNat (beBytes 2 overdraft)).trans (two hod)
  have f16 : imageNat b 16 2 = low := (by rw [← hB]; rfl : _ = beNat (beBytes 2 low)).trans (two hlow)
  have f18 : imageNat b 18 3 = bands.get 0 := (by rw [← hB]; rfl : _ = beNat (beBytes 3 (bands.get 0))).trans (three (hb 0))
  have f21 : imageNat b 21 3 = bands.get 1 := (by rw [← hB]; rfl : _ = beNat (beBytes 3 (bands.get 1))).trans (three (hb 1))
  have f24 : imageNat b 24 3 = bands.get 2 := (by rw [← hB]; rfl : _ = beNat (beBytes 3 (bands.get 2))).trans (three (hb 2))
  have f27 : imageNat b 27 3 = bands.get 3 := (by rw [← hB]; rfl : _ = beNat (beBytes 3 (bands.get 3))).trans (three (hb 3))
  have f30 : imageNat b 30 3 = wait := (by rw [← hB]; rfl : _ = beNat (beBytes 3 wait)).trans (three hw)
  have f33 : imageNat b 33 3 = seconds := (by rw [← hB]; rfl : _ = beNat (beBytes 3 seconds)).trans (three hs)
  have f36 : imageNat b 36 2 = beNat ((signOnBytes last).take 2) := by rw [← hB]; rcases last with _ | ⟨m, l⟩ <;> rfl
  have f38 : imageByte b 38 = ((signOnBytes last).getD 2 0).toNat := by rw [← hB]; rcases last with _ | ⟨m, l⟩ <;> rfl
  have g1 : (limit * 16 + cls.val) % 16 = cls.val := by omega
  have g2 : (groupNumber group * 16 + failed) / 16 = groupNumber group := by omega
  have g3 : (groupNumber group * 16 + failed) % 16 = failed := by omega
  have g4 : (limit * 16 + cls.val) / 16 = limit := by omega
  simp only [imageFields?, f1, f2, f5, f6, f7, f8, f11, f14, f16, f18, f21, f24, f27, f30, f33, f36, f38, g1, g2, g3, g4,
    statusOf_statusByte, fin4_val, optGroup_groupNumber, lastSignOn_signOnBytes hls, ← vector_four]
  simp [maxAccount, hn, hl1, hl4, hp]

theorem imageView_inUse_iff {b : List Byte} {n : Nat} {a : Account} :
    imageView b = .inUse n a ↔ imageByte b 0 = 1 ∧ imageFields? b = some (n, a) := by
  unfold imageView
  split
  · simp [*]
  · split <;> simp [*]
  · split <;> simp [*]
  · rename_i h1 h2
    exact ⟨nofun, fun h => by simp_all⟩

theorem imageView_vacated_iff {b : List Byte} {n : Nat} {a : Account} :
    imageView b = .vacated n a ↔ imageByte b 0 = 2 ∧ imageFields? b = some (n, a) := by
  unfold imageView
  split
  · simp [*]
  · split <;> simp [*]
  · split <;> simp [*]
  · rename_i h1 h2
    exact ⟨nofun, fun h => by simp_all⟩

theorem decodeSlot_inUse_iff {b : List Byte} {n : Nat} {a : Account} :
    decodeSlot b = .inUse n a ↔ byteSum b = 0 ∧ imageByte b 0 = 1 ∧ imageFields? b = some (n, a) := by
  unfold decodeSlot
  split
  · simp [*, imageView_inUse_iff]
  · exact ⟨nofun, fun h => absurd h.1 (by assumption)⟩

theorem decodeSlot_vacated_iff {b : List Byte} {n : Nat} {a : Account} :
    decodeSlot b = .vacated n a ↔ byteSum b = 0 ∧ imageByte b 0 = 2 ∧ imageFields? b = some (n, a) := by
  unfold decodeSlot
  split
  · simp [*, imageView_vacated_iff]
  · exact ⟨nofun, fun h => absurd h.1 (by assumption)⟩

theorem decode_encode_inUse {n : Nat} {a : Account} (hn : 1 ≤ n ∧ n ≤ maxAccount) (h : AccountInRange a) :
    decodeSlot (encodeSlot .inUse n a) = .inUse n a :=
  decodeSlot_inUse_iff.2 ⟨byteSum_withCheck _, rfl, imageFields_slotImage hn h _⟩

theorem decode_encode_vacated {n : Nat} {a : Account} (hn : 1 ≤ n ∧ n ≤ maxAccount) (h : AccountInRange a) :
    decodeSlot (encodeSlot .vacated n a) = .vacated n a :=
  decodeSlot_vacated_iff.2 ⟨byteSum_withCheck _, rfl, imageFields_slotImage hn h _⟩

/-! ## A sound image is the image of the account it decodes to -/

/-- The bytes of a part of an image. -/
def slice (b : List Byte) (i k : Nat) : List Byte := (b.drop i).take k

theorem slice_add (b : List Byte) (i j k : Nat) : slice b i (j + k) = slice b i j ++ slice b (i + j) k := by
  simp [slice, List.take_add, List.drop_drop]

theorem slice_append {b : List Byte} {i j k m : Nat} (h : j = i + k) : slice b i k ++ slice b j m = slice b i (k + m) := by
  rw [slice_add, h]

theorem length_slice {b : List Byte} {i k : Nat} (h : i + k ≤ b.length) : (slice b i k).length = k := by
  simp [slice]
  omega

/-- The bytes of a number are read back. -/
theorem beBytes_imageNat {b : List Byte} {i k : Nat} (h : i + k ≤ b.length) : beBytes k (imageNat b i k) = slice b i k := by
  have := beBytes_beNat (slice b i k)
  rwa [length_slice h] at this

theorem imageNat_lt {b : List Byte} {i k : Nat} (h : i + k ≤ b.length) : imageNat b i k < 256 ^ k := by
  have := beNat_lt (slice b i k)
  rwa [length_slice h] at this

theorem slice_one {b : List Byte} {i : Nat} (h : i < b.length) : slice b i 1 = [b.getD i 0] := by
  rw [slice, List.drop_eq_getElem_cons h, List.take_succ_cons, List.take_zero, List.getD_eq_getElem _ _ h]

theorem ofNat_imageByte (b : List Byte) (i : Nat) : BitVec.ofNat 8 (imageByte b i) = b.getD i 0 := by simp [imageByte]

theorem imageByte_lt (b : List Byte) (i : Nat) : imageByte b i < 256 := BitVec.isLt _

/-- An image carries an account number and an account: each field is read from its bytes, those with an encoding of their own
within it, and the others in range (R3, R207). -/
structure CarriesAccount (b : List Byte) (n : Nat) (a : Account) : Prop where
  number : n = imageNat b 2 3
  numbered : 1 ≤ n ∧ n ≤ maxAccount
  status : statusOf? (imageByte b 1) = some a.status
  cls : fin4? (imageByte b 5 % 16) = some a.cls
  limit : a.sessionLimit = imageByte b 5 / 16
  limited : 1 ≤ a.sessionLimit ∧ a.sessionLimit ≤ 4
  group : optGroup? (imageByte b 6 / 16) = some a.defaultGroup
  failed : a.failedCount = imageByte b 6 % 16
  permitted : a.permitted = BitVec.ofNat 6 (imageByte b 7)
  permits : imageByte b 7 < 64
  password : a.password = imageNat b 8 3
  allotment : a.allotment = imageNat b 11 3
  overdraft : a.overdraft = imageNat b 14 2
  low : a.lowThreshold = imageNat b 16 2
  bands : a.bandTotals = #v[imageNat b 18 3, imageNat b 21 3, imageNat b 24 3, imageNat b 27 3]
  wait : a.waitTotal = imageNat b 30 3
  seconds : a.connectSeconds = imageNat b 33 3
  last : lastSignOnOf? (imageNat b 36 2) (imageByte b 38) = some a.lastSignOn

theorem carriesAccount_of_imageFields {b : List Byte} {n : Nat} {a : Account} (h : imageFields? b = some (n, a)) :
    CarriesAccount b n a := by
  unfold imageFields? at h
  split at h
  · rename_i hs hc hg hl
    dsimp only at h
    split at h
    · rename_i hr
      obtain ⟨hn1, hn2, hl1, hl4, hp⟩ := hr
      cases h
      exact ⟨rfl, ⟨hn1, hn2⟩, hs, hc, rfl, ⟨hl1, hl4⟩, hg, rfl, rfl, hp, rfl, rfl, rfl, rfl, rfl, rfl, rfl, hl⟩
    · cases h
  · cases h

theorem lastSignOnOf_lt {minute line : Nat} {m : Nat} {l : LineNo} (h : lastSignOnOf? minute line = some (some (m, l))) :
    m < Config.weekMinutes := by
  unfold lastSignOnOf? at h
  split at h
  · split at h <;> cases h
  · split at h
    · obtain ⟨k, _, hk⟩ := Option.map_eq_some_iff.1 h
      cases hk
      assumption
    · cases h

/-- The account number and every field of a sound image are in range (R3). -/
theorem imageFields_inRange {b : List Byte} (hb : b.length = 40) {n : Nat} {a : Account} (h : imageFields? b = some (n, a)) :
    1 ≤ n ∧ n ≤ maxAccount ∧ AccountInRange a := by
  have c := carriesAccount_of_imageFields h
  have three : ∀ {x i : Nat}, x = imageNat b i 3 → i + 3 ≤ b.length → x ≤ max24 := fun hx hi =>
    hx ▸ Nat.le_of_lt_succ (imageNat_lt hi)
  have two : ∀ {x i : Nat}, x = imageNat b i 2 → i + 2 ≤ b.length → x ≤ 65535 := fun hx hi =>
    hx ▸ Nat.le_of_lt_succ (imageNat_lt hi)
  refine ⟨c.numbered.1, c.numbered.2, c.limited, three c.password (by omega), by rw [c.failed]; omega, three c.allotment (by omega),
    two c.overdraft (by omega), two c.low (by omega), fun k => ?_, three c.wait (by omega), three c.seconds (by omega),
    fun m l hml => lastSignOnOf_lt (hml ▸ c.last)⟩
  rw [c.bands]
  match k with
  | 0 => exact three rfl (by omega)
  | 1 => exact three rfl (by omega)
  | 2 => exact three rfl (by omega)
  | 3 => exact three rfl (by omega)

/-- The bytes 36 to 38 of an image whose last sign-on is sound (R207). -/
theorem signOnBytes_of {b : List Byte} (hb : b.length = 40) {last : Option (Nat × LineNo)}
    (h : lastSignOnOf? (imageNat b 36 2) (imageByte b 38) = some last) : signOnBytes last = slice b 36 3 := by
  have parts : slice b 36 3 = beBytes 2 (imageNat b 36 2) ++ [BitVec.ofNat 8 (imageByte b 38)] := by
    rw [show (3 : Nat) = 2 + 1 from rfl, slice_add, slice_one (by omega), beBytes_imageNat (by omega), ofNat_imageByte]
  rw [parts]
  unfold lastSignOnOf? at h
  split at h
  · rename_i h255
    split at h
    · rename_i h0
      cases h
      rw [h0, h255]
      rfl
    · cases h
  · split at h
    · obtain ⟨l, hl, rfl⟩ := Option.map_eq_some_iff.1 h
      unfold lineNo? at hl
      split at hl <;> cases hl
      rfl
    · cases h

/-- The bytes of a sound image between its first byte and its check byte. -/
theorem slice_of_carries {b : List Byte} (hb : b.length = 40) {n : Nat} {a : Account} (c : CarriesAccount b n a) :
    slice b 1 38 = statusByte a.status :: beBytes 3 n ++ accountBytes a := by
  have one : ∀ {i : Nat} {x : Byte}, i < 40 → x.toNat = imageByte b i → slice b i 1 = [x] := by
    intro i x hi hx
    rw [slice_one (by omega), ← ofNat_imageByte, ← hx]
    simp
  have num : ∀ {i k x : Nat}, i + k ≤ 40 → x = imageNat b i k → slice b i k = beBytes k x := by
    rintro i k _ hi rfl
    exact (beBytes_imageNat (by omega)).symm
  have h5 := imageByte_lt b 5
  have h6 := imageByte_lt b 6
  have hcls := fin4_eq c.cls
  have hgroup := groupNumber_of c.group
  have b5 : (BitVec.ofNat 8 (a.sessionLimit * 16 + a.cls.val)).toNat = imageByte b 5 := by
    rw [hcls, c.limit, toNat_byte (by omega)]; omega
  have b6 : (BitVec.ofNat 8 (groupNumber a.defaultGroup * 16 + a.failedCount)).toNat = imageByte b 6 := by
    rw [hgroup, c.failed, toNat_byte (by omega)]; omega
  have b7 : (a.permitted.setWidth 8).toNat = imageByte b 7 := by
    have := c.permits
    rw [c.permitted]
    simp
    omega
  have bands : ∀ k : Band, a.bandTotals.get k = imageNat b (18 + 3 * k.val) 3 := by
    intro k
    rw [c.bands]
    match k with
    | 0 => rfl
    | 1 => rfl
    | 2 => rfl
    | 3 => rfl
  rw [accountBytes_eq, signOnBytes_of hb c.last, ← num (by omega) c.number, ← num (by omega) c.password,
    ← num (by omega) c.allotment, ← num (by omega) c.overdraft, ← num (by omega) c.low, ← num (by omega) (bands 0),
    ← num (by omega) (bands 1), ← num (by omega) (bands 2), ← num (by omega) (bands 3), ← num (by omega) c.wait,
    ← num (by omega) c.seconds]
  have cut : slice b 1 38 = slice b 1 1 ++ (slice b 2 3 ++ (slice b 5 1 ++ (slice b 6 1 ++ (slice b 7 1 ++ (slice b 8 3 ++
      (slice b 11 3 ++ (slice b 14 2 ++ (slice b 16 2 ++ (slice b 18 3 ++ (slice b 21 3 ++ (slice b 24 3 ++ (slice b 27 3 ++
      (slice b 30 3 ++ (slice b 33 3 ++ slice b 36 3)))))))))))))) := by
    simp [slice_append]
  rw [cut, one (by omega) (statusByte_of c.status), one (by omega) b5, one (by omega) b6, one (by omega) b7]
  simp

/-- A sound image is that of the account it carries. -/
theorem slotImage_of_imageFields {b : List Byte} (hb : b.length = 40) (hsum : byteSum b = 0) {n : Nat} {a : Account}
    (h : imageFields? b = some (n, a)) : slotImage (b.getD 0 0) (beBytes 3 n) a = b := by
  have c := carriesAccount_of_imageFields h
  have whole : b = b.getD 0 0 :: slice b 1 38 ++ [b.getD 39 0] := by
    have cut : slice b 0 40 = slice b 0 1 ++ (slice b 1 38 ++ slice b 39 1) := by simp [slice_append]
    rw [slice_one (by omega), slice_one (by omega)] at cut
    simpa [slice, List.take_of_length_le hb.le] using cut
  have check : b.getD 39 0 = -(byteSum (b.getD 0 0 :: slice b 1 38)) := by
    rw [whole, byteSum_append] at hsum
    have last : byteSum [b.getD 39 0] = b.getD 39 0 := by simp [byteSum]
    rw [last] at hsum
    bv_omega
  have fields := slice_of_carries hb c
  conv_rhs => rw [whole, check, fields]
  simp [slotImage, withCheck]

theorem encodeSlot_of_decode_inUse {b : List Byte} (hb : b.length = 40) {n : Nat} {a : Account}
    (h : decodeSlot b = .inUse n a) : b = encodeSlot .inUse n a ∧ 1 ≤ n ∧ n ≤ maxAccount ∧ AccountInRange a := by
  obtain ⟨hsum, h0, hf⟩ := decodeSlot_inUse_iff.1 h
  have first : b.getD 0 0 = slotStateByte .inUse := BitVec.eq_of_toNat_eq h0
  refine ⟨?_, imageFields_inRange hb hf⟩
  rw [encodeSlot, ← first, slotImage_of_imageFields hb hsum hf]

theorem encodeSlot_of_decode_vacated {b : List Byte} (hb : b.length = 40) {n : Nat} {a : Account}
    (h : decodeSlot b = .vacated n a) : b = encodeSlot .vacated n a ∧ 1 ≤ n ∧ n ≤ maxAccount ∧ AccountInRange a := by
  obtain ⟨hsum, h0, hf⟩ := decodeSlot_vacated_iff.1 h
  have first : b.getD 0 0 = slotStateByte .vacated := BitVec.eq_of_toNat_eq h0
  refine ⟨?_, imageFields_inRange hb hf⟩
  rw [encodeSlot, ← first, slotImage_of_imageFields hb hsum hf]

/-- Settles O11: an image is cut into the parts its fields are written to, and each part is read back. -/
theorem slotImageCarriesAccount : Obligations.SlotImageCarriesAccount := by
  unfold Obligations.SlotImageCarriesAccount
  refine ⟨fun n a h1 h2 ha => ?_, fun bytes n a hb => ⟨encodeSlot_of_decode_inUse hb, encodeSlot_of_decode_vacated hb⟩⟩
  exact ⟨length_encodeSlot _ n a, byteSum_withCheck _, decode_encode_inUse ⟨h1, h2⟩ ha, decode_encode_vacated ⟨h1, h2⟩ ha⟩

end Sys2Proof.Machine
end


/-! # Laws that follow a relation through every move -/

section
namespace Sys2Proof.Machine

/-- A relation that holds of every calm change, every edit of an entry, and every queueing and leaving of one holds of every
move. -/
structure Lifts (K : State → State → Prop) : Prop where
  refl : ∀ s, K s s
  trans : ∀ {a b c}, K a b → K b c → K a c
  calm : ∀ {s t}, Calm s t → K s t
  edit : ∀ {s e x y}, s.entry e = some x → Edits x y → K s (s.setEntry e (some y))
  queue : ∀ s e, K s (queueEntry s e)
  leave : ∀ s e, K s (leaveEntry s e)

theorem calm_examined {s t : State} (h : Examined s t) : Calm s t := by
  rw [h]
  exact { Calm.refl s with }

theorem Lifts.moves {K : State → State → Prop} (hK : Lifts K) {s t : State} (h : Moves s t) : K s t := by
  induction h with
  | refl s => exact hK.refl s
  | trans _ _ ih1 ih2 => exact hK.trans ih1 ih2
  | quiet hc _ => exact hK.calm hc
  | link hc _ => exact hK.calm hc
  | edit hx he => exact hK.edit hx he
  | queue s e => exact hK.queue s e
  | @settledCall s m l cause out _ _ hm =>
    exact hK.calm ((((calm_settleClaims s l out).trans (calm_examined hm)).trans (calm_writeSummary _ l cause _)).trans
      (calm_dropCounts _ l))
  | @settledSession s m n l e cause out _ _ _ hn ih =>
    have left : K m (leaveEntry (m.modLine l (fun r => { r with entryRef := none })) e) :=
      hK.trans (hK.calm (calm_modLine (l := l) id)) (hK.leave _ e)
    have told : K n (dropCounts (writeSummary n l cause (s.line l).phase.isAdmitted) l) :=
      hK.calm ((calm_writeSummary n l cause _).trans (calm_dropCounts _ l))
    exact hK.trans (hK.trans (hK.trans (hK.trans (hK.calm (calm_settleClaims s l out)) ih) left)
      (hK.calm (calm_examined hn))) told

/-! ## The store operations, taken apart -/

/-- An entry holds an account number and fields in range (R3, R27). -/
def OatEntry.InRange (x : OatEntry) : Prop := 1 ≤ x.account ∧ x.account ≤ maxAccount ∧ AccountInRange x.acct

/-- What the store operations do, one change at a time. Where `wr` does not hold, none of it writes to the store. `W` is what is
known at their beginning. -/
inductive Works (wr W : Prop) : State → State → Prop
  | refl (s : State) : Works wr W s s
  | trans {a b c : State} : Works wr W a b → Works wr W b c → Works wr W a c
  | moves {s t : State} : Moves s t → Works wr W s t
  | calm {s t : State} : Calm s t → Works wr W s t
  | leave (s : State) (e : EntryNo) : Works wr W s (leaveEntry s e)
  | entry {s : State} {e : EntryNo} {y : OatEntry} : (W → AccountsInRange s → ClockInRange s → y.InRange) →
      Works wr W s (s.setEntry e (some y))
  | free (s : State) (e : EntryNo) : Works wr W s (freeEntry s e)
  | begun {s : State} {e : EntryNo} {rest : List EntryNo} : s.oat.writeBackList = e :: rest →
      Works wr W s { s with oat := { s.oat with writeBackList := rest } }
  | drained (s : State) : Works wr W s { s with oat := { s.oat with writeBackList := [] } }
  | ctl {s : State} (c : StoreCtl) : (c.waiting = s.ctl.waiting ∨ c.waiting = none) →
      (c.inProgress = s.ctl.inProgress ∨ (W → ∀ r, c.inProgress = some (.supervisor r) → requestFits r)) →
      Works wr W s { s with ctl := c }
  | account (s : State) (n : Nat) (cause : BitVec 3) : Works wr W s (raiseAccount s n cause)
  | cleared (s : State) : Works wr W s { s with attn := emptyAttention }
  | answered (s : State) (c : Code) (clamped : Bool) (result : List Byte) : Works wr W s (respond s c clamped result)
  | closed (s : State) : Works wr W s (s.onLines fun c => { c with params := { c.params with acceptingCalls := false } })
  | written {s : State} (m : List Host.Cell) : wr → (storeWf s.store = true → storeWf m = true) → Works wr W s { s with store := m }

section
variable {wr W : Prop}

theorem Works.foldl {α : Type} {f : State → α → State} (h : ∀ s a, Works wr W s (f s a)) (xs : List α) (s : State) :
    Works wr W s (xs.foldl f s) := by
  induction xs generalizing s with
  | nil => exact .refl s
  | cons x xs ih => exact (h s x).trans (ih _)

theorem Works.respond {s t : State} (h : Works wr W s t) (c : Code) (clamped : Bool) (result : List Byte) :
    Works wr W s (respond t c clamped result) := h.trans (.answered t c clamped result)

theorem works_onCtl {s : State} {f : StoreCtl → StoreCtl} (hw : (f s.ctl).waiting = s.ctl.waiting)
    (hp : (f s.ctl).inProgress = s.ctl.inProgress) : Works wr W s (s.onCtl f) := .ctl _ (.inl hw) (.inl hp)

theorem works_markUncertain (s : State) : Works wr W s (markUncertain s) := works_onCtl rfl rfl

theorem works_storeFault (s : State) (n : Option Nat) : Works wr W s (storeFault s n) := by
  cases n with
  | none => exact works_markUncertain s
  | some n => exact (works_markUncertain s).trans (.account _ n _)

theorem works_writeSlot (hw : wr) (s : State) (o : WriteOutcome) (slot : Nat) (bytes : List Byte) :
    Works wr W s (s.writeSlot o slot bytes) := .written _ hw fun h => storeWf_storeSlot h _ _

/-- A change of an entry that keeps it in range. -/
theorem works_setEntry {s : State} {e : EntryNo} {x y : OatEntry} (hx : s.entry e = some x)
    (h : W → ClockInRange s → x.InRange → y.InRange) : Works wr W s (s.setEntry e (some y)) :=
  .entry fun w ha hc => h w hc (ha.1 e x hx)

theorem works_modEntry {s : State} {e : EntryNo} {f : OatEntry → OatEntry}
    (h : ∀ x, W → ClockInRange s → x.InRange → (f x).InRange) : Works wr W s (s.modEntry e f) := by
  unfold State.modEntry
  cases hx : s.entry e with
  | none =>
    rw [Option.map_none, ← hx, setEntry_entry_self]
    exact .refl s
  | some x => exact works_setEntry hx (h x)

/-! ### Sign-on operations -/

theorem accountInRange_afterMismatch {a : Account} (h : AccountInRange a) (k : Nat) : AccountInRange (afterMismatch k a) := by
  obtain ⟨h1, h2, h3, h4⟩ := h
  exact ⟨h1, h2, satSucc_le h3, h4⟩

theorem accountInRange_admitted {s : State} {a : Account} (h : AccountInRange a) (hc : ClockInRange s) (l : LineNo) :
    AccountInRange (admittedAccount s l a) := by
  obtain ⟨h1, h2, _, h4, h5, h6, h7, h8, h9, _⟩ := h
  refine ⟨h1, h2, Nat.zero_le _, h4, h5, h6, h7, h8, h9, fun m k hm => ?_⟩
  obtain ⟨rfl, _⟩ := Prod.mk.inj (Option.some.inj hm)
  exact hc.2.1.1

theorem works_joinEntry (s : State) (e : EntryNo) (l : LineNo) : Works wr W s (joinEntry s e l) :=
  works_modEntry fun _ _ hc ⟨h1, h2, ha⟩ => ⟨h1, h2, accountInRange_admitted ha hc l⟩

theorem works_admitOpen (s : State) (l : LineNo) (e : EntryNo) (x : OatEntry) : Works wr W s (admitOpen s l e x).1 := by
  unfold admitOpen
  split
  · exact .refl s
  · exact works_joinEntry s e l

theorem works_raiseLocked (s : State) (n : Nat) (a : Account) : Works wr W s (raiseLocked s n a) := by
  unfold raiseLocked
  split
  · exact .account s n _
  · exact .refl s

theorem works_verifyOpen (s : State) (op : SignOnOp) (password : Nat) (marker : Bool) (e : EntryNo) (x : OatEntry) :
    Works wr W s (verifyOpen s op password marker e x).1 := by
  unfold verifyOpen
  split
  · exact .refl s
  · have counted : Works wr W s (s.modEntry e fun x =>
        { x with acct := afterMismatch s.lc.params.lockoutThreshold x.acct, dirty := true }) :=
      works_modEntry fun _ _ _ ⟨h1, h2, ha⟩ => ⟨h1, h2, accountInRange_afterMismatch ha _⟩
    exact counted.trans (works_raiseLocked _ _ _)
  · split
    · exact .refl s
    · exact works_admitOpen s _ e x

theorem works_signOnOpen (s : State) (op : SignOnOp) (e : EntryNo) (x : OatEntry) : Works wr W s (signOnOpen s op e x).1 := by
  unfold signOnOpen
  split
  · exact works_verifyOpen s op _ _ e x
  · exact works_admitOpen s _ e x

/-- A probe finds a slot that is IN_USE with the number. -/
theorem probe_found {view : Nat → SlotView} {pass : Nat → SlotView → Bool} {capacity number fuel from_ : Nat}
    {place : Option Nat} {slot : Nat} {a : Account} (h : probe view pass capacity number fuel from_ place = .found slot a) :
    view slot = .inUse number a := by
  induction fuel generalizing from_ place with
  | zero => cases h
  | succ fuel ih =>
    simp only [probe] at h
    split at h
    · exact ih h
    · split at h
      · split at h
        · rename_i hv hn
          cases h
          rw [hv, hn]
        · exact ih h
      · exact ih h
      · cases h
      · cases h

theorem lookup_found {s : State} {n slot : Nat} {a : Account} (h : s.lookup n = .found slot a) :
    slotView s.store slot = .inUse n a := probe_found h

theorem length_slotBytes (m : List Host.Cell) (slot : Nat) : (slotBytes m slot).length = 40 := by simp [slotBytes]

/-- A found account is in range (R3, R7). -/
theorem lookup_found_inRange {s : State} {n slot : Nat} {a : Account} (h : s.lookup n = .found slot a) :
    1 ≤ n ∧ n ≤ maxAccount ∧ AccountInRange a :=
  (encodeSlot_of_decode_inUse (length_slotBytes _ _) (lookup_found h)).2

theorem works_admitClosed (hw : wr) (s : State) (o : WriteOutcome) (l : LineNo) {n : Nat} (slot : Nat) {a : Account}
    (h : 1 ≤ n ∧ n ≤ maxAccount ∧ AccountInRange a) : Works wr W s (admitClosed s o l n slot a).1 := by
  unfold admitClosed
  split
  · exact .refl s
  · exact .refl s
  · dsimp only
    split
    · refine (works_writeSlot hw s o slot _).trans (.entry fun _ _ hc => ?_)
      exact ⟨h.1, h.2.1, accountInRange_admitted h.2.2 hc l⟩
    · exact (works_writeSlot hw s o slot _).trans (works_storeFault _ (some _))

theorem works_writeMismatch (hw : wr) (s : State) (o : WriteOutcome) (n slot : Nat) (a : Account) :
    Works wr W s (writeMismatch s o n slot a) := by
  unfold writeMismatch
  dsimp only
  split
  · exact .refl s
  · split
    · exact (works_writeSlot hw s o slot _).trans (works_raiseLocked _ _ _)
    · exact (works_writeSlot hw s o slot _).trans (works_storeFault _ (some _))

theorem works_verifyClosed (hw : wr) (s : State) (o : WriteOutcome) (op : SignOnOp) (password : Nat) (marker : Bool) (slot : Nat)
    {a : Account} (h : 1 ≤ op.account ∧ op.account ≤ maxAccount ∧ AccountInRange a) :
    Works wr W s (verifyClosed s o op password marker slot a).1 := by
  unfold verifyClosed
  split
  · exact .refl s
  · exact works_writeMismatch hw s o _ slot a
  · split
    · exact .refl s
    · exact works_admitClosed hw s o _ slot h

theorem works_signOnClosed (hw : wr) (s : State) (o : WriteOutcome) (op : SignOnOp) : Works wr W s (signOnClosed s o op).1 := by
  unfold signOnClosed
  split
  · exact works_storeFault s (some op.account)
  · exact .refl s
  · exact .refl s
  · rename_i h _
    exact works_verifyClosed hw s o op _ _ _ (lookup_found_inRange h)
  · rename_i h _
    exact works_admitClosed hw s o _ _ (lookup_found_inRange h)

/-- A sign-on operation on an open account writes nothing to the store. -/
theorem works_performSignOn (s : State) (o : WriteOutcome) (op : SignOnOp) (hw : s.openAccount op.account = none → wr) :
    Works wr W s (performSignOn s o op).1 := by
  unfold performSignOn
  split
  · exact works_signOnOpen s op _ _
  · exact works_signOnClosed (hw (by assumption)) s o op

theorem calm_watchResult (s : State) (op : SignOnOp) (r : SignOnResult) : Calm s (watchResult s op r) := by
  unfold watchResult
  split
  · exact calm_examined (examined_examineWatches s _ _ _ _)
  · exact .refl s

theorem watchResult_line (s : State) (op : SignOnOp) (r : SignOnResult) (l : LineNo) : (watchResult s op r).line l = s.line l := by
  unfold watchResult
  split
  · rw [examined_examineWatches s _ _ _ _]
    rfl
  · rfl

/-- The line of a current result waits for it in CHECKING or ADMITTING (R93). -/
theorem isCurrent_phase {s : State} {op : SignOnOp} (h : isCurrent s op = true) : ∃ st, (s.line op.line).phase = .signon st := by
  simp only [isCurrent, Bool.and_eq_true] at h
  obtain ⟨_, h⟩ := h
  split at h
  · exact ⟨_, of_decide_eq_true h⟩
  · exact ⟨_, of_decide_eq_true h⟩

theorem calm_admitLine (s : State) (l : LineNo) (e : EntryNo) (grace : Nat) : Calm s (admitLine s l e grace) :=
  ((calm_modLine (l := l) fun _ => Nat.zero_lt_succ _).trans (calm_modLine (l := l) id)).trans (calm_requestMessage _ l _ _)

theorem works_takeResult (s : State) (op : SignOnOp) (r : SignOnResult) : Works wr W s (takeResult s op r) := by
  unfold takeResult
  split
  · rename_i hcur
    obtain ⟨st, hst⟩ := isCurrent_phase hcur
    rw [← watchResult_line s op r] at hst
    have watched : Works wr W s (watchResult s op r) := .calm (calm_watchResult s op r)
    dsimp only
    split
    · exact watched.trans (.moves (moves_attemptFailed _ hst _))
    · exact watched.trans (.moves (moves_enterHeld hst))
    · exact watched.trans (.calm (calm_admitLine _ _ _ _))
  · split
    · exact .leave s _
    · exact .refl s
    · exact .refl s

theorem works_finishSignOn (s : State) (o : WriteOutcome) (op : SignOnOp) (hw : s.openAccount op.account = none → wr) :
    Works wr W s (finishSignOn s o op) := (works_performSignOn s o op hw).trans (works_takeResult _ _ _)

/-! ### Write-backs -/

theorem works_beginWriteBack {s : State} {e : EntryNo} {rest : List EntryNo} (h : s.oat.writeBackList = e :: rest) :
    Works wr W s (beginWriteBack s e rest) := by
  unfold beginWriteBack
  split
  · exact .begun h
  · rename_i x hx
    refine ((Works.begun h).trans (works_setEntry (x := x) (y := { x with dirty := false }) hx fun _ _ hr => hr)).trans
      (.ctl _ (.inl rfl) (.inr fun _ r hr => nomatch hr))

theorem works_writeBackFailed (s : State) (e : EntryNo) (n : Nat) : Works wr W s (writeBackFailed s e n) := by
  refine ((Works.account s n _).trans (works_markUncertain _)).trans (works_modEntry fun x _ _ hx => ?_)
  split <;> exact hx

theorem works_vacateSlot (hw : wr) (s : State) (o : WriteOutcome) (e : EntryNo) (n : Nat) (slot : SlotNo) (a : Account) :
    Works wr W s (vacateSlot s o e n slot a) := by
  unfold vacateSlot
  dsimp only
  split
  · exact ((works_writeSlot hw s o _ _).trans (works_onCtl rfl rfl)).trans (.free _ e)
  · exact (works_writeSlot hw s o _ _).trans (works_writeBackFailed _ _ _)

theorem works_writeBackMatched (hw : wr) (s : State) (o : WriteOutcome) (e : EntryNo) (n : Nat) (slot : SlotNo) (a : Account) :
    Works wr W s (writeBackMatched s o e n slot a) := by
  unfold writeBackMatched
  split
  · exact .refl s
  · split
    · exact .refl s
    · split
      · exact .moves (.queue s e)
      · split
        · exact works_vacateSlot hw s o e n slot a
        · exact .free s e

theorem works_finishWriteBack (hw : wr) (s : State) (writes : List WriteOutcome) (e : EntryNo) (n : Nat) (slot : SlotNo)
    (a : Account) : Works wr W s (finishWriteBack s writes e n slot a) := by
  unfold finishWriteBack
  dsimp only
  split
  · exact (works_writeSlot hw s _ _ _).trans (works_writeBackMatched hw _ _ _ _ _ _)
  · exact (works_writeSlot hw s _ _ _).trans (works_writeBackFailed _ _ _)

/-! ### Requests -/

/-- An edit of an account that keeps it in range. -/
def KeepsRange (W : Prop) (f : Account → Edit) : Prop := W → ∀ a, AccountInRange a → AccountInRange (f a).acct

theorem openAccount_entry {s : State} {n : Nat} {e : EntryNo} {x : OatEntry} (h : s.openAccount n = some (e, x)) :
    s.entry e = some x := by
  unfold State.openAccount at h
  split at h
  · cases h
  · obtain ⟨y, hy, hp⟩ := Option.map_eq_some_iff.1 h
    cases hp
    exact hy

theorem works_editOpen {s : State} {e : EntryNo} {x : OatEntry} {f : Account → Edit} (hf : KeepsRange W f)
    (hx : s.entry e = some x) : Works wr W s (editOpen s e x (f x.acct)) := by
  unfold editOpen
  dsimp only
  refine Works.respond ?_ _ _ _
  split
  · have edited : Works wr W s (s.setEntry e (some { x with acct := (f x.acct).acct, dirty := true })) :=
      works_setEntry hx fun w _ ⟨h1, h2, ha⟩ => ⟨h1, h2, hf w _ ha⟩
    exact edited.trans (.moves (moves_meterAction _ _ _ _))
  · exact .refl s

theorem works_editSlot (hw : wr) (s : State) (o : WriteOutcome) (n slot : Nat) (d : Edit) :
    Works wr W s (editSlot s o n slot d) := by
  unfold editSlot
  dsimp only
  split
  · split
    · exact (works_writeSlot hw s o _ _).respond _ _ _
    · exact ((works_writeSlot hw s o _ _).trans (works_storeFault _ (some _))).respond _ _ _
  · exact .answered s _ _ _

theorem works_lookupFault (s : State) (n : Nat) (clamped : Bool) : Works wr W s (lookupFault s n clamped) :=
  (works_storeFault s _).respond _ _ _

theorem works_editAccount {s : State} {o : WriteOutcome} {n : Nat} {clamped : Bool} {f : Account → Edit}
    (hw : s.openAccount n = none → wr) (hf : KeepsRange W f) : Works wr W s (editAccount s o n clamped f) := by
  unfold editAccount
  split
  · rename_i h
    exact works_editOpen hf (openAccount_entry h)
  · rename_i h
    split
    · exact works_editSlot (hw h) s o _ _ _
    · exact .answered s _ _ _
    · exact works_lookupFault s _ _

theorem works_finishAttach (hw : wr) (s : State) (writes : List WriteOutcome) (code clear : Nat) :
    Works wr W s (finishAttach s writes code clear) := by
  have store : Works wr W s { s with store := if clear = 1 then clearStore s.store s.ctl.capacity writes else s.store } :=
    .written _ hw fun h => by
      split
      · exact storeWf_clearStore h _ _
      · exact h
  unfold finishAttach
  dsimp only
  refine Works.respond ?_ _ _ _
  exact store.trans (.ctl { s.ctl with attachment := .attached, inUse := _, vacated := _ } (.inl rfl) (.inl rfl))

theorem countOut_fields (c : StoreCtl) (v : SlotView) : (c.countOut v).waiting = c.waiting ∧ (c.countOut v).inProgress = c.inProgress := by
  cases v <;> exact ⟨rfl, rfl⟩

theorem countIn_fields (c : StoreCtl) (st : SlotState) : (c.countIn st).waiting = c.waiting ∧ (c.countIn st).inProgress = c.inProgress := by
  cases st <;> exact ⟨rfl, rfl⟩

theorem works_countIn (s : State) (st : SlotState) : Works wr W s (s.onCtl fun c => c.countIn st) :=
  works_onCtl (countIn_fields _ _).1 (countIn_fields _ _).2

theorem works_lowerVacated (s : State) : Works wr W s (s.onCtl fun c => { c with vacated := lowerCount c.capacity c.vacated }) :=
  works_onCtl rfl rfl

theorem works_addAccount (s : State) (o : WriteOutcome) (p : NewAccount)
    (hw : s.ctl.inUse < fillLimit s.ctl.capacity → s.findOpen p.account = none → wr) : Works wr W s (addAccount s o p) := by
  unfold addAccount
  dsimp only
  split
  · exact .answered s _ _ _
  · rename_i hfull
    split
    · exact .answered s _ _ _
    · rename_i hopen
      split
      · exact .answered s _ _ _
      · exact works_lookupFault s _ _
      · exact .answered s _ _ _
      · have write := works_writeSlot (W := W) (hw (Nat.lt_of_not_le hfull) hopen) s o
        unfold placeAccount
        dsimp only
        split
        · split
          · exact (((write _ _).trans (works_lowerVacated _)).trans (works_countIn _ _)).respond _ _ _
          · exact ((write _ _).trans (works_countIn _ _)).respond _ _ _
        · exact ((write _ _).trans (works_storeFault _ (some _))).respond _ _ _

theorem works_readAccount (s : State) (n : Nat) : Works wr W s (readAccount s n) := by
  unfold readAccount
  split
  · dsimp only
    split
    · exact works_lookupFault s _ _
    · exact .answered s _ _ _
  · split
    · exact .answered s _ _ _
    · exact .answered s _ _ _
    · exact works_lookupFault s _ _

theorem accountInRange_clearTotals {a : Account} (h : AccountInRange a) : AccountInRange (clearTotals a) := by
  obtain ⟨h1, h2, h3, h4, h5, h6, _, _, _, h10⟩ := h
  refine ⟨h1, h2, h3, h4, h5, h6, fun b => ?_, Nat.zero_le _, Nat.zero_le _, h10⟩
  show (Vector.replicate 4 0).get b ≤ max24
  rw [show (Vector.replicate 4 0).get b = 0 from Vector.getElem_replicate b.isLt]
  exact Nat.zero_le _

theorem works_readAndClear (s : State) (o : WriteOutcome) (n : Nat) (hw : s.openAccount n = none → wr) :
    Works wr W s (readAndClear s o n) := by
  unfold readAndClear
  split
  · rename_i h
    have cleared : Works wr W s (s.setEntry _ (some { (_ : OatEntry) with acct := clearTotals _, dirty := true })) :=
      works_setEntry (openAccount_entry h) fun _ _ ⟨h1, h2, ha⟩ => ⟨h1, h2, accountInRange_clearTotals ha⟩
    exact cleared.respond _ _ _
  · rename_i h
    split
    · dsimp only
      split
      · exact (works_writeSlot (hw h) s o _ _).respond _ _ _
      · exact ((works_writeSlot (hw h) s o _ _).trans (works_storeFault _ (some _))).respond _ _ _
    · exact .answered s _ _ _
    · exact works_lookupFault s _ _

theorem works_writeReplacement (hw : wr) (s : State) (o : WriteOutcome) (slot : Nat) (image : List Byte) :
    Works wr W s (writeReplacement s o slot image) := by
  unfold writeReplacement
  dsimp only
  split
  · refine ((works_writeSlot hw s o _ _).trans (works_onCtl ?_ ?_)).respond _ _ _
    · rw [(countIn_fields _ _).1, (countOut_fields _ _).1]
    · rw [(countIn_fields _ _).2, (countOut_fields _ _).2]
  · exact ((works_writeSlot hw s o _ _).trans (works_storeFault _ (imageAccount image))).respond _ _ _

theorem works_replaceSlot (hw : wr) (s : State) (o : WriteOutcome) (slot : Nat) (image : List Byte) :
    Works wr W s (replaceSlot s o slot image) := by
  unfold replaceSlot
  split
  · exact .answered s _ _ _
  · split
    · exact works_writeReplacement hw s o _ _
    · split
      · exact .answered s _ _ _
      · exact works_lookupFault s _ _
      · exact works_writeReplacement hw s o _ _

theorem works_retireOpen {s : State} {e : EntryNo} {x : OatEntry} (hx : s.entry e = some x) :
    Works wr W s (retireOpen s e x) := by
  have marked : Works wr W s (s.setEntry e (some { x with retirePending := true })) := works_setEntry hx fun _ _ h => h
  unfold retireOpen
  dsimp only
  split
  · exact .refl s
  · split
    · exact marked.trans (.moves (.queue _ e))
    · exact marked

theorem works_retire (s : State) (o : WriteOutcome) (n : Nat) (hw : s.openAccount n = none → wr) :
    Works wr W s (retire s o n) := by
  unfold retire
  split
  · rename_i h
    exact (works_retireOpen (openAccount_entry h)).respond _ _ _
  · rename_i h
    split
    · dsimp only
      split
      · exact ((works_writeSlot (hw h) s o _ _).trans (works_onCtl rfl rfl)).respond _ _ _
      · exact ((works_writeSlot (hw h) s o _ _).trans (works_storeFault _ (some _))).respond _ _ _
    · exact .answered s _ _ _
    · exact works_lookupFault s _ _

theorem works_discardOpen (s : State) (n : Nat) : Works wr W s (discardOpen s n) := by
  unfold discardOpen
  split
  · exact .answered s _ _ _
  · split
    · exact (Works.free s _).respond _ _ _
    · exact .answered s _ _ _

/-! ### RESTART -/

theorem moves_settleForRestart (s : State) (l : LineNo) : Moves s (settleForRestart s l) := by
  unfold settleForRestart
  split
  · exact moves_settle (moves_creditAction fun s _ => .refl s) (by assumption) _ _ _
  · exact .refl s

theorem moves_endCallsForRestart (s : State) : Moves s (endCallsForRestart s) :=
  ((Moves.foldl moves_settleForRestart _ s).trans (Moves.foldl moves_settleForRestart _ _)).trans
    (Moves.foldl moves_settleForRestart _ _)

theorem calm_releaseForRestart (s : State) (l : LineNo) : Calm s (s.onLines fun c => releaseForRestart c l) := by
  have kept : ∀ c : LineCtl, Calm { s with lc := c } ({ s with lc := c.modLine l restartLine } : State) := fun c =>
    calm_modLine (s := { s with lc := c }) (l := l) (f := restartLine) id
  show Calm s { s with lc := releaseForRestart s.lc l }
  unfold releaseForRestart
  split
  · exact .refl s
  · exact (calm_lines (f := fun c => c.issue (.release l)) (hush_issue s.lc _)).trans (kept _)
  · exact kept s.lc

theorem calm_releaseLines (ls : List LineNo) (s : State) : Calm s (s.onLines fun c => ls.foldl releaseForRestart c) := by
  induction ls generalizing s with
  | nil => exact .refl s
  | cons l ls ih => exact (calm_releaseForRestart s l).trans (ih _)

theorem works_beginRestart (s : State) : Works wr W s (beginRestart s) :=
  (((Works.closed s).trans (.moves (moves_endCallsForRestart _))).trans (.calm (calm_releaseLines _ _))).trans
    (.moves (moves_flushEntries _))

theorem works_flushVacated (hw : wr) {s0 : State} (f : Flush) {s : State} (h : Works wr W s0 s) (writes : List WriteOutcome)
    (e : EntryNo) (x : OatEntry) : Works wr W s0 (flushVacated f s writes e x).state := by
  unfold flushVacated
  dsimp only
  split
  · exact ((h.trans (works_writeSlot hw _ _ _ _)).trans (works_onCtl rfl rfl)).trans (.free _ e)
  · exact ((h.trans (works_writeSlot hw _ _ _ _)).trans (works_markUncertain _)).trans (.free _ e)

theorem works_flushOne (hw : wr) (f : Flush) (e : EntryNo) : Works wr W f.state (flushOne f e).state := by
  unfold flushOne
  split
  · exact .refl _
  · dsimp only
    split
    · split
      · exact works_flushVacated hw f (works_writeSlot hw _ _ _ _) _ _ _
      · exact (works_writeSlot hw _ _ _ _).trans (.free _ e)
    · exact ((works_writeSlot hw _ _ _ _).trans (works_markUncertain _)).trans (.free _ e)

theorem works_flushAll (es : List EntryNo) (f : Flush) (hw : es ≠ [] → wr) : Works wr W f.state (es.foldl flushOne f).state := by
  induction es generalizing f with
  | nil => exact .refl _
  | cons e es ih =>
    exact (works_flushOne (hw (List.cons_ne_nil e es)) f e).trans (ih _ fun _ => hw (List.cons_ne_nil e es))

theorem works_finishRestart (s : State) (writes : List WriteOutcome) (ended : Nat) (hw : s.oat.writeBackList ≠ [] → wr) :
    Works wr W s (finishRestart s writes ended) := by
  have flushed := works_flushAll (W := W) s.oat.writeBackList { state := s, writes := writes, written := 0, lost := 0 } hw
  exact ((flushed.trans (.drained _)).trans (.cleared _)).respond _ _ _

end

end Sys2Proof.Machine
end


/-! # The rotation and the completion of an operation -/

section
namespace Sys2Proof.Machine

/-! ## Open accounts -/

theorem findOpen_some {s : State} {n : Nat} {e : EntryNo} (h : s.findOpen n = some e) :
    ∃ x, s.entry e = some x ∧ x.account = n := by
  have found := List.find?_some h
  cases hx : s.entry e with
  | none => simp [hx] at found
  | some x => exact ⟨x, rfl, by simpa [hx] using found⟩

theorem findOpen_none {s : State} {n : Nat} : s.findOpen n = none ↔ ∀ e x, s.entry e = some x → x.account ≠ n := by
  unfold State.findOpen
  rw [List.find?_eq_none]
  constructor
  · intro h e x hx
    have := h e (List.mem_finRange e)
    simpa [hx] using this
  · intro h e _
    cases hx : s.entry e with
    | none => simp
    | some x => simpa using h e x hx

theorem openAccount_eq_none {s : State} {n : Nat} : s.openAccount n = none ↔ s.findOpen n = none := by
  unfold State.openAccount
  cases h : s.findOpen n with
  | none => simp
  | some e =>
    obtain ⟨x, hx, _⟩ := findOpen_some h
    simp [hx]

/-- An account that is not open needs the store (R12). -/
theorem recordNeedsStore_iff {s : State} {n : Nat} : recordNeedsStore s n = true ↔ s.openAccount n = none := by
  rw [openAccount_eq_none, recordNeedsStore, Option.isNone_iff_eq_none]

section
variable {wr W : Prop}

/-! ## Edits keep an account in range -/

theorem passwordFold_le (chars : List Byte) : passwordFold chars ≤ max24 := by
  have fold : ∀ (cs : List Byte) (v : Nat), v ≤ max24 → cs.foldl foldStep v ≤ max24 := by
    intro cs
    induction cs with
    | nil => exact fun _ h => h
    | cons c cs ih =>
      intro v _
      refine ih _ ?_
      unfold foldStep
      dsimp only
      split
      · decide
      · exact Nat.le_of_lt_succ (Nat.mod_lt _ (by decide))
  exact fold chars 7919 (by decide)

theorem keepsRange_password (chars : List Byte) : KeepsRange W (editPassword chars) := by
  intro _ a ⟨h1, _, h3⟩
  refine ⟨h1, ?_, h3⟩
  simp only [editPassword]
  split
  · exact Nat.zero_le _
  · exact passwordFold_le chars

theorem keepsRange_change {n : Nat} {f : AccountChange} (hf : W → requestFits (.change n f)) : KeepsRange W (editChange f) := by
  intro w a ⟨h1, h2, h3, h4, h5, h6, h7⟩
  refine ⟨?_, h2, ?_, h4, h5, ?_, h7⟩
  · exact getD_clamp_mem (by decide) h1 _
  · simp only [editChange]
    split
    · exact Nat.zero_le _
    · exact h3
  · cases hl : f.lowThreshold with
    | none => simpa [editChange, hl] using h6
    | some k => simpa [editChange, hl] using hf w k hl

theorem keepsRange_grant (amount : Nat) : KeepsRange W (editGrant amount) := by
  intro _ a ⟨h1, h2, h3, h4, h5, h6⟩
  exact ⟨h1, h2, h3, Nat.min_le_left _ _, (Nat.sub_le _ _).trans h5, h6⟩

theorem keepsRange_revoke (amount : Nat) : KeepsRange W (editRevoke amount) := by
  intro _ a ⟨h1, h2, h3, h4, h5⟩
  exact ⟨h1, h2, h3, (Nat.sub_le _ _).trans h4, h5⟩

theorem keepsRange_forgive : KeepsRange W editForgive := by
  intro _ a ⟨h1, h2, h3, h4, _, h6⟩
  exact ⟨h1, h2, h3, h4, Nat.zero_le _, h6⟩

/-! ## Requests -/

/-- A request carried out to its response (R12); one that needs no store access writes nothing. -/
theorem works_performRequest {s : State} {r : StoreReq} (writes : List WriteOutcome) (hf : W → requestFits r)
    (hw : requestNeedsStore s r = true → wr) : Works wr W s (performRequest s writes r) := by
  have closed {n : Nat} (h : recordNeedsStore s n = true → wr) (k : s.openAccount n = none) : wr :=
    h (recordNeedsStore_iff.2 k)
  cases r with
  | attach code clear => exact works_finishAttach (hw rfl) s writes code clear
  | add p =>
    refine works_addAccount s _ p fun hl ho => hw ?_
    simp [requestNeedsStore, recordNeedsStore, hl, ho]
  | setPassword n chars => exact works_editAccount (closed hw) (keepsRange_password chars)
  | change n f => exact works_editAccount (closed hw) (keepsRange_change hf)
  | grant n amount => exact works_editAccount (closed hw) (keepsRange_grant amount)
  | revoke n amount => exact works_editAccount (closed hw) (keepsRange_revoke amount)
  | forgive n => exact works_editAccount (closed hw) keepsRange_forgive
  | readAccount n => exact works_readAccount s n
  | readSlots first count => exact .answered s _ _ _
  | readAndClear n => exact works_readAndClear s _ n (closed hw)
  | replace slot image => exact works_replaceSlot (hw rfl) s _ slot image
  | retire n => exact works_retire s _ n (closed hw)
  | flush => exact (Works.moves (moves_flushEntries s)).respond _ _ _
  | discard n => exact works_discardOpen s n
  | restart => exact works_finishRestart s writes 0 fun _ => hw rfl

theorem works_inProgress {s : State} {op : Operation} (h : W → ∀ r, op = .supervisor r → requestFits r) :
    Works wr W s (s.inProgress op) :=
  .ctl { s.ctl with inProgress := some op } (.inl rfl) (.inr fun w r hr => h w r (Option.some.inj hr))

theorem works_startAttach (s : State) (code clear : Nat) : Works wr W s (startAttach s code clear) := by
  unfold startAttach
  split
  · exact .answered s _ _ _
  · have begun : Works wr W s (beginAttach s code) := works_onCtl rfl rfl
    refine begun.trans (works_inProgress fun _ r hr => ?_)
    cases hr
    trivial

theorem works_startRestart (s : State) : Works wr W s (startRestart s) := by
  unfold startRestart
  dsimp only
  split
  · rename_i h
    exact (works_beginRestart s).trans (works_finishRestart _ _ _ fun k => absurd h k)
  · exact (works_beginRestart s).trans (works_inProgress fun _ _ h => nomatch h)

/-- A request begins; what completes at once needs no store access. -/
theorem works_startRequest (s : State) {r : StoreReq} (hf : W → requestFits r) : Works wr W s (startRequest s r) := by
  unfold startRequest
  split
  · exact works_startAttach s _ _
  · exact works_startRestart s
  · split
    · refine works_inProgress fun w q hq => ?_
      cases hq
      exact hf w
    · rename_i h
      exact works_performRequest [] hf fun k => absurd k h

theorem works_startSignOn (s : State) (op : SignOnOp) : Works wr W s (startSignOn s op) := by
  unfold startSignOn
  split
  · exact works_inProgress fun _ _ h => nomatch h
  · rename_i h
    exact works_finishSignOn s _ op fun k => absurd (recordNeedsStore_iff.2 k) h

/-- A class begins its first operation (R11). -/
theorem works_beginClass {s t : State} {c : RotationClass} (h : beginClass s c = some t)
    (hf : W → ∀ r, s.ctl.waiting = some r → requestFits r) : Works wr W s t := by
  have pointed : Works wr W s (setPointer s c.following) := works_onCtl rfl rfl
  cases c with
  | signOn =>
    simp only [beginClass] at h
    split at h
    · cases h
    · cases h
      exact (pointed.trans (works_onCtl rfl rfl)).trans (works_startSignOn _ _)
  | writeBack =>
    simp only [beginClass] at h
    split at h
    · cases h
    · rename_i hl
      cases h
      exact pointed.trans (works_beginWriteBack hl)
  | supervisor =>
    simp only [beginClass] at h
    split at h
    · cases h
    · rename_i r hr
      cases h
      have taken : Works wr W (setPointer s .signOn) ((setPointer s .signOn).onCtl fun x => { x with waiting := none }) :=
        .ctl { (setPointer s .signOn).ctl with waiting := none } (.inr rfl) (.inl rfl)
      exact (pointed.trans taken).trans (works_startRequest _ fun w => hf w r hr)

/-- What the choice of the rotation can be: nothing, or a class begins its first operation (R11). -/
theorem rotationChoice_cases (s : State) :
    rotationChoice s = s ∨ s.ctl.inProgress = none ∧ ∃ c, beginClass s c = some (rotationChoice s) := by
  unfold rotationChoice
  cases hp : s.ctl.inProgress with
  | some op => exact .inl rfl
  | none =>
    dsimp only
    cases h1 : beginClass s s.ctl.rotation with
    | some t => exact .inr ⟨rfl, _, by simpa using h1⟩
    | none =>
      cases h2 : beginClass s s.ctl.rotation.following with
      | some t => exact .inr ⟨rfl, _, by simpa using h2⟩
      | none =>
        cases h3 : beginClass s s.ctl.rotation.following.following with
        | some t => exact .inr ⟨rfl, _, by simpa using h3⟩
        | none => exact .inl (by simp)

theorem works_rotationChoice (s : State) (hf : W → ∀ r, s.ctl.waiting = some r → requestFits r) :
    Works wr W s (rotationChoice s) := by
  rcases rotationChoice_cases s with h | ⟨_, c, hc⟩
  · rw [h]
    exact .refl s
  · exact works_beginClass hc hf

theorem works_completeOperation (hw : wr) (s : State) {op : Operation} (writes : List WriteOutcome)
    (hf : W → ∀ r, op = .supervisor r → requestFits r) : Works wr W s (completeOperation s op writes) := by
  cases op with
  | signOn op => exact works_finishSignOn s _ op fun _ => hw
  | writeBack e n slot a => exact works_finishWriteBack hw s writes e n slot a
  | supervisor r => exact works_performRequest writes (fun w => hf w r rfl) fun _ => hw
  | restart n => exact works_finishRestart s writes n fun _ => hw

theorem works_storeOperationComplete (hw : wr) (s : State) (writes : List WriteOutcome)
    (hf : W → ∀ r, s.ctl.inProgress = some (.supervisor r) → requestFits r) :
    Works wr W s (storeOperationComplete s writes) := by
  unfold storeOperationComplete
  split
  · exact .refl s
  · rename_i op hp
    have idle : Works wr W s (s.onCtl fun c => { c with inProgress := none }) :=
      .ctl { s.ctl with inProgress := none } (.inl rfl) (.inr fun _ _ h => nomatch h)
    exact idle.trans (works_completeOperation hw _ writes fun w r hr => hf w r (hr ▸ hp))

end

/-! ## The store is written by completions alone -/

theorem queueEntry_store (s : State) (e : EntryNo) : (queueEntry s e).store = s.store := by
  unfold queueEntry
  split <;> rfl

theorem leaveEntry_store (s : State) (e : EntryNo) : (leaveEntry s e).store = s.store := by
  unfold leaveEntry
  split
  · rfl
  · dsimp only
    split
    · split
      · rfl
      · exact queueEntry_store _ e
    · rfl

theorem store_lifts : Lifts fun s t => t.store = s.store where
  refl _ := rfl
  trans h k := k.trans h
  calm h := h.store
  edit _ _ := rfl
  queue := queueEntry_store
  leave := leaveEntry_store

theorem Works.store_eq {W : Prop} {s t : State} (h : Works False W s t) : t.store = s.store := by
  induction h with
  | trans _ _ ih1 ih2 => exact ih2.trans ih1
  | moves h => exact store_lifts.moves h
  | calm h => exact h.store
  | leave s e => exact leaveEntry_store s e
  | written _ hw _ => exact hw.elim
  | _ => rfl

theorem Acts.store_eq {W : Prop} {Op : State → State → Prop} (hop : ∀ s t, Op s t → t.store = s.store) {s t : State}
    (h : Acts W Op s t) : t.store = s.store := by
  induction h with
  | trans _ _ ih1 ih2 => exact ih2.trans ih1
  | moves h => exact store_lifts.moves h
  | op h => exact hop _ _ h
  | _ => rfl

/-- Settles O10: of what the commands are made of, only the completions write; a reset with no operation in progress writes none. -/
theorem storeWrittenOnlyByOperations : Obligations.StoreWrittenOnlyByOperations := by
  unfold Obligations.StoreWrittenOnlyByOperations
  intro i s t h hc hm hr
  by_cases hi : ∃ d m, i = .powerOnReset d m
  · obtain ⟨d, m, rfl⟩ := hi
    have idle : s.ctl.inProgress = none := hr.resolve_left fun k => k d m rfl
    cases h
    show abandonedStore s d m = s.store
    rw [abandonedStore, idle]
  · have acts : Acts False (fun s t => t.store = s.store) s t := by
      refine exec_acts h (fun d m k => hi ⟨d, m, k⟩) False.elim (fun s => ?_) fun s w hw => ?_
      · exact (works_rotationChoice (W := False) s False.elim).store_eq
      · rcases hw with rfl | ⟨order, rfl, hw⟩
        · exact absurd rfl (hc w)
        · exact absurd hw (hm order w rfl)
    exact acts.store_eq fun _ _ h => h

end Sys2Proof.Machine
end


/-! # Every step keeps the ranges -/

section
namespace Sys2Proof.Machine

/-- Each law of ranges is kept; that of the accounts with the calendar in range and `W` known. -/
structure Kept (W : Prop) (s t : State) : Prop where
  store : StoreCanonical s → StoreCanonical t
  residues : ResiduesInRange s → ResiduesInRange t
  list : WriteBackListOnce s → WriteBackListOnce t
  items : AccountItemsOrdered s → AccountItemsOrdered t
  flags : PortFlagsApart s → PortFlagsApart t
  policies : PoliciesInRange s → PoliciesInRange t
  params : ParamsInRange s → ParamsInRange t
  messages : MessagesFit s → MessagesFit t
  groups : GroupsInRange s → GroupsInRange t
  clock : ClockInRange s → ClockInRange t
  accounts : W → ClockInRange s → AccountsInRange s → AccountsInRange t

section
variable {W : Prop}

theorem Kept.refl (s : State) : Kept W s s := ⟨id, id, id, id, id, id, id, id, id, id, fun _ _ => id⟩

theorem Kept.trans {a b c : State} (h : Kept W a b) (k : Kept W b c) : Kept W a c where
  store := k.store ∘ h.store
  residues := k.residues ∘ h.residues
  list := k.list ∘ h.list
  items := k.items ∘ h.items
  flags := k.flags ∘ h.flags
  policies := k.policies ∘ h.policies
  params := k.params ∘ h.params
  messages := k.messages ∘ h.messages
  groups := k.groups ∘ h.groups
  clock := k.clock ∘ h.clock
  accounts w hc ha := k.accounts w (h.clock hc) (h.accounts w hc ha)

/-- What is known may be forgotten. -/
theorem Kept.of_accounts {s t : State} (h : Kept (AccountsInRange s ∧ ClockInRange s) s t) : Kept W s t :=
  { h with accounts := fun _ hc ha => h.accounts ⟨ha, hc⟩ hc ha }

theorem kept_calm {s t : State} (h : Calm s t) : Kept W s t where
  store k := by rw [StoreCanonical, h.store]; exact k
  residues k l := h.residue l (k l)
  list k := by rw [WriteBackListOnce, h.oat]; exact k
  items k := by rw [AccountItemsOrdered, h.accounts]; exact k
  flags k := by rw [PortFlagsApart, h.sup]; exact k
  policies k := by rw [PoliciesInRange, h.cal]; exact k
  params k := by rw [ParamsInRange, h.params]; exact k
  messages k := by rw [MessagesFit, h.messages]; exact k
  groups k := (groupsInRange_iff t).2 fun g => h.group g ((groupsInRange_iff s).1 k g)
  clock k := by rw [ClockInRange, h.cal]; exact k
  accounts _ _ k := by
    obtain ⟨k1, k2, k3⟩ := k
    refine ⟨fun e x hx => k1 e x ?_, fun r hr => k2 r ?_, fun r hr => k3 r ?_⟩
    · rwa [State.entry, h.oat] at hx
    · rwa [h.ctl] at hr
    · rwa [h.ctl] at hr

/-- A change of the Open Account Table alone: the list stays free of duplicates, the entries in range. -/
theorem kept_oat {s t : State} (ht : t = { s with oat := t.oat }) (hl : WriteBackListOnce s → WriteBackListOnce t)
    (he : W → ClockInRange s → AccountsInRange s → ∀ e x, t.entry e = some x → x.InRange) : Kept W s t := by
  generalize t.oat = o at ht
  subst ht
  exact { Kept.refl (W := W) s with list := hl, accounts := fun w hc ha => ⟨he w hc ha, ha.2⟩ }

theorem kept_setEntry {s : State} {e : EntryNo} {y : Option OatEntry}
    (h : W → ClockInRange s → AccountsInRange s → ∀ x, y = some x → x.InRange) : Kept W s (s.setEntry e y) := by
  refine kept_oat rfl id fun w hc ha k x hx => ?_
  rw [setEntry_entry] at hx
  split at hx
  · exact h w hc ha x hx
  · exact ha.1 k x hx

theorem kept_writeBackList {s : State} {l : List EntryNo} (h : s.oat.writeBackList.Nodup → l.Nodup) :
    Kept W s { s with oat := { s.oat with writeBackList := l } } :=
  kept_oat rfl h fun _ _ ha => ha.1

theorem kept_modEntry {s : State} {e : EntryNo} {f : OatEntry → OatEntry} (h : ∀ x, x.InRange → (f x).InRange) :
    Kept W s (s.modEntry e f) :=
  kept_setEntry fun _ _ ha x hx => by
    obtain ⟨z, hz, rfl⟩ := Option.map_eq_some_iff.1 hx
    exact h z (ha.1 e z hz)

theorem kept_queueEntry (s : State) (e : EntryNo) : Kept W s (queueEntry s e) := by
  unfold queueEntry
  split
  · exact .refl s
  · rename_i hq
    refine (kept_writeBackList fun h => ?_).trans (kept_modEntry fun _ hx => hx)
    have : e ∉ s.oat.writeBackList := by simpa [State.queued] using hq
    exact List.nodup_append.2 ⟨h, List.nodup_singleton e, by grind⟩

theorem kept_leaveEntry (s : State) (e : EntryNo) : Kept W s (leaveEntry s e) := by
  unfold leaveEntry
  split
  · exact .refl s
  · rename_i x hx
    have same : ∀ y : OatEntry, y.account = x.account → y.acct = x.acct → Kept W s (s.setEntry e (some y)) := by
      refine fun y h1 h2 => kept_setEntry fun _ _ ha z hz => ?_
      obtain rfl := Option.some.inj hz
      rw [OatEntry.InRange, h1, h2]
      exact ha.1 e x hx
    dsimp only
    split
    · split
      · exact same _ rfl rfl
      · have closed := same { x with count := 0, state := .closing } rfl rfl
        exact closed.trans (kept_queueEntry _ e)
    · exact same _ rfl rfl

theorem kept_lifts : Lifts (Kept W) where
  refl := Kept.refl
  trans := Kept.trans
  calm := kept_calm
  edit {s e x y} hx he := kept_setEntry fun _ _ ha z hz => by
    obtain rfl := Option.some.inj hz
    obtain ⟨h1, h2, h3⟩ := ha.1 e x hx
    rw [he.rest]
    exact ⟨h1, h2, he.range h3⟩
  queue := kept_queueEntry
  leave := kept_leaveEntry

/-! ## The ACCOUNT items -/

theorem mergeAccountItem_mem {n : Nat} {cause : BitVec 3} {is : List AccountItem} {m : Nat}
    (h : m ∈ (mergeAccountItem n cause is).map (fun i => i.account)) : m = n ∨ m ∈ is.map (fun i => i.account) := by
  induction is with
  | nil => simpa [mergeAccountItem] using h
  | cons i is ih =>
    unfold mergeAccountItem at h
    split at h
    · exact .inr (by simpa using h)
    · split at h
      · simpa using h
      · simp only [List.map_cons, List.mem_cons] at h ⊢
        rcases h with h | h
        · exact .inr (.inl h)
        · exact (ih h).imp_right .inr

theorem mergeAccountItem_pairwise {is : List AccountItem} (n : Nat) (cause : BitVec 3)
    (h : (is.map (fun i => i.account)).Pairwise (· < ·)) :
    ((mergeAccountItem n cause is).map (fun i => i.account)).Pairwise (· < ·) := by
  induction is with
  | nil => simp [mergeAccountItem]
  | cons i is ih =>
    obtain ⟨hi, his⟩ := List.pairwise_cons.1 h
    unfold mergeAccountItem
    split
    · exact h
    · split
      · rename_i hlt
        refine List.pairwise_cons.2 ⟨fun m hm => ?_, h⟩
        rcases List.mem_cons.1 hm with rfl | hm
        · exact hlt
        · exact hlt.trans (hi m hm)
      · refine List.pairwise_cons.2 ⟨fun m hm => ?_, ih his⟩
        rcases mergeAccountItem_mem hm with rfl | hm
        · show i.account < m
          omega
        · exact hi m hm

/-- A merge adds an item only where none holds the account. -/
theorem length_mergeAccountItem (n : Nat) (cause : BitVec 3) (is : List AccountItem) :
    (mergeAccountItem n cause is).length ≤ is.length + 1 := by
  induction is with
  | nil => exact Nat.le_refl _
  | cons i is ih =>
    unfold mergeAccountItem
    split
    · exact Nat.le_succ _
    · split
      · exact Nat.le_refl _
      · exact Nat.succ_le_succ ih

theorem length_mergeAccountItem_held {n : Nat} {is : List AccountItem} (cause : BitVec 3)
    (ho : (is.map (fun i => i.account)).Pairwise (· < ·)) (h : n ∈ is.map (fun i => i.account)) :
    (mergeAccountItem n cause is).length = is.length := by
  induction is with
  | nil => cases h
  | cons i is ih =>
    obtain ⟨hi, his⟩ := List.pairwise_cons.1 ho
    unfold mergeAccountItem
    split
    · rfl
    · rename_i hne
      have later : n ∈ is.map (fun i => i.account) := (List.mem_cons.1 h).resolve_left hne
      split
      · have : i.account < n := hi n later
        omega
      · exact congrArg (· + 1) (ih his later)

/-- A raised ACCOUNT item keeps the order and the bound of 16 (R203). -/
theorem raiseAccount_ordered {s : State} (n : Nat) (cause : BitVec 3) (h : AccountItemsOrdered s) :
    AccountItemsOrdered (raiseAccount s n cause) := by
  obtain ⟨hlen, hord⟩ := h
  show (s.attn.raiseAccount n cause).accounts.length ≤ _ ∧
    ((s.attn.raiseAccount n cause).accounts.map (fun i => i.account)).Pairwise (· < ·)
  unfold Attention.raiseAccount
  split
  · rename_i hroom
    refine ⟨?_, mergeAccountItem_pairwise n cause hord⟩
    by_cases held : n ∈ s.attn.accounts.map (fun i => i.account)
    · show (mergeAccountItem n cause s.attn.accounts).length ≤ _
      rw [length_mergeAccountItem_held cause hord held]
      exact hlen
    · have room : s.attn.accounts.length < Config.maxAccountItems := by
        simp only [Bool.or_eq_true, decide_eq_true_eq, List.any_eq_true] at hroom
        refine hroom.resolve_left fun ⟨i, hi, hn⟩ => held ?_
        exact List.mem_map.2 ⟨i, hi, hn⟩
      exact (length_mergeAccountItem n cause _).trans room
  · exact ⟨hlen, hord⟩

/-! ## Every store operation and every other command -/

theorem Works.kept {s t : State} (h : Works True W s t) : Kept W s t := by
  induction h with
  | refl s => exact .refl s
  | trans _ _ ih1 ih2 => exact ih1.trans ih2
  | moves h => exact kept_lifts.moves h
  | calm h => exact kept_calm h
  | leave s e => exact kept_leaveEntry s e
  | entry h =>
    refine kept_setEntry fun w hc ha x hx => ?_
    obtain rfl := Option.some.inj hx
    exact h w ha hc
  | free s e =>
    have freed : Kept W s (s.setEntry e none) := kept_setEntry fun _ _ _ _ h => nomatch h
    exact freed.trans (kept_writeBackList fun h => h.filter _)
  | begun h => exact kept_writeBackList fun k => (List.nodup_cons.1 (h ▸ k)).2
  | drained s => exact kept_writeBackList fun _ => List.nodup_nil
  | @ctl s c hwait hprog =>
    refine { Kept.refl (W := W) s with accounts := fun w _ ⟨h1, h2, h3⟩ => ⟨h1, fun r hr => ?_, fun r hr => ?_⟩ }
    · rcases hwait with hwait | hwait
      · exact h2 r (hwait ▸ hr)
      · cases hwait.symm.trans hr
    · rcases hprog with hprog | hprog
      · exact h3 r (hprog ▸ hr)
      · exact hprog w r hr
  | account s n cause => exact { Kept.refl (W := W) s with items := raiseAccount_ordered n cause }
  | cleared s => exact { Kept.refl (W := W) s with items := fun _ => ⟨Nat.zero_le _, .nil⟩ }
  | answered s c clamped result => exact { Kept.refl (W := W) s with flags := fun _ h => nomatch h.1 }
  | closed s => exact { Kept.refl (W := W) s with }
  | @written s m _ h => exact { Kept.refl (W := W) s with store := h }

theorem Acts.kept {Op : State → State → Prop} (hop : ∀ s t, Op s t → Kept W s t) {s t : State} (h : Acts W Op s t) :
    Kept W s t := by
  induction h with
  | refl s => exact .refl s
  | trans _ _ ih1 ih2 => exact ih1.trans ih2
  | moves h => exact kept_lifts.moves h
  | op h => exact hop _ _ h
  | @answer s l _ =>
    have calm : Calm s (s.modLine l (answeredLine s.lc.params.answerLimit)) := calm_modLine fun _ => Nat.zero_lt_succ _
    exact { kept_calm (W := W) calm with }
  | port p h => exact { Kept.refl (W := W) _ with flags := h }
  | calendar c hp hc => exact { Kept.refl (W := W) _ with policies := hp, clock := hc }
  | params p h => exact { Kept.refl (W := W) _ with params := fun k => h.resolve_right (not_not.2 k) }
  | @message s m text h =>
    refine { Kept.refl (W := W) s with messages := fun k n => ?_ }
    show ((s.lc.messages.set m text).get n).length ≤ _
    rw [vector_get_set]
    split
    · exact h
    · exact k n
  | @attention s a h =>
    refine { Kept.refl (W := W) s with items := fun k => ?_ }
    show a.accounts.length ≤ _ ∧ _
    rcases h with h | h
    · rw [h]; exact k
    · rw [h, List.map_tail]
      exact ⟨List.length_tail.trans_le ((Nat.sub_le _ _).trans k.1), k.2.tail⟩
  | wait r h =>
    refine { Kept.refl (W := W) _ with accounts := fun w _ ⟨h1, _, h3⟩ => ⟨h1, fun q hq => ?_, h3⟩ }
    obtain rfl := Option.some.inj hq
    exact h w

/-- A power-on reset leaves the store canonical, and everything else as at reset. -/
theorem kept_powerOnReset (s : State) (done : Nat) (torn : List Bool) : Kept W s (powerOnReset s done torn) := by
  obtain ⟨_, hres, hlist, hitems, hpol, hclock, hmsg, hpar, hgrp, hacc, hflags, _⟩ := resetMeetsLaws
  refine ⟨fun h => ?_, fun _ => hres, fun _ => hlist, fun _ => hitems, fun _ => hflags, fun _ => hpol, fun _ => hpar,
    fun _ => hmsg, fun _ => hgrp, fun _ => hclock, fun _ _ _ => hacc⟩
  show storeWf (abandonedStore s done torn) = true
  unfold abandonedStore
  split
  · exact h
  · exact (works_completeOperation (wr := True) (W := False) trivial _ _ False.elim).kept.store h

end

theorem exec_kept {i : Instr} {s t : State} (h : exec i s = .next t) : Kept (i.wellFormed = true) s t := by
  by_cases hi : ∃ d m, i = .powerOnReset d m
  · obtain ⟨d, m, rfl⟩ := hi
    cases h
    exact kept_powerOnReset s d m
  · refine (exec_acts (Op := Kept (i.wellFormed = true)) h (fun d m k => hi ⟨d, m, k⟩) id (fun s => ?_) fun s w _ => ?_).kept
      fun _ _ k => k
    · exact (works_rotationChoice (wr := True) s fun k => k.1.2.1).kept.of_accounts
    · exact (works_storeOperationComplete (wr := True) trivial s w fun k => k.1.2.2).kept.of_accounts

/-- Settles O5: each law is followed through what the commands are made of (`Acts`, `Works`, `Moves`). -/
theorem recordsStayInRange : Obligations.RecordsStayInRange := by
  unfold Obligations.RecordsStayInRange
  intro s t h
  unfold step at h
  split at h
  · cases h
    exact ⟨id, id, id, id, id, id, id, id, id, id, fun ha _ _ => ha⟩
  · rename_i c rest hp
    have k := exec_kept h
    exact ⟨k.store, k.residues, k.list, k.items, k.flags, k.policies, k.params, k.messages, k.groups, k.clock,
      fun ha hc hw => k.accounts (hw c (hp ▸ List.mem_cons_self)) hc ha⟩

end Sys2Proof.Machine
end


/-! # Lines, ports and queue places: what the sessions need of them

The law of links holds in one direction at a time, so that it survives the middle of a settlement: a port names a line only while the
line names it in a stage that holds a port, and a place stands in a queue only for a line that waits for that group. -/

section
namespace Sys2Proof.Machine

/-- The lines of a group's queue. -/
def State.places (s : State) (g : GroupNo) : List LineNo := (s.group g).queue.map (fun q => q.line)

/-- See the head of this part (R145, R153). -/
structure Links (s : State) : Prop where
  named : ∀ {p l}, (s.port p).line = some l → (s.line l).key.port = some p ∧ (s.line l).key.holdsPort = true
  busy : ∀ {p}, (s.port p).line.isSome → (s.port p).state = .calling ∨ (s.port p).state = .inUse
  placed : ∀ {g l}, l ∈ s.places g → (s.line l).key.waiting = true ∧ (s.line l).key.selectedGroup = some g
  once : ∀ g, (s.places g).Nodup
  holds : ∀ l, (s.line l).key.port.isSome = true → (s.line l).key.holdsPort = true

theorem links_of_lawful {s : State} (h : LinksLawful s) : Links s := by
  obtain ⟨ports, _, ⟨queues, waits⟩, _, lines⟩ := h
  have holds : ∀ l, (s.line l).port.isSome = true → (s.line l).phase.holdsPort = true := fun l hl => (lines l).1 ▸ hl
  refine ⟨fun {p l} hp => ?_, fun {p} hp => (ports p 0).2.2.1 hp, fun {g l} hl => ?_, fun g => (queues g).1, holds⟩
  · have back := (ports p l).1.1 hp
    exact ⟨back, holds l (by simp [back])⟩
  · obtain ⟨hw, hg⟩ := (waits g l).1 hl
    exact ⟨decide_eq_true hw, hg⟩

/-! ## Keys -/

theorem key_holdsPort_admitted {r : LineRec} (h : r.key.holdsPort = true) : r.key.admitted = true := by
  rcases r with ⟨_ | _ | _ | st | st | _ | _⟩ <;> first | rfl | cases h

theorem key_waiting_iff {r : LineRec} : r.key.waiting = true ↔ r.phase = .admitted .waiting := decide_eq_true_iff

theorem key_waiting_admitted {r : LineRec} (h : r.key.waiting = true) : r.key.admitted = true := by
  show r.phase.isAdmitted = true
  rw [key_waiting_iff.1 h]
  rfl

theorem key_waiting_holdsPort {r : LineRec} (h : r.key.waiting = true) : r.key.holdsPort = false := by
  show r.phase.holdsPort = false
  rw [key_waiting_iff.1 h]
  rfl

theorem key_admitted_inCall {r : LineRec} (h : r.key.admitted = true) : r.key.inCall = true := by
  rcases r with ⟨_ | _ | _ | st | st | _ | _⟩ <;> first | rfl | cases h

/-! ## Lines that no port and no queue names -/

/-- No port names the line, and it has no place in a queue. -/
def Unclaimed (s : State) (l : LineNo) : Prop := (∀ p, (s.port p).line ≠ some l) ∧ ∀ g, l ∉ s.places g

theorem Links.unclaimed {s : State} (h : Links s) {l : LineNo} (hp : (s.line l).key.holdsPort = false)
    (hw : (s.line l).key.waiting = false) : Unclaimed s l := by
  refine ⟨fun p hl => ?_, fun g hl => ?_⟩
  · rw [(h.named hl).2] at hp
    cases hp
  · rw [(h.placed hl).1] at hw
    cases hw

/-- Each line references the entry it did, and is in call and ADMITTED as it was. -/
structure SameRole (s t : State) : Prop where
  entryRef : ∀ k, (t.line k).key.entryRef = (s.line k).key.entryRef
  admitted : ∀ k, (t.line k).key.admitted = (s.line k).key.admitted
  inCall : ∀ k, (t.line k).key.inCall = (s.line k).key.inCall

theorem SameRole.refl (s : State) : SameRole s s := ⟨fun _ => rfl, fun _ => rfl, fun _ => rfl⟩

theorem SameRole.trans {a b c : State} (h : SameRole a b) (k : SameRole b c) : SameRole a c :=
  ⟨fun l => (k.entryRef l).trans (h.entryRef l), fun l => (k.admitted l).trans (h.admitted l),
    fun l => (k.inCall l).trans (h.inCall l)⟩

theorem sameRole_of_keys {s t : State} (h : ∀ k, (t.line k).key = (s.line k).key) : SameRole s t :=
  ⟨fun k => by rw [h k], fun k => by rw [h k], fun k => by rw [h k]⟩

/-- What leaves the Line Controller alone changes no role. -/
theorem SameRole.of_lc {s t u : State} (k : SameRole t u) (h : t.lc = s.lc) : SameRole s u := by
  have same : SameRole s t := sameRole_of_keys fun l => by simp [State.line, h]
  exact same.trans k

/-- What leaves lines, ports and groups alone keeps every key. -/
theorem keysKept_of_parts {s t : State} (hl : t.lc.lines = s.lc.lines) (hp : t.pa.ports = s.pa.ports)
    (hg : t.pa.groups = s.pa.groups) : KeysKept s t where
  line l := by simp [State.line, LineCtl.line, hl]
  port p := by simp [State.port, hp]
  busy p _ h := by simpa [State.port, hp] using h
  queue g := by simp [State.group, hg]

theorem KeysKept.trans {a b c : State} (h : KeysKept a b) (k : KeysKept b c) : KeysKept a c where
  line l := (k.line l).trans (h.line l)
  port p := (k.port p).trans (h.port p)
  busy p hs hb := k.busy p (by rw [h.port]; exact hs) (h.busy p hs hb)
  queue g := (k.queue g).trans (h.queue g)

theorem keysKept_modLine {s : State} {l : LineNo} {f : LineRec → LineRec} (h : (f (s.line l)).key = (s.line l).key) :
    KeysKept s (s.modLine l f) :=
  { KeysKept.refl s with
    line := fun k => by
      rw [modLine_line]
      split
      · subst_vars; exact h
      · rfl }

theorem keysKept_modGroup {s : State} {g : GroupNo} {f : GroupRec → GroupRec} (h : (f (s.group g)).queue = (s.group g).queue) :
    KeysKept s (s.modGroup g f) :=
  { KeysKept.refl s with
    queue := fun k => by
      rw [modGroup_group]
      split
      · subst_vars; rw [h]
      · rfl }

/-- A line that was ADMITTED enters another stage of it. -/
theorem sameRole_modLine {s : State} {l : LineNo} {f : LineRec → LineRec} (he : (f (s.line l)).key.entryRef = (s.line l).key.entryRef)
    (ha : (s.line l).key.admitted = true) (hf : (f (s.line l)).key.admitted = true) : SameRole s (s.modLine l f) := by
  refine ⟨fun k => ?_, fun k => ?_, fun k => ?_⟩ <;> rw [modLine_line] <;> split <;> try rfl
  · subst_vars; exact he
  · subst_vars; rw [ha, hf]
  · subst_vars; rw [key_admitted_inCall ha, key_admitted_inCall hf]

theorem places_of_groups {s t : State} (h : t.pa.groups = s.pa.groups) (g : GroupNo) : t.places g = s.places g := by
  simp [State.places, State.group, h]

theorem places_modGroup (s : State) (g k : GroupNo) (f : GroupRec → GroupRec) :
    (s.modGroup g f).places k = if k = g then (f (s.group g)).queue.map (fun q => q.line) else s.places k := by
  rw [State.places, modGroup_group]
  split <;> rfl

theorem links_keysKept {s t : State} (h : Links s) (k : KeysKept s t) : Links t := by
  have places : ∀ g, t.places g = s.places g := k.queue
  refine ⟨fun {p l} hp => ?_, fun {p} hp => ?_, fun {g l} hl => ?_, fun g => ?_, fun l hl => ?_⟩
  · rw [k.port] at hp
    rw [k.line]
    exact h.named hp
  · rw [k.port] at hp
    exact k.busy p hp (h.busy hp)
  · rw [places] at hl
    rw [k.line]
    exact h.placed hl
  · rw [places]
    exact h.once g
  · rw [k.line] at hl ⊢
    exact h.holds l hl

theorem Unclaimed.keysKept {s t : State} {l : LineNo} (h : Unclaimed s l) (k : KeysKept s t) : Unclaimed t l :=
  ⟨fun p => by rw [k.port]; exact h.1 p, fun g => by rw [show t.places g = s.places g from k.queue g]; exact h.2 g⟩

/-- An unclaimed line changes as it likes, if it names a port only in a stage that holds one. -/
theorem Links.modLine {s : State} (h : Links s) {l : LineNo} (hl : Unclaimed s l) {f : LineRec → LineRec}
    (hf : (f (s.line l)).key.port.isSome = true → (f (s.line l)).key.holdsPort = true) : Links (s.modLine l f) := by
  refine ⟨fun {p k} hp => ?_, h.busy, fun {g k} hk => ?_, h.once, fun k hk => ?_⟩
  · have hkl : k ≠ l := by rintro rfl; exact hl.1 p hp
    rw [modLine_line, if_neg hkl]
    exact h.named hp
  · have hkl : k ≠ l := by rintro rfl; exact hl.2 g hk
    rw [modLine_line, if_neg hkl]
    exact h.placed hk
  · rw [modLine_line] at hk ⊢
    split
    · rename_i hkl
      rw [if_pos hkl] at hk
      exact hf hk
    · rename_i hkl
      rw [if_neg hkl] at hk
      exact h.holds k hk

theorem Unclaimed.modLine {s : State} {l : LineNo} (h : Unclaimed s l) (k : LineNo) (f : LineRec → LineRec) :
    Unclaimed (s.modLine k f) l := h

/-- A port gives up its line, whatever becomes of its state. -/
theorem Links.freePort {s : State} (h : Links s) {p : PortNo} {f : PortRec → PortRec} (hf : (f (s.port p)).line = none) :
    Links (s.modPort p f) := by
  have other : ∀ {q l}, ((s.modPort p f).port q).line = some l → q ≠ p ∧ (s.port q).line = some l := by
    intro q l hq
    rw [modPort_port] at hq
    split at hq
    · rw [hf] at hq; cases hq
    · exact ⟨by assumption, hq⟩
  refine ⟨fun {q l} hq => h.named (other hq).2, fun {q} hq => ?_, h.placed, h.once, h.holds⟩
  obtain ⟨l, hl⟩ := Option.isSome_iff_exists.1 hq
  obtain ⟨hne, hl'⟩ := other hl
  rw [modPort_port, if_neg hne]
  exact h.busy (by rw [hl']; rfl)

/-- The line of a port that gives it up is unclaimed. -/
theorem Links.unclaimed_freePort {s : State} (h : Links s) {p : PortNo} {l : LineNo} (hl : (s.port p).line = some l)
    {f : PortRec → PortRec} (hf : (f (s.port p)).line = none) : Unclaimed (s.modPort p f) l := by
  obtain ⟨hp, hh⟩ := h.named hl
  refine ⟨fun q hq => ?_, fun g hg => ?_⟩
  · rw [modPort_port] at hq
    split at hq
    · rw [hf] at hq; cases hq
    · have := (h.named hq).1
      rw [hp] at this
      cases this
      contradiction
  · have := key_waiting_holdsPort (h.placed hg).1
    rw [hh] at this
    cases this

theorem Unclaimed.freePort {s : State} {l : LineNo} (h : Unclaimed s l) {p : PortNo} {f : PortRec → PortRec}
    (hf : (f (s.port p)).line = none) : Unclaimed (s.modPort p f) l := by
  refine ⟨fun q hq => ?_, h.2⟩
  rw [modPort_port] at hq
  split at hq
  · rw [hf] at hq; cases hq
  · exact h.1 q hq

/-- Places are taken off a queue. -/
theorem Links.lessQueue {s : State} (h : Links s) {g : GroupNo} {f : GroupRec → GroupRec}
    (hf : ((f (s.group g)).queue.map (fun q => q.line)).Sublist (s.places g)) : Links (s.modGroup g f) := by
  refine ⟨h.named, h.busy, fun {k l} hl => ?_, fun k => ?_, h.holds⟩
  · rw [places_modGroup] at hl
    split at hl
    · subst_vars; exact h.placed (hf.subset hl)
    · exact h.placed hl
  · rw [places_modGroup]
    split
    · exact (h.once g).sublist hf
    · exact h.once k

/-- A line whose place is taken off the queue of its group is unclaimed. -/
theorem Links.unclaimed_lessQueue {s : State} (h : Links s) {g : GroupNo} {l : LineNo} (hw : (s.line l).key.waiting = true)
    (hs : (s.line l).key.selectedGroup = some g) {f : GroupRec → GroupRec}
    (hf : l ∉ (f (s.group g)).queue.map (fun q => q.line)) : Unclaimed (s.modGroup g f) l := by
  refine ⟨fun p hp => ?_, fun k hk => ?_⟩
  · have := (h.named hp).2
    rw [key_waiting_holdsPort hw] at this
    cases this
  · rw [places_modGroup] at hk
    split at hk
    · exact hf hk
    · have := (h.placed hk).2
      rw [hs] at this
      cases this
      contradiction

/-! ## Offers and places -/

/-- An unclaimed line is offered to a port that names none. -/
theorem links_offerPort {s : State} (h : Links s) {p : PortNo} {l : LineNo} {st : AdmittedStage} (hl : Unclaimed s l)
    (hst : (Phase.admitted st).holdsPort = true) : Links (offerPort s p l st) := by
  have line : ∀ k, ((offerPort s p l st).line k) = if k = l then { s.line l with phase := .admitted st, port := some p, stageTimer := none } else s.line k := by
    intro k
    unfold offerPort
    simp only [issuePort_line_of, modLine_line, modPort_line_of]
  have port : ∀ q, ((offerPort s p l st).port q) = if q = p then { s.port p with state := .calling, line := some l, callTimer := some s.lc.params.callLimit } else s.port q := by
    intro q
    unfold offerPort
    simp only [issuePort_port, modLine_port_of, modPort_port]
  refine ⟨fun {q k} hq => ?_, fun {q} hq => ?_, fun {g k} hk => ?_, h.once, fun k hk => ?_⟩
  · rw [port] at hq
    split at hq
    · obtain rfl := Option.some.inj hq
      rw [line, if_pos rfl]
      subst_vars
      exact ⟨rfl, hst⟩
    · have hkl : k ≠ l := by rintro rfl; exact hl.1 q hq
      rw [line, if_neg hkl]
      exact h.named hq
  · rw [port] at hq ⊢
    split
    · exact .inl rfl
    · rename_i hqp
      rw [if_neg hqp] at hq
      exact h.busy hq
  · have hkl : k ≠ l := by rintro rfl; exact hl.2 g hk
    rw [line, if_neg hkl]
    exact h.placed hk
  · rw [line] at hk ⊢
    split
    · exact hst
    · rename_i hkl
      rw [if_neg hkl] at hk
      exact h.holds k hk

theorem sameRole_offerPort {s : State} {l : LineNo} (ha : (s.line l).key.admitted = true) (p : PortNo) (st : AdmittedStage) :
    SameRole s (offerPort s p l st) := by
  have named : SameRole s (s.modPort p (fun x => { x with state := .calling, line := some l, callTimer := some s.lc.params.callLimit })) :=
    sameRole_of_keys fun _ => rfl
  have staged := sameRole_modLine (s := s.modPort p (fun x => { x with state := .calling, line := some l, callTimer := some s.lc.params.callLimit }))
    (l := l) (f := fun r => { r with phase := .admitted st, port := some p, stageTimer := none }) rfl ha rfl
  exact (named.trans staged).trans (sameRole_of_keys fun _ => rfl)

theorem insertJoin_perm (q : Place) (queue : List Place) : (insertJoin q queue).Perm (q :: queue) := by
  have suffix : (queue.reverse.takeWhile (fun x => decide (q.priority < x.priority))).reverse <:+ queue := by
    simpa using List.reverse_suffix.2 (List.takeWhile_prefix (l := queue.reverse) (fun x => decide (q.priority < x.priority)))
  unfold insertJoin
  dsimp only
  generalize (queue.reverse.takeWhile (fun x => decide (q.priority < x.priority))).reverse = behind at suffix ⊢
  obtain ⟨front, rfl⟩ := suffix
  have ahead : (front ++ behind).take ((front ++ behind).length - behind.length) = front := by simp
  rw [ahead]
  exact List.perm_middle

theorem insertRejoin_perm (q : Place) (queue : List Place) : (insertRejoin q queue).Perm (q :: queue) := by
  unfold insertRejoin
  refine List.perm_middle.trans ?_
  rw [List.takeWhile_append_dropWhile]

/-- An unclaimed ADMITTED line joins the queue of its group. -/
theorem links_waitInQueue {s : State} (h : Links s) {g : GroupNo} {l : LineNo} (hl : Unclaimed s l)
    (hs : (s.line l).key.selectedGroup = some g) {ins : Place → List Place → List Place}
    (hi : ∀ q queue, (ins q queue).Perm (q :: queue)) : Links (waitInQueue s g l ins) := by
  unfold waitInQueue
  extract_lets place queue position s1 s2
  have lines : ∀ k, s2.places k = if k = g then queue.map (fun q => q.line) else s.places k := by
    intro k
    show s1.places k = _
    rw [places_modGroup]
    split
    · have edge : ∀ x : GroupRec, (countEdge x).queue = x.queue := by
        intro x
        unfold countEdge
        split <;> rfl
      rw [edge]
      exact announce_lines l position queue
    · rfl
  have perm : (queue.map (fun q => q.line)).Perm (l :: s.places g) := (hi place (s.group g).queue).map _
  have waits : Links s2 := by
    have line : ∀ k, s2.line k = if k = l then _ else s.line k := fun k => modLine_line s1 l k _
    refine ⟨fun {p k} hp => ?_, h.busy, fun {k j} hj => ?_, fun k => ?_, fun k hk => ?_⟩
    · have hkl : k ≠ l := by rintro rfl; exact hl.1 p hp
      rw [line, if_neg hkl]
      exact h.named hp
    · rw [lines] at hj
      by_cases hjl : j = l
      · subst hjl
        rw [line, if_pos rfl]
        split at hj
        · subst_vars; exact ⟨rfl, hs⟩
        · exact absurd hj (hl.2 k)
      · rw [line, if_neg hjl]
        split at hj
        · subst_vars
          exact h.placed ((List.mem_cons.1 (perm.subset hj)).resolve_left hjl)
        · exact h.placed hj
    · rw [lines]
      split
      · exact perm.nodup_iff.2 (List.nodup_cons.2 ⟨hl.2 g, h.once g⟩)
      · exact h.once k
    · rw [line] at hk ⊢
      split
      · rename_i hkl
        rw [if_pos hkl] at hk
        cases hk
      · rename_i hkl
        rw [if_neg hkl] at hk
        exact h.holds k hk
  exact links_keysKept waits { KeysKept.refl s2 with line := fun k => ((hush_request s2.lc l 5 position).line k).key }

theorem sameRole_waitInQueue {s : State} {l : LineNo} (ha : (s.line l).key.admitted = true) (g : GroupNo)
    (ins : Place → List Place → List Place) : SameRole s (waitInQueue s g l ins) := by
  unfold waitInQueue
  extract_lets place queue position s1 s2
  have grouped : SameRole s s1 := sameRole_of_keys fun _ => rfl
  have staged : SameRole s1 s2 := sameRole_modLine rfl ha rfl
  exact (grouped.trans staged).trans (sameRole_of_keys fun k => ((hush_request s2.lc l 5 position).line k).key)

/-- A port that names no line serves the head of its group's queue (R157). -/
theorem links_serveQueue {s : State} (h : Links s) (p : PortNo) :
    Links (serveQueue s p) ∧ SameRole s (serveQueue s p) := by
  unfold serveQueue
  split
  · exact ⟨h, .refl s⟩
  · rename_i g _
    split
    · split
      · exact ⟨h, .refl s⟩
      · rename_i q rest hq
        have here : q.line ∈ s.places g := by simp [State.places, hq]
        obtain ⟨hw, hs⟩ := h.placed here
        have once := h.once g
        rw [State.places, hq, List.map_cons, List.nodup_cons] at once
        have less : Links (s.modGroup g (fun x => { x with queue := rest })) :=
          h.lessQueue (by simp [State.places, hq])
        have free : Unclaimed (s.modGroup g (fun x => { x with queue := rest })) q.line :=
          h.unclaimed_lessQueue hw hs once.1
        refine ⟨links_offerPort less free rfl, ?_⟩
        have adm : ((s.modGroup g (fun x => { x with queue := rest })).line q.line).key.admitted = true := key_waiting_admitted hw
        exact (sameRole_offerPort adm p .calling).of_lc rfl
    · exact ⟨h, .refl s⟩

/-- A port that names no line takes the state its host gives. -/
theorem links_portByReady {s : State} (h : Links s) {p : PortNo} (hp : (s.port p).line = none) :
    Links (portByReady s p) ∧ SameRole s (portByReady s p) := by
  unfold portByReady
  split
  · obtain ⟨hl, hr⟩ := links_serveQueue (h.freePort (f := fun x => { x with state := .free }) hp) p
    exact ⟨hl, hr.of_lc rfl⟩
  · exact ⟨h.freePort hp, sameRole_of_keys fun _ => rfl⟩

theorem failPort_line (s : State) (p : PortNo) (cause : Option FaultCause) (k : LineNo) : (failPort s p cause).line k = s.line k := by
  cases cause <;> rfl

/-- A port that fails gives up its line (R152, R171). -/
theorem links_failPort {s : State} (h : Links s) (p : PortNo) (cause : Option FaultCause) : Links (failPort s p cause) := by
  have hung : Links (hangUp s p) :=
    links_keysKept (h.freePort (f := fun x => { x with line := none, callTimer := none }) rfl) (keysKept_of_parts rfl rfl rfl)
  have free : ((hangUp s p).port p).line = none := by simp [hangUp]
  cases cause with
  | none => exact hung.freePort (f := fun x => { x with state := .outOfService }) free
  | some c => exact links_keysKept (hung.freePort (f := fun x => { x with state := .faulted, faultCause := some c }) free) (keysKept_of_parts rfl rfl rfl)

theorem unclaimed_failPort {s : State} (h : Links s) {p : PortNo} {l : LineNo} (hl : (s.port p).line = some l)
    (cause : Option FaultCause) : Unclaimed (failPort s p cause) l := by
  have hung : Unclaimed (hangUp s p) l :=
    (h.unclaimed_freePort hl (f := fun x => { x with line := none, callTimer := none }) rfl).keysKept (keysKept_of_parts rfl rfl rfl)
  have free : ((hangUp s p).port p).line = none := by simp [hangUp]
  cases cause with
  | none => exact hung.freePort free
  | some c => exact (hung.freePort (f := fun x => { x with state := .faulted, faultCause := some c }) free).keysKept (keysKept_of_parts rfl rfl rfl)

/-- An unclaimed ADMITTED line is called again, waits again, or selects again (R152). -/
theorem links_retryCall {s : State} (h : Links s) {l : LineNo} (hl : Unclaimed s l) (ha : (s.line l).key.admitted = true) :
    Links (retryCall s l) ∧ SameRole s (retryCall s l) := by
  unfold retryCall
  extract_lets s1
  have parted : Links s1 := h.modLine hl nofun
  have role : SameRole s s1 := sameRole_modLine rfl ha ha
  have free : Unclaimed s1 l := hl.modLine l _
  have line : s1.line l = { s.line l with port := none, portFaults := (s.line l).portFaults + 1 } := by
    rw [modLine_line, if_pos rfl]
  have adm : (s1.line l).key.admitted = true := by rw [line]; exact ha
  split
  · split
    · exact ⟨parted, role⟩
    · rename_i g hg
      split
      · exact ⟨links_offerPort parted free rfl, role.trans (sameRole_offerPort adm _ _)⟩
      · refine ⟨links_waitInQueue parted free ?_ insertRejoin_perm, role.trans (sameRole_waitInQueue adm g _)⟩
        rw [line]
        exact hg
  · have selecting : Links (enterSelecting s1 l) := parted.modLine free nofun
    have kept : KeysKept (enterSelecting s1 l) (requestMessage (enterSelecting s1 l) l 8 0) :=
      { KeysKept.refl _ with line := fun k => ((hush_request _ l 8 0).line k).key }
    exact ⟨links_keysKept selecting kept, (role.trans (sameRole_modLine rfl adm rfl)).trans (sameRole_of_keys kept.line)⟩

/-- Every step that changes how lines, ports and queues name each other keeps the law of links, and changes no line's role. -/
theorem links_linkStep {s t : State} (h : Links s) (k : LinkStep s t) : Links t ∧ SameRole s t := by
  cases k with
  | @choose l p g hl hp =>
    have free : Unclaimed s l := h.unclaimed (by rw [LineRec.key, hl]; rfl) (by rw [LineRec.key, hl]; rfl)
    have adm : (s.line l).key.admitted = true := by rw [LineRec.key, hl]; rfl
    have line : (s.modLine l (fun r => { r with selectedGroup := some g })).line l = { s.line l with selectedGroup := some g } := by
      rw [modLine_line, if_pos rfl]
    refine ⟨links_offerPort (h.modLine free (h.holds l)) free rfl, ?_⟩
    exact (sameRole_modLine rfl adm adm).trans (sameRole_offerPort (by rw [line]; exact adm) p .calling)
  | @wait l g hl =>
    have free : Unclaimed s l := h.unclaimed (by rw [LineRec.key, hl]; rfl) (by rw [LineRec.key, hl]; rfl)
    have adm : (s.line l).key.admitted = true := by rw [LineRec.key, hl]; rfl
    have line : (s.modLine l (fun r => { r with selectedGroup := some g })).line l = { s.line l with selectedGroup := some g } := by
      rw [modLine_line, if_pos rfl]
    refine ⟨links_waitInQueue (h.modLine free (h.holds l)) free (by rw [line]; rfl) insertJoin_perm, ?_⟩
    exact (sameRole_modLine rfl adm adm).trans (sameRole_waitInQueue (by rw [line]; exact adm) g _)
  | @ready p hc hu =>
    refine links_portByReady h ?_
    by_contra hn
    exact (h.busy (Option.isSome_iff_ne_none.2 hn)).elim hc hu
  | @unqueue l hl =>
    have adm : (s.line l).key.admitted = true := by rw [LineRec.key, hl]; rfl
    have waits : (s.line l).key.waiting = true := key_waiting_iff.2 hl
    unfold leaveQueue
    split
    · rename_i hg
      have free : Unclaimed s l := by
        refine ⟨fun p hp => ?_, fun g hp => ?_⟩
        · have := (h.named hp).2
          rw [key_waiting_holdsPort waits] at this
          cases this
        · have := (h.placed hp).2
          rw [show (s.line l).key.selectedGroup = none from hg] at this
          cases this
      exact ⟨h.modLine free nofun, sameRole_modLine rfl adm rfl⟩
    · rename_i g hg
      have less : Links (removePlace s g l) := h.lessQueue (List.Sublist.map _ List.filter_sublist)
      have free : Unclaimed (removePlace s g l) l := h.unclaimed_lessQueue waits hg (by simp)
      exact ⟨less.modLine free nofun, (sameRole_modLine (s := removePlace s g l) rfl adm rfl).of_lc rfl⟩
  | @retry p l cause hl =>
    have adm := key_holdsPort_admitted (h.named hl).2
    have role : SameRole s (failPort s p cause) := sameRole_of_keys fun k => by rw [failPort_line]
    obtain ⟨hk, hr⟩ := links_retryCall (links_failPort h p cause) (unclaimed_failPort h hl cause) (by rw [failPort_line]; exact adm)
    exact ⟨hk, role.trans hr⟩
  | @unlink p l cause hl =>
    have adm := key_holdsPort_admitted (h.named hl).2
    have role : SameRole s (failPort s p cause) := sameRole_of_keys fun k => by rw [failPort_line]
    have adm' : ((failPort s p cause).line l).key.admitted = true := by rw [failPort_line]; exact adm
    exact ⟨(links_failPort h p cause).modLine (unclaimed_failPort h hl cause) nofun, role.trans (sameRole_modLine rfl adm' adm')⟩
  | @move p q l g cause hl _ =>
    have adm := key_holdsPort_admitted (h.named hl).2
    have role : SameRole s (failPort s p cause) := sameRole_of_keys fun k => by rw [failPort_line]
    have adm' : ((failPort s p cause).line l).key.admitted = true := by rw [failPort_line]; exact adm
    have free := unclaimed_failPort h hl cause
    have parted := (links_failPort h p cause).modLine (f := fun r => { r with port := none }) free nofun
    have role' := role.trans (sameRole_modLine (f := fun r => { r with port := none }) rfl adm' adm')
    have admitted : (((failPort s p cause).modLine l (fun r => { r with port := none })).line l).key.admitted = true := by
      rw [modLine_line, if_pos rfl]
      exact adm'
    replace free := free.modLine l (fun r => { r with port := none })
    generalize (failPort s p cause).modLine l (fun r => { r with port := none }) = u at parted role' admitted free
    unfold beginMove
    extract_lets s1 s2
    have kept : KeysKept u (s2.modLine l (fun r => { r with moveCount := r.moveCount + 1 })) := by
      have emptied : KeysKept u (emptySlots u l) :=
        (keysKept_modLine (l := l) (f := fun r => { r with lineToPort := none, portToLine := none }) rfl).trans
          (keysKept_of_parts rfl rfl rfl)
      have spent : KeysKept s1 s2 := by
        unfold s2
        split
        · exact keysKept_of_parts rfl rfl rfl
        · exact .refl s1
      exact ((emptied.trans (keysKept_modGroup rfl)).trans spent).trans (keysKept_modLine rfl)
    refine ⟨links_offerPort (links_keysKept parted kept) (free.keysKept kept) rfl, ?_⟩
    refine (role'.trans (sameRole_of_keys kept.line)).trans (sameRole_offerPort ?_ q .moving)
    rw [kept.line]
    exact admitted

end Sys2Proof.Machine
end


/-! # The law of sessions, through every move -/

section
namespace Sys2Proof.Machine

/-! ## What settlement takes from a line -/

/-- A line settled out of its claims: in CLOSING, named by no port and no queue; no other line changes its role. -/
structure ClaimsSettled (s t : State) (l : LineNo) : Prop where
  links : Links t
  entryRef : ∀ k, (t.line k).key.entryRef = (s.line k).key.entryRef
  admitted : ∀ k, k ≠ l → (t.line k).key.admitted = (s.line k).key.admitted
  inCall : ∀ k, k ≠ l → (t.line k).key.inCall = (s.line k).key.inCall
  closed : (t.line l).key.inCall = false

/-- Only the line's record has changed, to one out of call, and then no role. -/
theorem ClaimsSettled.of_role {s u t : State} {l : LineNo} (links : Links t) (role : SameRole u t)
    (other : ∀ k, k ≠ l → u.line k = s.line k) (ref : (u.line l).entryRef = (s.line l).entryRef)
    (closed : (u.line l).key.inCall = false) : ClaimsSettled s t l := by
  refine ⟨links, fun k => ?_, fun k hk => ?_, fun k hk => ?_, ?_⟩
  · rw [role.entryRef]
    by_cases hk : k = l
    · subst hk; exact ref
    · rw [other k hk]
  · rw [role.admitted, other k hk]
  · rw [role.inCall, other k hk]
  · rw [role.inCall, closed]

theorem key_not_inCall {r : LineRec} (h : r.key.inCall = false) : r.key.admitted = false ∧ r.key.holdsPort = false ∧ r.key.waiting = false := by
  have adm : r.key.admitted = false := by
    by_contra hn
    rw [key_admitted_inCall (Bool.not_eq_false _ ▸ hn)] at h
    cases h
  refine ⟨adm, ?_, ?_⟩
  · by_contra hn
    rw [key_holdsPort_admitted (Bool.not_eq_false _ ▸ hn)] at adm
    cases adm
  · by_contra hn
    rw [key_waiting_admitted (Bool.not_eq_false _ ▸ hn)] at adm
    cases adm

/-- A line in CLOSING names no port. -/
theorem closing_unheld (r : LineRec) : ({ r with phase := .closing, port := none } : LineRec).key.port.isSome = true → False := nofun

/-- The release of the port a line names (R161, R186). -/
theorem releasePort_settled {s : State} (h : Links s) {l : LineNo} {p : PortNo} (hp : (s.line l).port = some p) (out : Bool) :
    ClaimsSettled s (releasePort (s.modLine l (fun r => { r with phase := .closing })) p l out) l := by
  have holds : (s.line l).key.holdsPort = true := h.holds l (by rw [show (s.line l).key.port = some p from hp]; rfl)
  have hung : Links (hangUp s p) :=
    links_keysKept (h.freePort (f := fun x => { x with line := none, callTimer := none }) rfl) (keysKept_of_parts rfl rfl rfl)
  have unnamed : ∀ q, ((hangUp s p).port q).line ≠ some l := by
    intro q hq
    simp only [hangUp, issuePort_port, modPort_port] at hq
    split at hq
    · cases hq
    · have := (h.named hq).1
      rw [show (s.line l).key.port = some p from hp] at this
      cases this
      contradiction
  have free : Unclaimed (hangUp s p) l := by
    refine ⟨unnamed, fun g hg => ?_⟩
    have := key_waiting_holdsPort (h.placed (show l ∈ s.places g from hg)).1
    rw [holds] at this
    cases this
  set u := (hangUp (s.modLine l (fun r => { r with phase := .closing })) p).modLine l (fun r => { r with port := none }) with hu
  have line : ∀ k, u.line k = if k = l then { s.line l with phase := .closing, port := none } else s.line k := by
    intro k
    by_cases hk : k = l
    · subst hk; simp [hu, hangUp]
    · simp [hu, hangUp, hk]
  have links : Links u := by
    refine links_keysKept (hung.modLine (f := fun r => { r with phase := .closing, port := none }) free nofun) ⟨fun k => ?_, fun q => rfl, fun _ _ => id, fun _ => rfl⟩
    rw [line, modLine_line]
    rfl
  have unnamedP : (u.port p).line = none := by simp [hu, hangUp]
  have settled : ∀ t, Links t → SameRole u t → ClaimsSettled s t l := fun t ht role =>
    .of_role ht role (fun k hk => by rw [line, if_neg hk]) (by rw [line, if_pos rfl]) (by rw [line, if_pos rfl]; rfl)
  unfold releasePort
  dsimp only
  split
  · exact settled _ (links.freePort unnamedP) ((SameRole.refl _).of_lc rfl)
  · obtain ⟨hk, hr⟩ := links_portByReady links unnamedP
    exact settled _ hk hr

theorem settleClaims_settled {s : State} (h : Links s) (l : LineNo) (out : Bool) : ClaimsSettled s (settleClaims s l out) l := by
  have closing : ∀ t, Links t → SameRole (s.modLine l (fun r => { r with phase := .closing })) t → ClaimsSettled s t l := fun t ht role =>
    .of_role ht role (fun k hk => by rw [modLine_line, if_neg hk]) (by rw [modLine_line, if_pos rfl]) (by rw [modLine_line, if_pos rfl]; rfl)
  cases hp : (s.line l).port with
  | some p =>
    have holds : (s.line l).phase.holdsPort = true := h.holds l (by rw [show (s.line l).key.port = some p from hp]; rfl)
    have eq : settleClaims s l out = releasePort (s.modLine l (fun r => { r with phase := .closing })) p l out := by
      unfold settleClaims
      simp only [hp]
      split
      · rename_i hw _
        rw [hw] at holds
        cases holds
      · rfl
    rw [eq]
    exact releasePort_settled h hp out
  | none =>
    have unnamed : ∀ q, (s.port q).line ≠ some l := fun q hq => by
      have := (h.named hq).1
      rw [show (s.line l).key.port = none from hp] at this
      cases this
    have unheld : ∀ r : LineRec, r = s.line l → ({ r with phase := .closing } : LineRec).key.port.isSome = true →
        ({ r with phase := .closing } : LineRec).key.holdsPort = true := by
      rintro _ rfl hs
      rw [show ({ s.line l with phase := .closing } : LineRec).key.port = none from hp] at hs
      cases hs
    unfold settleClaims
    simp only [hp]
    split
    · rename_i g hw hg
      have waits : (s.line l).key.waiting = true := key_waiting_iff.2 hw
      have less : Links (removePlace s g l) := h.lessQueue (List.Sublist.map _ List.filter_sublist)
      have free : Unclaimed (removePlace s g l) l := h.unclaimed_lessQueue waits hg (by simp)
      exact closing _ (less.modLine (f := fun r => { r with phase := .closing }) free (unheld _ rfl)) ((SameRole.refl _).of_lc rfl)
    · rename_i hno
      have free : Unclaimed s l := by
        refine ⟨unnamed, fun g hg => ?_⟩
        obtain ⟨hw, hs⟩ := h.placed hg
        exact hno g (key_waiting_iff.1 hw) hs
      exact closing _ (h.modLine free (unheld _ rfl)) (.refl _)

end Sys2Proof.Machine
end


/-! # The law of sessions -/

section
namespace Sys2Proof.Machine

/-- The lines that reference an entry. -/
def State.refs (s : State) (e : EntryNo) : List LineNo := allLines.filter (fun k => decide ((s.line k).entryRef = some e))

/-- What an entry owes the rest (R5, R28, R36, R44); `wb` tells the entries whose write-back is in progress. -/
def EntryLawful (wb : EntryNo → Prop) (s : State) (e : EntryNo) (x : OatEntry) : Prop :=
  x.acct.sessionLimit ≤ 4 ∧ x.count ≤ 4 ∧ (x.state = .opened ↔ 1 ≤ x.count) ∧
    (x.state = .closing → e ∈ s.oat.writeBackList ∨ wb e) ∧ (x.state = .stuck → e ∉ s.oat.writeBackList) ∧
    (x.retirePending = true → x.state ≠ .stuck)

/-- One to be added to the count of an entry: a session that no line references any more, or none yet. -/
def unreferenced (extra : Option EntryNo) (e : EntryNo) : Nat := if extra = some e then 1 else 0

/-- The law of sessions. The lines of `D` are being settled: they are out of call, and may still reference an entry. `wb` tells the
entries whose write-back is in progress, `extra` one with a session that no line references, and `p` the operation in progress. -/
structure Law (D : List LineNo) (wb : EntryNo → Prop) (extra : Option EntryNo) (p : Option Operation) (s : State) : Prop where
  links : Links s
  progress : s.ctl.inProgress = p
  writing : ∀ e, s.writingBack e = true → wb e
  refs : ∀ l, l ∉ D → (s.line l).key.entryRef.isSome = (s.line l).key.admitted
  closed : ∀ l ∈ D, (s.line l).key.inCall = false
  counts : ∀ e x, s.entry e = some x → x.count = (s.refs e).length + unreferenced extra e
  vacant : ∀ e, s.entry e = none → s.refs e = [] ∧ extra ≠ some e
  entries : ∀ e x, s.entry e = some x → EntryLawful wb s e x
  once : ∀ e k x y, s.entry e = some x → s.entry k = some y → x.account = y.account → e = k

section
variable {D : List LineNo} {wb : EntryNo → Prop} {extra : Option EntryNo} {p : Option Operation}

theorem refs_of_role {s t : State} (h : ∀ k, (t.line k).key.entryRef = (s.line k).key.entryRef) (e : EntryNo) :
    t.refs e = s.refs e := by
  unfold State.refs
  congr 1
  funext k
  have := h k
  simp only [LineRec.key] at this
  rw [this]

theorem writingBack_of {s t : State} (h : t.ctl.inProgress = s.ctl.inProgress) (e : EntryNo) : t.writingBack e = s.writingBack e := by
  simp only [State.writingBack, h]

theorem entry_of_oat {s t : State} (h : t.oat = s.oat) (e : EntryNo) : t.entry e = s.entry e := by simp [State.entry, h]

theorem EntryLawful.of_list {s t : State} {e : EntryNo} {x : OatEntry} (h : EntryLawful wb s e x)
    (hl : t.oat.writeBackList = s.oat.writeBackList) : EntryLawful wb t e x := by
  unfold EntryLawful
  rw [hl]
  exact h

/-- A change of no role, no entry and no operation in progress. -/
theorem Law.of_role {s t : State} (h : Law D wb extra p s) (links : Links t) (role : SameRole s t) (hoat : t.oat = s.oat)
    (hctl : t.ctl.inProgress = s.ctl.inProgress) : Law D wb extra p t where
  links := links
  progress := hctl.trans h.progress
  writing e he := h.writing e (by rwa [writingBack_of hctl] at he)
  refs l hl := by rw [role.entryRef, role.admitted]; exact h.refs l hl
  closed l hl := by rw [role.inCall]; exact h.closed l hl
  counts e x hx := by
    rw [refs_of_role role.entryRef]
    exact h.counts e x (by rwa [entry_of_oat hoat] at hx)
  vacant e hx := by
    rw [refs_of_role role.entryRef]
    exact h.vacant e (by rwa [entry_of_oat hoat] at hx)
  entries e x hx := (h.entries e x (by rwa [entry_of_oat hoat] at hx)).of_list (by rw [hoat])
  once e k x y hx hy := h.once e k x y (by rwa [entry_of_oat hoat] at hx) (by rwa [entry_of_oat hoat] at hy)

/-- A change of nothing that the law sees. -/
theorem Law.of_parts {s t : State} (h : Law D wb extra p s) (hlc : t.lc.lines = s.lc.lines) (hp : t.pa.ports = s.pa.ports)
    (hg : t.pa.groups = s.pa.groups) (hoat : t.oat = s.oat) (hctl : t.ctl.inProgress = s.ctl.inProgress) : Law D wb extra p t :=
  have kept := keysKept_of_parts hlc hp hg
  h.of_role (links_keysKept h.links kept) (sameRole_of_keys kept.line) hoat hctl

/-- A change of the Open Account Table alone, and of what the law does not see. -/
theorem Law.of_oat {s t : State} {wb' : EntryNo → Prop} {extra' : Option EntryNo} (h : Law D wb extra p s) (ht : t = { s with oat := t.oat })
    (hw : ∀ e, t.writingBack e = true → wb' e)
    (he : ∀ e x, t.entry e = some x → x.count = (s.refs e).length + unreferenced extra' e ∧ EntryLawful wb' t e x)
    (hv : ∀ e, t.entry e = none → s.refs e = [] ∧ extra' ≠ some e)
    (ho : ∀ e k x y, t.entry e = some x → t.entry k = some y → x.account = y.account → e = k) : Law D wb' extra' p t := by
  have line : ∀ k, t.line k = s.line k := fun k => by rw [ht]; rfl
  have refs : ∀ e, t.refs e = s.refs e := fun e => refs_of_role (fun k => by rw [line]) e
  refine ⟨?_, by rw [ht]; exact h.progress, hw, fun l hl => ?_, fun l hl => ?_, fun e x hx => ?_, fun e hx => ?_,
    fun e x hx => (he e x hx).2, ho⟩
  · exact links_keysKept h.links (keysKept_of_parts (by rw [ht]) (by rw [ht]) (by rw [ht]))
  · rw [line]; exact h.refs l hl
  · rw [line]; exact h.closed l hl
  · rw [refs]; exact (he e x hx).1
  · rw [refs]; exact hv e hx

/-! ## Entries -/

/-- More entries may be taken to have their write-back in progress. -/
theorem Law.widen {s : State} {wb' : EntryNo → Prop} (h : Law D wb extra p s) (hw : ∀ k, wb k → wb' k) : Law D wb' extra p s :=
  { h with
    writing := fun e he => hw e (h.writing e he)
    entries := fun e x hx => by
      obtain ⟨h1, h2, h3, h4, h5, h6⟩ := h.entries e x hx
      exact ⟨h1, h2, h3, fun hc => (h4 hc).imp_right (hw e), h5, h6⟩ }

/-- A CLOSING entry that stands in the list needs no write-back in progress. -/
theorem Law.narrow {s : State} {wb' : EntryNo → Prop} (h : Law D wb extra p s) (hw : ∀ e, s.writingBack e = true → wb' e)
    (he : ∀ e x, s.entry e = some x → x.state = .closing → wb e → e ∈ s.oat.writeBackList ∨ wb' e) : Law D wb' extra p s :=
  { h with
    writing := hw
    entries := fun e x hx => by
      obtain ⟨h1, h2, h3, h4, h5, h6⟩ := h.entries e x hx
      exact ⟨h1, h2, h3, fun hc => (h4 hc).elim .inl (he e x hx hc), h5, h6⟩ }

/-- An entry is made or changed: its account is no other entry's, its count right, and it owes what it must. -/
theorem Law.putEntry {s : State} {extra' : Option EntryNo} (h : Law D wb extra p s) {e : EntryNo} {y : OatEntry}
    (hacc : ∀ k x, k ≠ e → s.entry k = some x → x.account ≠ y.account) (hother : ∀ k, k ≠ e → (extra' = some k ↔ extra = some k))
    (hcount : y.count = (s.refs e).length + unreferenced extra' e) (hy : EntryLawful wb s e y) :
    Law D wb extra' p (s.setEntry e (some y)) := by
  have entry : ∀ k, (s.setEntry e (some y)).entry k = if k = e then some y else s.entry k := fun k => setEntry_entry s e k _
  refine h.of_oat rfl h.writing (fun k z hz => ?_) (fun k hz => ?_) fun k j z w hz hw ha => ?_
  · rw [entry] at hz
    split at hz
    · cases hz
      subst_vars
      exact ⟨hcount, hy⟩
    · rename_i hke
      refine ⟨?_, h.entries k z hz⟩
      have same : unreferenced extra' k = unreferenced extra k := by simp only [unreferenced, hother k hke]
      rw [same]
      exact h.counts k z hz
  · rw [entry] at hz
    split at hz
    · cases hz
    · rename_i hke
      rw [ne_eq, hother k hke]
      exact h.vacant k hz
  · rw [entry] at hz hw
    split at hz <;> split at hw
    · subst_vars; rfl
    · rename_i hj
      cases hz
      exact absurd ha.symm (hacc j w hj hw)
    · rename_i hk _
      cases hw
      exact absurd ha (hacc k z hk hz)
    · exact h.once k j z w hz hw ha

/-- An entry changes in place: it keeps its account, and owes what it must. -/
theorem Law.setEntry {s : State} (h : Law D wb extra p s) {e : EntryNo} {x y : OatEntry} (hx : s.entry e = some x)
    (hacc : y.account = x.account) (hcount : y.count = x.count) (hy : EntryLawful wb s e y) :
    Law D wb extra p (s.setEntry e (some y)) :=
  h.putEntry (fun k z hk hz ha => hk (h.once k e z x hz hx (ha.trans hacc))) (fun _ _ => .rfl)
    (hcount.trans (h.counts e x hx)) hy

/-- An edit of the account's fields and the dirty mark. -/
theorem Law.edit {s : State} (h : Law D wb extra p s) {e : EntryNo} {x y : OatEntry} (hx : s.entry e = some x)
    (hy : y = { x with acct := y.acct, dirty := y.dirty }) (hl : y.acct.sessionLimit ≤ 4) :
    Law D wb extra p (s.setEntry e (some y)) := by
  obtain ⟨_, hc⟩ := h.entries e x hx
  refine h.setEntry hx (by rw [hy]) (by rw [hy]) ⟨hl, ?_⟩
  rw [hy]
  exact hc

theorem queueEntry_list (s : State) (e : EntryNo) :
    (queueEntry s e).oat.writeBackList = if e ∈ s.oat.writeBackList then s.oat.writeBackList else s.oat.writeBackList ++ [e] := by
  unfold queueEntry State.queued
  by_cases h : e ∈ s.oat.writeBackList
  · simp [h]
  · simp [h, State.modEntry, State.setEntry]

theorem queueEntry_entry (s : State) (e k : EntryNo) : (queueEntry s e).entry k =
    if k = e ∧ e ∉ s.oat.writeBackList then (s.entry e).map (fun x => { x with state := if x.state = .stuck then .closing else x.state })
    else s.entry k := by
  unfold queueEntry State.queued
  by_cases h : e ∈ s.oat.writeBackList
  · simp [h]
  · simp only [List.contains_iff_mem, h, if_false, not_false_iff, and_true]
    rw [State.modEntry, setEntry_entry]
    rfl

theorem queueEntry_oat (s : State) (e : EntryNo) : queueEntry s e = { s with oat := (queueEntry s e).oat } := by
  unfold queueEntry
  split <;> rfl

/-- An entry is queued for write-back (R36). -/
theorem Law.queueEntry {s : State} (h : Law D wb extra p s) (e : EntryNo) : Law D wb extra p (queueEntry s e) := by
  by_cases hq : e ∈ s.oat.writeBackList
  · have same : Machine.queueEntry s e = s := by simp [Machine.queueEntry, State.queued, hq]
    rw [same]
    exact h
  have list : (Machine.queueEntry s e).oat.writeBackList = s.oat.writeBackList ++ [e] := by rw [queueEntry_list, if_neg hq]
  have entry : ∀ k, (Machine.queueEntry s e).entry k = if k = e then
      (s.entry e).map (fun x => { x with state := if x.state = .stuck then .closing else x.state }) else s.entry k := by
    intro k
    rw [queueEntry_entry]
    simp [hq]
  have old : ∀ k z, (Machine.queueEntry s e).entry k = some z →
      ∃ x, s.entry k = some x ∧ z.account = x.account ∧ z.count = x.count ∧ EntryLawful wb (Machine.queueEntry s e) k z := by
    intro k z hz
    rw [entry] at hz
    split at hz
    · subst_vars
      obtain ⟨x, hx, rfl⟩ := Option.map_eq_some_iff.1 hz
      obtain ⟨h1, h2, h3, h4, h5, h6⟩ := h.entries k x hx
      refine ⟨x, hx, rfl, rfl, h1, h2, ?_, fun _ => .inl (by simp [list]), ?_, ?_⟩
      · dsimp only
        split
        · rename_i hs
          rw [← h3, hs]
          simp
        · exact h3
      · dsimp only
        split
        · nofun
        · rename_i hs
          exact fun k => absurd k hs
      · dsimp only
        split
        · nofun
        · exact fun _ => by assumption
    · rename_i hke
      obtain ⟨h1, h2, h3, h4, h5, h6⟩ := h.entries k z hz
      refine ⟨z, hz, rfl, rfl, h1, h2, h3, fun hc => (h4 hc).imp_left fun hm => ?_, fun hs hm => ?_, h6⟩
      · rw [list]; exact List.mem_append_left _ hm
      · rw [list] at hm
        rcases List.mem_append.1 hm with hm | hm
        · exact h5 hs hm
        · exact hke (List.mem_singleton.1 hm)
  refine h.of_oat (queueEntry_oat s e) (fun k hk => h.writing k ?_) (fun k z hz => ?_) (fun k hz => ?_) fun k j z w hz hw ha => ?_
  · rwa [queueEntry_oat] at hk
  · obtain ⟨x, hx, _, hc, hl⟩ := old k z hz
    exact ⟨hc.trans (h.counts k x hx), hl⟩
  · rw [entry] at hz
    split at hz
    · subst_vars
      exact h.vacant k (Option.map_eq_none_iff.1 hz)
    · exact h.vacant k hz
  · obtain ⟨x, hx, ea, _⟩ := old k z hz
    obtain ⟨y, hy, eb, _⟩ := old j w hw
    exact h.once k j x y hx hy (by rw [← ea, ← eb, ha])

theorem mem_refs {s : State} {e : EntryNo} {l : LineNo} : l ∈ s.refs e ↔ (s.line l).entryRef = some e := by
  simp [State.refs, allLines]

theorem refs_nodup (s : State) (e : EntryNo) : (s.refs e).Nodup := (List.nodup_finRange 96).filter _

theorem refs_unref (s : State) (l : LineNo) (e : EntryNo) :
    (s.modLine l (fun r => { r with entryRef := none })).refs e = (s.refs e).erase l := by
  rw [(refs_nodup s e).erase_eq_filter]
  unfold State.refs
  rw [List.filter_filter]
  congr 1
  funext k
  rw [modLine_line]
  by_cases hk : k = l
  · simp [hk]
  · simp [hk]

/-- A line being settled gives up its reference: its session is then one that no line references. -/
theorem Law.unref {s : State} (h : Law D wb none p s) {l : LineNo} (hl : l ∈ D) {e : EntryNo} (he : (s.line l).entryRef = some e) :
    Law D wb (some e) p (s.modLine l (fun r => { r with entryRef := none })) := by
  have line : ∀ k, (s.modLine l (fun r => { r with entryRef := none })).line k = if k = l then { s.line l with entryRef := none } else s.line k :=
    fun k => modLine_line s l k _
  have here : l ∈ s.refs e := mem_refs.2 he
  have there : ∀ {k}, k ≠ e → l ∉ s.refs k := fun hk hm => by
    have := mem_refs.1 hm
    rw [he] at this
    exact hk (Option.some.inj this).symm
  obtain ⟨_, hheld, hwait⟩ := key_not_inCall (h.closed l hl)
  refine ⟨h.links.modLine (h.links.unclaimed hheld hwait) (h.links.holds l), h.progress, h.writing, fun k hk => ?_, fun k hk => ?_,
    fun k x hx => ?_, fun k hx => ?_, h.entries, h.once⟩
  · have hkl : k ≠ l := by rintro rfl; exact hk hl
    rw [line, if_neg hkl]
    exact h.refs k hk
  · rw [line]
    split
    · subst_vars; exact h.closed k hk
    · exact h.closed k hk
  · have old := h.counts k x hx
    rw [refs_unref]
    by_cases hke : k = e
    · subst hke
      rw [List.length_erase_of_mem here, old]
      have := List.length_pos_of_mem here
      simp [unreferenced]
      omega
    · rw [List.erase_of_not_mem (there hke), old]
      simp [unreferenced, Ne.symm hke]
  · obtain ⟨none_refs, _⟩ := h.vacant k hx
    rw [refs_unref, none_refs]
    refine ⟨rfl, fun hk => ?_⟩
    obtain rfl := Option.some.inj hk
    rw [none_refs] at here
    cases here

/-- A session leaves an entry: the one that no line references (R32). -/
theorem Law.leave {s : State} {e : EntryNo} (h : Law D wb (some e) p s) : Law D wb none p (leaveEntry s e) := by
  obtain ⟨x, hx⟩ : ∃ x, s.entry e = some x := by
    by_contra hn
    exact (h.vacant e (Option.eq_none_iff_forall_not_mem.2 fun x hx => hn ⟨x, hx⟩)).2 rfl
  have count : x.count = (s.refs e).length + 1 := by simpa [unreferenced] using h.counts e x hx
  obtain ⟨h1, h2, h3, h4, h5, h6⟩ := h.entries e x hx
  have opened : x.state = .opened := h3.2 (by omega)
  have other : ∀ k, k ≠ e → ((none : Option EntryNo) = some k ↔ some e = some k) := fun k hk => by
    simp [Ne.symm hk]
  have fresh : ∀ k z, k ≠ e → s.entry k = some z → z.account ≠ x.account := fun k z hk hz ha => hk (h.once k e z x hz hx ha)
  unfold leaveEntry
  simp only [hx]
  split
  · have wide := h.widen (wb' := fun k => wb k ∨ k = e) fun k => .inl
    have closed : Law D (fun k => wb k ∨ k = e) none p (s.setEntry e (some { x with count := 0, state := .closing })) := by
      refine wide.putEntry fresh other ?_ ⟨h1, Nat.zero_le _, by simp, fun _ => .inr (.inr rfl), nofun, nofun⟩
      simp [unreferenced]
      omega
    have entry : ∀ k, (s.setEntry e (some { x with count := 0, state := .closing })).writingBack k = s.writingBack k := fun _ => rfl
    split
    · rename_i hw
      exact closed.narrow (fun k hk => h.writing k hk) fun k _ _ _ hk => .inr (hk.elim id fun he => he ▸ h.writing e hw)
    · refine (closed.queueEntry e).narrow (fun k hk => h.writing k ?_) fun k z hz _ hk => ?_
      · rwa [queueEntry_oat] at hk
      · refine hk.elim .inr fun he => .inl ?_
        rw [he, queueEntry_list]
        split
        · assumption
        · simp
  · refine h.putEntry fresh other ?_ ⟨h1, by simp only; omega, ⟨fun _ => by simp only; omega, fun _ => opened⟩, h4, h5, h6⟩
    simp [unreferenced]
    omega

/-! ## Every move -/

/-- What a move keeps beside the law: the references of the lines being settled, and no line comes into call or into ADMITTED. -/
structure Settling (D : List LineNo) (s t : State) : Prop where
  refs : ∀ l ∈ D, (t.line l).entryRef = (s.line l).entryRef
  inCall : ∀ l, (t.line l).key.inCall = true → (s.line l).key.inCall = true
  admitted : ∀ l, (t.line l).key.admitted = true → (s.line l).key.admitted = true

theorem Settling.refl (s : State) : Settling D s s := ⟨fun _ _ => rfl, fun _ => id, fun _ => id⟩

theorem Settling.trans {a b c : State} (h : Settling D a b) (k : Settling D b c) : Settling D a c :=
  ⟨fun l hl => (k.refs l hl).trans (h.refs l hl), fun l => h.inCall l ∘ k.inCall l, fun l => h.admitted l ∘ k.admitted l⟩

theorem Settling.of_role {s t : State} (h : SameRole s t) : Settling D s t :=
  ⟨fun l _ => h.entryRef l, fun l hl => by rwa [h.inCall] at hl, fun l hl => by rwa [h.admitted] at hl⟩

/-- A line comes out of its claims, and joins those being settled. -/
theorem Law.settleClaims {s : State} (h : Law D wb none p s) (l : LineNo) (out : Bool) :
    Law (l :: D) wb none p (settleClaims s l out) ∧ Settling D s (Machine.settleClaims s l out) := by
  have k := settleClaims_settled h.links l out
  have calm := calm_settleClaims s l out
  have prog : (Machine.settleClaims s l out).ctl.inProgress = s.ctl.inProgress := by rw [calm.ctl]
  have entry : ∀ e, (Machine.settleClaims s l out).entry e = s.entry e := entry_of_oat calm.oat
  have refs : ∀ e, (Machine.settleClaims s l out).refs e = s.refs e := refs_of_role k.entryRef
  refine ⟨⟨k.links, prog.trans h.progress, fun e he => h.writing e (by rwa [writingBack_of prog] at he), fun j hj => ?_, fun j hj => ?_, fun e x hx => ?_,
    fun e hx => ?_, fun e x hx => ?_, fun e f x y hx hy => ?_⟩, ⟨fun j _ => k.entryRef j, fun j hj => ?_, fun j hj => ?_⟩⟩
  · have hjl : j ≠ l := fun e => hj (e ▸ List.mem_cons_self)
    rw [k.entryRef, k.admitted j hjl]
    exact h.refs j fun hD => hj (List.mem_cons_of_mem l hD)
  · by_cases hjl : j = l
    · rw [hjl]; exact k.closed
    · rw [k.inCall j hjl]
      exact h.closed j ((List.mem_cons.1 hj).resolve_left hjl)
  · rw [refs]; exact h.counts e x (by rwa [entry] at hx)
  · rw [refs]; exact h.vacant e (by rwa [entry] at hx)
  · exact (h.entries e x (by rwa [entry] at hx)).of_list (by rw [calm.oat])
  · exact h.once e f x y (by rwa [entry] at hx) (by rwa [entry] at hy)
  · by_cases hjl : j = l
    · rw [hjl, k.closed] at hj; cases hj
    · rwa [k.inCall j hjl] at hj
  · by_cases hjl : j = l
    · rw [hjl, (key_not_inCall k.closed).1] at hj; cases hj
    · rwa [k.admitted j hjl] at hj

theorem dropCounts_line (s : State) (l : LineNo) (cause : EndCause) (admitted : Bool) (k : LineNo) :
    ((dropCounts (writeSummary s l cause admitted) l).line k).key =
      if k = l then { s.line l with phase := .closing, port := none, entryRef := none : LineRec }.key else (s.line k).key := by
  have withdrawn : ∀ (t : State) (j : LineNo), (withdraw (dropHold t l) l).line j = t.line j := fun _ _ => rfl
  have emptied : ∀ (t : State) (j : LineNo), (emptySlots t l).line j = if j = l then { t.line l with lineToPort := none, portToLine := none } else t.line j :=
    fun t j => modLine_line t l j _
  simp only [dropCounts, modLine_line, emptied, withdrawn, writeSummary]
  by_cases hk : k = l
  · simp [hk, LineRec.key]
  · simp [hk]

/-- A line settled keeps nothing of its call (R192). -/
theorem Law.settled {s : State} {l : LineNo} (h : Law (l :: D) wb none p s) (hl : (s.line l).entryRef = none) (cause : EndCause)
    (admitted : Bool) : Law D wb none p (dropCounts (writeSummary s l cause admitted) l) ∧
      Settling D s (dropCounts (writeSummary s l cause admitted) l) := by
  have closed := h.closed l List.mem_cons_self
  obtain ⟨hadm, hheld, hwait⟩ := key_not_inCall closed
  have role : SameRole s (dropCounts (writeSummary s l cause admitted) l) := by
    refine ⟨fun k => ?_, fun k => ?_, fun k => ?_⟩ <;> rw [dropCounts_line] <;> split <;> try rfl
    · subst_vars; exact hl.symm
    · subst_vars; exact hadm.symm
    · subst_vars; exact closed.symm
  have cleared : Links (s.modLine l (fun r => { r with phase := .closing, port := none, entryRef := none })) :=
    h.links.modLine (h.links.unclaimed hheld hwait) nofun
  have kept : KeysKept (s.modLine l (fun r => { r with phase := .closing, port := none, entryRef := none }))
      (dropCounts (writeSummary s l cause admitted) l) := by
    refine ⟨fun k => ?_, fun _ => rfl, fun _ _ => id, fun _ => rfl⟩
    rw [dropCounts_line, modLine_line]
    split <;> rfl
  have whole := h.of_role (t := dropCounts (writeSummary s l cause admitted) l) (links_keysKept cleared kept) role rfl rfl
  refine ⟨{ whole with refs := fun k hk => ?_, closed := fun k hk => whole.closed k (List.mem_cons_of_mem l hk) }, .of_role role⟩
  by_cases hkl : k = l
  · rw [hkl, role.entryRef, role.admitted, hadm, show (s.line l).key.entryRef = none from hl]
    rfl
  · exact whole.refs k fun hm => (List.mem_cons.1 hm).elim hkl hk

theorem leaveEntry_line (s : State) (e : EntryNo) (k : LineNo) : (leaveEntry s e).line k = s.line k := by
  unfold leaveEntry
  split
  · rfl
  · dsimp only
    split
    · split
      · rfl
      · rw [queueEntry_oat]; rfl
    · rfl

/-- Every move keeps the law of sessions. -/
theorem moves_law {s t : State} (h : Moves s t) : ∀ {D}, Law D wb none p s → Law D wb none p t ∧ Settling D s t := by
  induction h with
  | refl s => exact fun h => ⟨h, .refl s⟩
  | trans _ _ ih1 ih2 =>
    intro D h
    obtain ⟨h1, k1⟩ := ih1 h
    obtain ⟨h2, k2⟩ := ih2 h1
    exact ⟨h2, k1.trans k2⟩
  | quiet hc hk =>
    intro D h
    have role := sameRole_of_keys hk.line
    exact ⟨h.of_role (links_keysKept h.links hk) role hc.oat (by rw [hc.ctl]), .of_role role⟩
  | link hc hk =>
    intro D h
    obtain ⟨links, role⟩ := links_linkStep h.links hk
    exact ⟨h.of_role links role hc.oat (by rw [hc.ctl]), .of_role role⟩
  | edit hx he =>
    intro D h
    exact ⟨h.edit hx he.rest (by rw [he.limit]; exact (h.entries _ _ hx).1), .of_role ((SameRole.refl _).of_lc rfl)⟩
  | queue s e =>
    intro D h
    exact ⟨h.queueEntry e, .of_role (.of_lc (.refl _) (by rw [queueEntry_oat]))⟩
  | @settledCall s m l cause out hin href hm =>
    intro D h
    obtain ⟨hlaw, hset⟩ := h.settleClaims l out
    have hD : l ∉ D := fun hD => by
      have := h.closed l hD
      rw [show (s.line l).key.inCall = true from hin] at this
      cases this
    have none_ref : (s.line l).entryRef = none := by
      rcases href with hna | hr
      · have := h.refs l hD
        rw [show (s.line l).key.admitted = false from hna] at this
        exact Option.isSome_eq_false_iff.1 this |> Option.isNone_iff_eq_none.1
      · exact hr
    have seen : Law (l :: D) wb none p m := hlaw.of_parts (by rw [hm]) (by rw [hm]) (by rw [hm]) (by rw [hm]) (by rw [hm])
    have lines : ∀ k, m.line k = (settleClaims s l out).line k := fun k => by rw [hm]; rfl
    obtain ⟨h2, k2⟩ := seen.settled (by rw [lines, settleClaims_entryRef]; exact none_ref) cause _
    exact ⟨h2, hset.trans ((Settling.of_role (sameRole_of_keys fun k => by rw [lines])).trans k2)⟩
  | @settledSession s m n l e cause out hadm href _ hn ih =>
    intro D h
    have hD : l ∉ D := fun hD => by
      have := h.closed l hD
      rw [key_admitted_inCall hadm] at this
      cases this
    obtain ⟨hlaw, hset⟩ := h.settleClaims l out
    obtain ⟨h1, k1⟩ := ih hlaw
    have ref : (m.line l).entryRef = some e := by rw [k1.refs l List.mem_cons_self, settleClaims_entryRef, href]
    have left := (h1.unref List.mem_cons_self ref).leave
    have seen : Law (l :: D) wb none p n := left.of_parts (by rw [hn]) (by rw [hn]) (by rw [hn]) (by rw [hn]) (by rw [hn])
    have lines : ∀ k, n.line k = if k = l then { m.line l with entryRef := none } else m.line k := fun k => by
      have : n.line k = (leaveEntry (m.modLine l (fun r => { r with entryRef := none })) e).line k := by rw [hn]; rfl
      rw [this, leaveEntry_line, modLine_line]
    obtain ⟨h2, k2⟩ := seen.settled (by rw [lines, if_pos rfl]) cause (s.line l).phase.isAdmitted
    have unref : Settling D m n := by
      refine ⟨fun k hk => ?_, fun k => ?_, fun k => ?_⟩
      · have hkl : k ≠ l := by rintro rfl; exact hD hk
        rw [lines, if_neg hkl]
      · rw [lines]
        split
        · subst_vars; exact id
        · exact id
      · rw [lines]
        split
        · subst_vars; exact id
        · exact id
    have inner : Settling D (settleClaims s l out) m := ⟨fun k hk => k1.refs k (List.mem_cons_of_mem l hk), k1.inCall, k1.admitted⟩
    exact ⟨h2, ((hset.trans inner).trans unref).trans k2⟩

end

end Sys2Proof.Machine
end


/-! # Every step keeps the law of sessions -/

section
namespace Sys2Proof.Machine

section
variable {wb : EntryNo → Prop} {extra : Option EntryNo} {p : Option Operation}

/-! ## Sign-on operations -/

/-- The entry of an admission: its session is not referenced by a line until the result is taken. -/
def SignOnResult.admitted (r : SignOnResult) : Option EntryNo :=
  match r with
  | .admission e _ => some e
  | .failed _ => none
  | .credentialsOk => none

/-- A change of one entry's account fields, where the entry is not free. -/
theorem Law.modEdit {s : State} (h : Law [] wb extra p s) (e : EntryNo) {f : OatEntry → OatEntry}
    (hf : ∀ x, f x = { x with acct := (f x).acct, dirty := (f x).dirty } ∧ (f x).acct.sessionLimit = x.acct.sessionLimit) :
    Law [] wb extra p (s.modEntry e f) := by
  unfold State.modEntry
  cases hx : s.entry e with
  | none =>
    rw [Option.map_none, ← hx, setEntry_entry_self]
    exact h
  | some x => exact h.edit hx (hf x).1 (by rw [(hf x).2]; exact (h.entries e x hx).1)

/-- A session joins an entry below its limit (R31). -/
theorem Law.join {s : State} (h : Law [] wb none p s) {e : EntryNo} {x : OatEntry} (hx : s.entry e = some x)
    (hlt : x.count < x.acct.sessionLimit) (l : LineNo) : Law [] wb (some e) p (joinEntry s e l) := by
  obtain ⟨h1, h2, _⟩ := h.entries e x hx
  have count := h.counts e x hx
  unfold joinEntry State.modEntry
  rw [hx, Option.map_some]
  refine h.putEntry (fun k z hk hz ha => hk (h.once k e z x hz hx ha)) (fun k hk => by simp [Ne.symm hk]) ?_
    ⟨h1, ?_, by simp, nofun, nofun, nofun⟩
  · simp [unreferenced] at count ⊢
    exact count
  · show x.count + 1 ≤ 4
    omega

theorem law_admitOpen {s : State} (h : Law [] wb none p s) (l : LineNo) {e : EntryNo} {x : OatEntry} (hx : s.entry e = some x) :
    Law [] wb (admitOpen s l e x).2.admitted p (admitOpen s l e x).1 := by
  unfold admitOpen
  split
  · exact h
  · rename_i hok
    refine h.join hx ?_ l
    unfold openChecks at hok
    split at hok
    · cases hok
    · split at hok
      · cases hok
      · split at hok
        · cases hok
        · omega

theorem law_raiseAccount {s : State} {D : List LineNo} (h : Law D wb extra p s) (n : Nat) (c : BitVec 3) :
    Law D wb extra p (raiseAccount s n c) := h.of_parts rfl rfl rfl rfl rfl

theorem law_raiseLocked {s : State} (h : Law [] wb extra p s) (n : Nat) (a : Account) : Law [] wb extra p (raiseLocked s n a) := by
  unfold raiseLocked
  split
  · exact law_raiseAccount h n _
  · exact h

theorem law_storeFault {s : State} (h : Law [] wb extra p s) (n : Option Nat) : Law [] wb extra p (storeFault s n) := by
  cases n <;> exact h.of_parts rfl rfl rfl rfl rfl

theorem law_writeSlot {s : State} (h : Law [] wb extra p s) (o : WriteOutcome) (slot : Nat) (bytes : List Byte) :
    Law [] wb extra p (s.writeSlot o slot bytes) := by
  unfold State.writeSlot
  exact h.of_parts rfl rfl rfl rfl rfl

theorem law_respond {s : State} (h : Law [] wb extra p s) (c : Code) (clamped : Bool) (result : List Byte) :
    Law [] wb extra p (respond s c clamped result) := h.of_parts rfl rfl rfl rfl rfl

theorem law_onCtl {s : State} (h : Law [] wb extra p s) {f : StoreCtl → StoreCtl} (hf : (f s.ctl).inProgress = s.ctl.inProgress) :
    Law [] wb extra p (s.onCtl f) := h.of_parts rfl rfl rfl rfl hf

theorem law_markUncertain {s : State} (h : Law [] wb extra p s) : Law [] wb extra p (markUncertain s) := law_onCtl h rfl

theorem law_signOnOpen {s : State} (h : Law [] wb none p s) (op : SignOnOp) {e : EntryNo} {x : OatEntry} (hx : s.entry e = some x) :
    Law [] wb (signOnOpen s op e x).2.admitted p (signOnOpen s op e x).1 := by
  unfold signOnOpen
  split
  · unfold verifyOpen
    split
    · exact h
    · have counted : Law [] wb none p (s.modEntry e fun x =>
          { x with acct := afterMismatch s.lc.params.lockoutThreshold x.acct, dirty := true }) := h.modEdit e fun _ => ⟨rfl, rfl⟩
      exact law_raiseLocked counted _ _
    · split
      · exact h
      · exact law_admitOpen h _ hx
  · exact law_admitOpen h _ hx

/-- An entry is opened for an account that is not open (R30). -/
theorem law_admitClosed {s : State} (h : Law [] wb none p s) (o : WriteOutcome) (l : LineNo) {n : Nat} (slot : Nat) {a : Account}
    (hn : s.openAccount n = none) (ha : AccountInRange a) :
    Law [] wb (admitClosed s o l n slot a).2.admitted p (admitClosed s o l n slot a).1 := by
  unfold admitClosed
  split
  · exact h
  · exact h
  · rename_i e _ he
    dsimp only
    have hfree : s.entry e = none := by
      have := List.find?_some he
      simpa using this
    have fresh := findOpen_none.1 (openAccount_eq_none.1 hn)
    have written := law_writeSlot h o slot (encodeSlot .inUse n (admittedAccount s l a))
    have same : ∀ k, (s.writeSlot o slot (encodeSlot .inUse n (admittedAccount s l a))).entry k = s.entry k := fun k =>
      entry_of_oat (writeSlot_oat _ _ _ _) k
    generalize s.writeSlot o slot (encodeSlot .inUse n (admittedAccount s l a)) = u at written same ⊢
    split
    · show Law [] wb (some e) p _
      refine written.putEntry (fun k x _ hk => fresh k x (same k ▸ hk)) (fun k hk => by simp [Ne.symm hk]) ?_ ⟨ha.1.2, Nat.succ_le_succ (Nat.zero_le 3), by simp, nofun, nofun, nofun⟩
      rw [(written.vacant e ((same e).trans hfree)).1]
      simp [unreferenced]
    · exact law_storeFault written (some n)

theorem law_signOnClosed {s : State} (h : Law [] wb none p s) (o : WriteOutcome) (op : SignOnOp)
    (hn : s.openAccount op.account = none) : Law [] wb (signOnClosed s o op).2.admitted p (signOnClosed s o op).1 := by
  unfold signOnClosed
  split
  · exact law_storeFault h (some _)
  · exact h
  · exact h
  · rename_i hfound _
    unfold verifyClosed
    split
    · exact h
    · unfold writeMismatch
      dsimp only
      split
      · exact h
      · split
        · exact law_raiseLocked (law_writeSlot h _ _ _) _ _
        · exact law_storeFault (law_writeSlot h _ _ _) (some _)
    · split
      · exact h
      · exact law_admitClosed h o _ _ hn (lookup_found_inRange hfound).2.2
  · rename_i hfound _
    exact law_admitClosed h o _ _ hn (lookup_found_inRange hfound).2.2

theorem law_performSignOn {s : State} (h : Law [] wb none p s) (o : WriteOutcome) (op : SignOnOp) :
    Law [] wb (performSignOn s o op).2.admitted p (performSignOn s o op).1 := by
  unfold performSignOn
  split
  · rename_i ho
    exact law_signOnOpen h op (openAccount_entry ho)
  · rename_i ho
    exact law_signOnClosed h o op ho

theorem law_examined {s t : State} {D : List LineNo} (h : Law D wb extra p s) (he : Examined s t) : Law D wb extra p t :=
  h.of_parts (by rw [he]) (by rw [he]) (by rw [he]) (by rw [he]) (by rw [he])

theorem law_watchResult {s : State} (h : Law [] wb extra p s) (op : SignOnOp) (r : SignOnResult) :
    Law [] wb extra p (watchResult s op r) := by
  unfold watchResult
  split
  · exact law_examined h (examined_examineWatches s _ _ _ _)
  · exact h

theorem law_moves {s t : State} (h : Law [] wb none p s) (k : Moves s t) : Law [] wb none p t := (moves_law k h).1

/-- A line in SIGNON takes up the session an admission has made (R94). -/
theorem law_admitLine {s : State} {e : EntryNo} (h : Law [] wb (some e) p s) {l : LineNo} {st : SignOnStage}
    (hl : (s.line l).phase = .signon st) (grace : Nat) : Law [] wb none p (admitLine s l e grace) := by
  have hadm : (s.line l).key.admitted = false := by rw [LineRec.key, hl]; rfl
  have noref : (s.line l).entryRef = none := by
    have := h.refs l List.not_mem_nil
    rw [hadm] at this
    exact Option.isNone_iff_eq_none.1 (Option.isSome_eq_false_iff.1 this)
  set u := enterSelecting (s.modLine l (fun r => { r with entryRef := some e, grace := grace, residue := 0 })) l with hu
  have line : ∀ k, (u.line k).key = if k = l then { s.line l with entryRef := some e, phase := .admitted .selecting, port := none : LineRec }.key
      else (s.line k).key := by
    intro k
    simp only [hu, enterSelecting, modLine_line]
    by_cases hk : k = l
    · simp [hk, LineRec.key]
    · simp [hk]
  have links : Links u := by
    have free : Unclaimed s l := h.links.unclaimed (by rw [LineRec.key, hl]; rfl) (by rw [LineRec.key, hl]; rfl)
    refine links_keysKept (h.links.modLine (f := fun r => { r with entryRef := some e, phase := .admitted .selecting, port := none }) free nofun)
      ⟨fun k => ?_, fun _ => rfl, fun _ _ => id, fun _ => rfl⟩
    rw [line, modLine_line]
    split <;> rfl
  have refs : ∀ k, (u.refs k).length = (s.refs k).length + unreferenced (some e) k := by
    intro k
    have entryRef : ∀ j, (u.line j).entryRef = if j = l then some e else (s.line j).entryRef := by
      intro j
      refine (congrArg LineKey.entryRef (line j)).trans ?_
      split <;> rfl
    have less : (u.refs k).erase l = s.refs k := by
      rw [(refs_nodup u k).erase_eq_filter]
      unfold State.refs
      rw [List.filter_filter]
      congr 1
      funext j
      rw [entryRef]
      by_cases hj : j = l
      · simp [hj, noref]
      · simp [hj]
    have mem : l ∈ u.refs k ↔ e = k := by rw [mem_refs, entryRef, if_pos rfl, Option.some.injEq]
    rw [← less]
    unfold unreferenced
    by_cases hk : e = k
    · have here := mem.2 hk
      have := List.length_pos_of_mem here
      rw [List.length_erase_of_mem here, if_pos (by rw [hk])]
      omega
    · rw [List.erase_of_not_mem (fun hm => hk (mem.1 hm)), if_neg (by simpa using hk)]
      rfl
  have admitted : Law [] wb none p u := by
    refine ⟨links, h.progress, h.writing, fun k _ => ?_, nofun, fun k x hx => ?_, fun k hx => ?_, h.entries, h.once⟩
    · rw [line]
      split
      · rfl
      · exact h.refs k List.not_mem_nil
    · rw [refs, h.counts k x hx]
      rfl
    · obtain ⟨h1, h2⟩ := h.vacant k hx
      refine ⟨List.length_eq_zero_iff.1 ?_, nofun⟩
      rw [refs, h1]
      simp [unreferenced, h2]
  exact law_moves admitted (moves_requestMessage u l 4 _)

theorem law_takeResult {s : State} {op : SignOnOp} {r : SignOnResult} (h : Law [] wb r.admitted p s) :
    Law [] wb none p (takeResult s op r) := by
  unfold takeResult
  split
  · rename_i hcur
    obtain ⟨st, hst⟩ := isCurrent_phase hcur
    rw [← watchResult_line s op r] at hst
    have watched := law_watchResult h op r
    dsimp only
    cases r with
    | failed n => exact law_moves watched (moves_attemptFailed _ hst _)
    | credentialsOk => exact law_moves watched (moves_enterHeld hst)
    | admission e grace => exact law_admitLine watched hst grace
  · cases r with
    | admission e grace => exact h.leave
    | failed n => exact h
    | credentialsOk => exact h

theorem law_finishSignOn {s : State} (h : Law [] wb none p s) (o : WriteOutcome) (op : SignOnOp) :
    Law [] wb none p (finishSignOn s o op) := law_takeResult (law_performSignOn h o op)

/-! ## Freed entries and write-backs -/

/-- An entry that no line references is freed (R38). -/
theorem Law.freeEntry {s : State} (h : Law [] wb none p s) {e : EntryNo} (he : s.refs e = []) : Law [] wb none p (freeEntry s e) := by
  have entry : ∀ k, (Machine.freeEntry s e).entry k = if k = e then none else s.entry k := fun k => setEntry_entry s e k _
  have old : ∀ {k x}, (Machine.freeEntry s e).entry k = some x → k ≠ e ∧ s.entry k = some x := by
    intro k x hx
    rw [entry] at hx
    split at hx
    · cases hx
    · exact ⟨by assumption, hx⟩
  have list : ∀ k, k ≠ e → (k ∈ (Machine.freeEntry s e).oat.writeBackList ↔ k ∈ s.oat.writeBackList) := fun k hk => by
    simp [Machine.freeEntry, State.setEntry, hk]
  refine h.of_oat rfl h.writing (fun k x hx => ?_) (fun k hx => ?_) fun k j x y hx hy ha => h.once k j x y (old hx).2 (old hy).2 ha
  · obtain ⟨hk, hx⟩ := old hx
    obtain ⟨h1, h2, h3, h4, h5, h6⟩ := h.entries k x hx
    exact ⟨h.counts k x hx, h1, h2, h3, fun hc => (h4 hc).imp_left (list k hk).2, fun hs hm => h5 hs ((list k hk).1 hm), h6⟩
  · rw [entry] at hx
    split at hx
    · subst_vars
      exact ⟨he, nofun⟩
    · exact ⟨(h.vacant k hx).1, nofun⟩

/-- An entry without a session is referenced by no line. -/
theorem Law.refs_nil {s : State} (h : Law [] wb none p s) {e : EntryNo} {x : OatEntry} (hx : s.entry e = some x) (hc : ¬ 1 ≤ x.count) :
    s.refs e = [] := by
  have := h.counts e x hx
  exact List.length_eq_zero_iff.1 (by omega)

/-- Nothing is taken to be written back. -/
abbrev noneWriting : EntryNo → Prop := fun _ => False

theorem law_writeBackFailed {s : State} {e : EntryNo} (h : Law [] (fun k => k = e) none none s) (n : Nat) :
    Law [] noneWriting none none (writeBackFailed s e n) := by
  have told := law_markUncertain (law_raiseAccount h n causeWriteBackFailed)
  have idle : ∀ t : State, t.ctl.inProgress = none → ∀ k, t.writingBack k = true → noneWriting k := fun t ht k hk => by
    simp [State.writingBack, ht] at hk
  show Law [] noneWriting none none ((markUncertain (raiseAccount s n causeWriteBackFailed)).modEntry e fun x =>
    if 1 ≤ x.count then { x with dirty := true }
    else { x with dirty := true, retirePending := false, state := if s.queued e then .closing else .stuck })
  generalize hu : markUncertain (raiseAccount s n causeWriteBackFailed) = u at *
  have queued : s.queued e = u.queued e := by rw [← hu]; rfl
  unfold State.modEntry
  cases hx : u.entry e with
  | none =>
    rw [Option.map_none, ← hx, setEntry_entry_self]
    refine told.narrow (idle u told.progress) fun k x hk _ he => ?_
    rw [he, hx] at hk
    cases hk
  | some x =>
    obtain ⟨h1, h2, h3, h4, h5, h6⟩ := told.entries e x hx
    rw [Option.map_some]
    split
    · rename_i hc
      have opened := h3.2 hc
      have kept : Law [] (fun k => k = e) none none (u.setEntry e (some { x with dirty := true })) :=
        told.setEntry hx rfl rfl ⟨h1, h2, h3, h4, h5, h6⟩
      refine kept.narrow (idle _ told.progress) fun k y hk hcl he => ?_
      rw [he, setEntry_entry, if_pos rfl] at hk
      cases hk
      rw [opened] at hcl
      cases hcl
    · rename_i hc
      rw [queued]
      by_cases hq : u.queued e = true
      · have listed : e ∈ u.oat.writeBackList := by simpa [State.queued] using hq
        have kept : Law [] (fun k => k = e) none none
            (u.setEntry e (some { x with dirty := true, retirePending := false, state := .closing })) :=
          told.setEntry hx rfl rfl ⟨h1, h2, by simpa using hc, fun _ => .inl listed, nofun, nofun⟩
        rw [if_pos hq]
        exact kept.narrow (idle _ told.progress) fun k y _ _ he => .inl (he ▸ listed)
      · have unlisted : e ∉ u.oat.writeBackList := by simpa [State.queued] using hq
        have kept : Law [] (fun k => k = e) none none
            (u.setEntry e (some { x with dirty := true, retirePending := false, state := .stuck })) :=
          told.setEntry hx rfl rfl ⟨h1, h2, by simpa using hc, nofun, fun _ => unlisted, nofun⟩
        rw [if_neg hq]
        refine kept.narrow (idle _ told.progress) fun k y hk hcl he => ?_
        rw [he, setEntry_entry, if_pos rfl] at hk
        cases hk
        cases hcl

end

end Sys2Proof.Machine
end


/-! # Write-backs, requests and RESTART keep the law of sessions -/

section
namespace Sys2Proof.Machine

/-- The law of sessions with no operation in progress and no line being settled. -/
abbrev IdleLaw (s : State) : Prop := Law [] noneWriting none none s

theorem no_writing {s : State} (h : s.ctl.inProgress = none) (wb : EntryNo → Prop) : ∀ k, s.writingBack k = true → wb k := fun k hk => by
  simp [State.writingBack, h] at hk

/-! ## Write-backs -/

theorem freeEntry_refs (s : State) (e k : EntryNo) : (freeEntry s e).refs k = s.refs k := rfl


theorem law_vacateSlot {s : State} {e : EntryNo} (h : Law [] (fun k => k = e) none none s) {x : OatEntry} (hx : s.entry e = some x)
    (hc : ¬ 1 ≤ x.count) (o : WriteOutcome) (n : Nat) (slot : SlotNo) (a : Account) : IdleLaw (vacateSlot s o e n slot a) := by
  unfold vacateSlot
  have written := law_writeSlot h o slot.val (encodeSlot .vacated n a)
  have same : ∀ k, (s.writeSlot o slot.val (encodeSlot .vacated n a)).entry k = s.entry k := fun k => entry_of_oat (writeSlot_oat _ _ _ _) k
  generalize s.writeSlot o slot.val (encodeSlot .vacated n a) = u at written same ⊢
  dsimp only
  split
  · have counted : Law [] (fun k => k = e) none none (u.onCtl StoreCtl.countRetired) := law_onCtl written rfl
    have freed := counted.freeEntry (counted.refs_nil ((same e).trans hx) hc)
    refine freed.narrow (no_writing freed.progress _) fun k y hy _ hk => ?_
    rw [hk, freeEntry_entry, if_pos rfl] at hy
    cases hy
  · exact law_writeBackFailed written n

/-- The entry whose write-back completes needs it no longer (R38, R39). -/
theorem law_finishWriteBack {s : State} {e : EntryNo} (h : Law [] (fun k => k = e) none none s) (writes : List WriteOutcome) (n : Nat)
    (slot : SlotNo) (a : Account) : IdleLaw (finishWriteBack s writes e n slot a) := by
  unfold finishWriteBack
  have written := law_writeSlot h (firstOutcome writes) slot.val (encodeSlot .inUse n a)
  generalize s.writeSlot (firstOutcome writes) slot.val (encodeSlot .inUse n a) = u at written ⊢
  dsimp only
  split
  · unfold writeBackMatched
    split
    · rename_i hx
      exact written.narrow (no_writing written.progress _) fun k y hy _ hk => by rw [hk, hx] at hy; cases hy
    · rename_i x hx
      split
      · rename_i hc
        refine written.narrow (no_writing written.progress _) fun k y hy hcl hk => ?_
        rw [hk, hx] at hy
        cases hy
        rw [(written.entries e x hx).2.2.1.2 hc] at hcl
        cases hcl
      · rename_i hc
        split
        · have queued := written.queueEntry e
          refine queued.narrow (no_writing queued.progress _) fun k y _ _ hk => .inl ?_
          rw [hk, queueEntry_list]
          split
          · assumption
          · simp
        · split
          · exact law_vacateSlot written hx hc _ n slot a
          · have freed := written.freeEntry (written.refs_nil hx hc)
            refine freed.narrow (no_writing freed.progress _) fun k y hy _ hk => ?_
            rw [hk, freeEntry_entry, if_pos rfl] at hy
            cases hy
  · exact law_writeBackFailed written n

/-! ## Requests -/

section
variable {s : State}

/-- An edit of an account leaves a session limit of 4 or fewer. -/
def KeepsLimit (f : Account → Edit) : Prop := ∀ a, a.sessionLimit ≤ 4 → (f a).acct.sessionLimit ≤ 4

theorem law_lookupFault (h : IdleLaw s) (n : Nat) (clamped : Bool) : IdleLaw (lookupFault s n clamped) :=
  law_respond (law_storeFault h (some n)) _ _ _

theorem law_editAccount (h : IdleLaw s) (o : WriteOutcome) (n : Nat) (clamped : Bool) {f : Account → Edit} (hf : KeepsLimit f) :
    IdleLaw (editAccount s o n clamped f) := by
  unfold editAccount
  split
  · rename_i e x ho
    have hx := openAccount_entry ho
    unfold editOpen
    refine law_respond ?_ _ _ _
    split
    · have edited : IdleLaw (s.setEntry e (some { x with acct := (f x.acct).acct, dirty := true })) :=
        h.edit hx rfl (hf _ (h.entries e x hx).1)
      exact law_moves edited (moves_meterAction _ _ _ _)
    · exact h
  · split
    · unfold editSlot
      split
      · have written := law_writeSlot h o ‹Nat› (encodeSlot .inUse n (f ‹Account›).acct)
        dsimp only
        split
        · exact law_respond written _ _ _
        · exact law_respond (law_storeFault written (some n)) _ _ _
      · exact law_respond h _ _ _
    · exact law_respond h _ _ _
    · exact law_lookupFault h n clamped

theorem keepsLimit_of_eq {f : Account → Edit} (h : ∀ a, (f a).acct.sessionLimit = a.sessionLimit) : KeepsLimit f := fun a ha => by
  rw [h a]
  exact ha

theorem keepsLimit_change (f : AccountChange) : KeepsLimit (editChange f) := fun a ha => by
  show (f.sessionLimit.map clampSessionLimit).getD a.sessionLimit ≤ 4
  cases f.sessionLimit with
  | none => exact ha
  | some n => exact (clamp_mem (by decide)).2

theorem law_readAndClear (h : IdleLaw s) (o : WriteOutcome) (n : Nat) : IdleLaw (readAndClear s o n) := by
  unfold readAndClear
  split
  · rename_i e x ho
    have hx := openAccount_entry ho
    have cleared : IdleLaw (s.setEntry e (some { x with acct := clearTotals x.acct, dirty := true })) :=
      h.edit hx rfl (h.entries e x hx).1
    exact law_respond cleared _ _ _
  · split
    · rename_i slot a _
      have written := law_writeSlot h o slot (encodeSlot .inUse n (clearTotals a))
      dsimp only
      split
      · exact law_respond written _ _ _
      · exact law_respond (law_storeFault written (some n)) _ _ _
    · exact law_respond h _ _ _
    · exact law_lookupFault h n false

theorem law_addAccount (h : IdleLaw s) (o : WriteOutcome) (p : NewAccount) : IdleLaw (addAccount s o p) := by
  unfold addAccount
  dsimp only
  split
  · exact law_respond h _ _ _
  · split
    · exact law_respond h _ _ _
    · split
      · exact law_respond h _ _ _
      · exact law_lookupFault h _ _
      · exact law_respond h _ _ _
      · rename_i slot _
        have written := law_writeSlot h o slot (encodeSlot .inUse p.account (newAccount p))
        unfold placeAccount
        generalize s.writeSlot o slot (encodeSlot .inUse p.account (newAccount p)) = u at written ⊢
        dsimp only
        split
        · refine law_respond (law_onCtl ?_ (countIn_fields _ _).2) _ _ _
          split
          · exact law_onCtl written rfl
          · exact written
        · exact law_respond (law_storeFault written (some _)) _ _ _

theorem law_readAccount (h : IdleLaw s) (n : Nat) : IdleLaw (readAccount s n) := by
  unfold readAccount
  split
  · dsimp only
    split
    · exact law_lookupFault h n false
    · exact law_respond h _ _ _
  · split
    · exact law_respond h _ _ _
    · exact law_respond h _ _ _
    · exact law_lookupFault h n false

theorem law_writeReplacement (h : IdleLaw s) (o : WriteOutcome) (slot : Nat) (image : List Byte) :
    IdleLaw (writeReplacement s o slot image) := by
  have written := law_writeSlot h o slot (replaceBytes image)
  unfold writeReplacement
  generalize s.writeSlot o slot (replaceBytes image) = u at written ⊢
  dsimp only
  split
  · refine law_respond (law_onCtl written ?_) _ _ _
    rw [(countIn_fields _ _).2, (countOut_fields _ _).2]
  · exact law_respond (law_storeFault written _) _ _ _

theorem law_replaceSlot (h : IdleLaw s) (o : WriteOutcome) (slot : Nat) (image : List Byte) : IdleLaw (replaceSlot s o slot image) := by
  unfold replaceSlot
  split
  · exact law_respond h _ _ _
  · split
    · exact law_writeReplacement h o _ _
    · split
      · exact law_respond h _ _ _
      · exact law_lookupFault h _ _
      · exact law_writeReplacement h o _ _

/-- A STUCK entry that is to be retired is queued, and so is CLOSING (R36, R44). -/
theorem law_retireOpen (h : IdleLaw s) {e : EntryNo} {x : OatEntry} (hx : s.entry e = some x) : IdleLaw (retireOpen s e x) := by
  obtain ⟨h1, h2, h3, h4, h5, h6⟩ := h.entries e x hx
  unfold retireOpen
  split
  · exact h
  · dsimp only
    split
    · rename_i hs
      have unlisted := h5 hs
      have closed : Law [] (fun k => False ∨ k = e) none none (s.setEntry e (some { x with retirePending := true, state := .closing })) := by
        refine (h.widen fun k => Or.inl).setEntry hx rfl rfl ⟨h1, h2, ?_, fun _ => .inr (.inr rfl), nofun, nofun⟩
        rw [← h3, hs]
        simp
      have queued := closed.queueEntry e
      have same : queueEntry (s.setEntry e (some { x with retirePending := true })) e =
          queueEntry (s.setEntry e (some { x with retirePending := true, state := .closing })) e := by
        have listed : ∀ y, ¬(s.setEntry e y).queued e = true := fun y => by simpa [State.queued, State.setEntry] using unlisted
        unfold queueEntry
        rw [if_neg (listed _), if_neg (listed _)]
        simp [State.modEntry, State.setEntry, State.entry, hs, Vector.get_eq_getElem]
      rw [same]
      refine queued.narrow (no_writing queued.progress _) fun k y _ _ hk => .inl ?_
      rw [hk.resolve_left id, queueEntry_list]
      split
      · assumption
      · simp
    · rename_i hs
      exact h.setEntry hx rfl rfl ⟨h1, h2, h3, h4, h5, fun _ => hs⟩

theorem law_retire (h : IdleLaw s) (o : WriteOutcome) (n : Nat) : IdleLaw (retire s o n) := by
  unfold retire
  split
  · rename_i ho
    exact law_respond (law_retireOpen h (openAccount_entry ho)) _ _ _
  · split
    · rename_i slot a _
      have written := law_writeSlot h o slot (encodeSlot .vacated n a)
      generalize s.writeSlot o slot (encodeSlot .vacated n a) = u at written ⊢
      dsimp only
      split
      · exact law_respond (law_onCtl written rfl) _ _ _
      · exact law_respond (law_storeFault written (some n)) _ _ _
    · exact law_respond h _ _ _
    · exact law_lookupFault h n false

theorem law_discardOpen (h : IdleLaw s) (n : Nat) : IdleLaw (discardOpen s n) := by
  unfold discardOpen
  split
  · exact law_respond h _ _ _
  · rename_i e x ho
    have hx := openAccount_entry ho
    split
    · rename_i hs
      have closed : ¬ 1 ≤ x.count := fun hc => by
        have := (h.entries e x hx).2.2.1.2 hc
        rw [hs] at this
        cases this
      exact law_respond (h.freeEntry (h.refs_nil hx closed)) _ _ _
    · exact law_respond h _ _ _

theorem law_finishAttach (h : IdleLaw s) (writes : List WriteOutcome) (code clear : Nat) : IdleLaw (finishAttach s writes code clear) := by
  unfold finishAttach
  dsimp only
  generalize (if clear = 1 then clearStore s.store s.ctl.capacity writes else s.store) = m
  refine law_respond ?_ _ _ _
  exact h.of_parts rfl rfl rfl rfl rfl

/-! ## RESTART -/

/-- What the write-backs of RESTART have done: every entry of the list so far is free, and no entry is made. -/
structure Flushed (f g : Flush) : Prop where
  law : IdleLaw f.state → (∀ e, f.state.refs e = []) → IdleLaw g.state ∧ ∀ e, g.state.refs e = []
  old : ∀ {e x}, g.state.entry e = some x → f.state.entry e = some x

/-- One write-back of RESTART frees its entry, whatever the writes left (R47). -/
theorem flushOne_state (f : Flush) (e : EntryNo) : (flushOne f e).state = f.state ∧ f.state.entry e = none ∨
    ∃ u, (flushOne f e).state = freeEntry u e ∧ u.oat = f.state.oat ∧ u.lc = f.state.lc ∧ u.pa = f.state.pa ∧
      u.ctl.inProgress = f.state.ctl.inProgress := by
  unfold flushOne
  split
  · exact .inl ⟨rfl, by assumption⟩
  · refine .inr ?_
    dsimp only
    split
    · split
      · unfold flushVacated
        dsimp only
        split
        · exact ⟨_, rfl, by simp [State.onCtl], by simp [State.onCtl], by simp [State.onCtl], by simp [State.onCtl, StoreCtl.countRetired]⟩
        · exact ⟨_, rfl, by simp [markUncertain, State.onCtl], by simp [markUncertain, State.onCtl],
            by simp [markUncertain, State.onCtl], by simp [markUncertain, State.onCtl]⟩
      · exact ⟨_, rfl, by simp, by simp, by simp, by simp⟩
    · exact ⟨_, rfl, by simp [markUncertain, State.onCtl], by simp [markUncertain, State.onCtl],
        by simp [markUncertain, State.onCtl], by simp [markUncertain, State.onCtl]⟩

theorem flushed_flushOne (f : Flush) (e : EntryNo) : Flushed f (flushOne f e) ∧ (flushOne f e).state.entry e = none := by
  rcases flushOne_state f e with ⟨same, hnone⟩ | ⟨u, hu, hoat, hlc, hpa, hprog⟩
  · exact ⟨⟨fun h hr => by rw [same]; exact ⟨h, hr⟩, fun hx => by rwa [same] at hx⟩, by rw [same]; exact hnone⟩
  · have refs : ∀ k, u.refs k = f.state.refs k := refs_of_role fun k => by simp [State.line, hlc]
    refine ⟨⟨fun h hr => ?_, fun {k x} hx => ?_⟩, by rw [hu, freeEntry_entry, if_pos rfl]⟩
    · rw [hu]
      have law : IdleLaw u := h.of_parts (by rw [hlc]) (by rw [hpa]) (by rw [hpa]) hoat hprog
      exact ⟨law.freeEntry ((refs e).trans (hr e)), fun k => (freeEntry_refs u e k).trans ((refs k).trans (hr k))⟩
    · rw [hu, freeEntry_entry] at hx
      split at hx
      · cases hx
      · rwa [entry_of_oat hoat] at hx

theorem flushed_flushAll (es : List EntryNo) (f : Flush) :
    Flushed f (es.foldl flushOne f) ∧ ∀ e ∈ es, (es.foldl flushOne f).state.entry e = none := by
  induction es generalizing f with
  | nil => exact ⟨⟨fun h hr => ⟨h, hr⟩, id⟩, nofun⟩
  | cons e es ih =>
    obtain ⟨first, gone⟩ := flushed_flushOne f e
    obtain ⟨rest, later⟩ := ih (flushOne f e)
    refine ⟨⟨fun h hr => ?_, first.old ∘ rest.old⟩, fun k hk => ?_⟩
    · obtain ⟨h1, hr1⟩ := first.law h hr
      exact rest.law h1 hr1
    · rcases List.mem_cons.1 hk with rfl | hk
      · by_contra hn
        obtain ⟨x, hx⟩ := Option.ne_none_iff_exists'.1 hn
        rw [rest.old hx] at gone
        cases gone
      · exact later k hk

/-- RESTART completes: every CLOSING entry stood in the list, and is free (R47, R206). -/
theorem law_finishRestart (h : IdleLaw s) (hr : ∀ e, s.refs e = []) (writes : List WriteOutcome) (ended : Nat) :
    IdleLaw (finishRestart s writes ended) := by
  obtain ⟨whole, gone⟩ := flushed_flushAll s.oat.writeBackList { state := s, writes := writes, written := 0, lost := 0 }
  unfold finishRestart
  generalize s.oat.writeBackList.foldl flushOne { state := s, writes := writes, written := 0, lost := 0 } = f at whole gone ⊢
  obtain ⟨law, refs⟩ := whole.law h hr
  refine law_respond ?_ _ _ _
  refine Law.of_parts (s := { f.state with oat := { f.state.oat with writeBackList := [] } }) ?_ rfl rfl rfl rfl rfl
  refine law.of_oat rfl (no_writing law.progress _) (fun e x hx => ?_) law.vacant law.once
  obtain ⟨h1, h2, h3, h4, h5, h6⟩ := law.entries e x hx
  refine ⟨law.counts e x hx, h1, h2, h3, fun hc => ?_, fun _ => List.not_mem_nil, h6⟩
  have listed := ((h.entries e x (whole.old hx)).2.2.2.1 hc).resolve_right id
  have free := gone e listed
  rw [show f.state.entry e = some x from hx] at free
  cases free

/-- No line is in call. -/
def NoneInCall (s : State) : Prop := ∀ l, (s.line l).key.inCall = false

/-- A line out of call is released to IDLE (R77, R197). -/
theorem moves_releaseLines (ls : List LineNo) (h : NoneInCall s) :
    Moves s (s.onLines fun c => ls.foldl releaseForRestart c) ∧ NoneInCall (s.onLines fun c => ls.foldl releaseForRestart c) := by
  induction ls generalizing s with
  | nil => exact ⟨.refl s, h⟩
  | cons l ls ih =>
    have resting : (s.line l).phase = .closing ∨ (s.line l).phase = .guard ∨ (s.line l).phase = .idle ∨ (s.line l).phase = .down := by
      have out : (s.line l).phase.inCall = false := h l
      cases hp : (s.line l).phase with
      | closing => exact .inl rfl
      | guard => exact .inr (.inl rfl)
      | idle => exact .inr (.inr (.inl rfl))
      | down => exact .inr (.inr (.inr rfl))
      | _ => rw [hp] at out; cases out
    have idle : QuietRec (s.line l) (restartLine (s.line l)) :=
      .of_resting resting (.inr (.inr (.inl rfl))) ⟨rfl, rfl, rfl, rfl⟩
    have hush : Hush s.lc (releaseForRestart s.lc l) := by
      unfold releaseForRestart
      split
      · exact .refl _
      · exact (hush_issue s.lc _).trans (hush_modLine idle)
      · exact hush_modLine idle
    have one : Moves s (s.onLines fun c => releaseForRestart c l) ∧ NoneInCall (s.onLines fun c => releaseForRestart c l) :=
      ⟨moves_lines hush, fun k => (congrArg LineKey.inCall (hush.line k).key).trans (h k)⟩
    obtain ⟨m, hn⟩ := ih one.2
    exact ⟨one.1.trans m, hn⟩

theorem settleForRestart_closed (h : IdleLaw s) (l : LineNo) :
    IdleLaw (settleForRestart s l) ∧ ((settleForRestart s l).line l).key.inCall = false ∧
      ∀ k, (s.line k).key.inCall = false → ((settleForRestart s l).line k).key.inCall = false := by
  obtain ⟨law, settling⟩ := moves_law (moves_settleForRestart s l) h
  refine ⟨law, ?_, fun k hk => ?_⟩
  · unfold settleForRestart
    split
    · show ((settle restartAction s l .restart false none).line l).phase.inCall = false
      rw [settle_phase]
      rfl
    · rename_i hn
      exact eq_false_of_ne_true hn
  · by_contra hn
    have := settling.inCall k (Bool.not_eq_false _ ▸ hn)
    rw [hk] at this
    cases this

/-- Every call is ended: each line is settled in its turn, and none comes into call again (R196). -/
theorem settleAll_closed (ls : List LineNo) (h : IdleLaw s) :
    IdleLaw (ls.foldl settleForRestart s) ∧ (∀ l ∈ ls, ((ls.foldl settleForRestart s).line l).key.inCall = false) ∧
      ∀ k, (s.line k).key.inCall = false → ((ls.foldl settleForRestart s).line k).key.inCall = false := by
  induction ls generalizing s with
  | nil => exact ⟨h, nofun, fun _ => id⟩
  | cons l ls ih =>
    obtain ⟨law, here, kept⟩ := settleForRestart_closed h l
    obtain ⟨laws, done, still⟩ := ih law
    refine ⟨laws, fun k hk => ?_, fun k hk => still k (kept k hk)⟩
    rcases List.mem_cons.1 hk with rfl | hk
    · exact still _ here
    · exact done k hk

theorem law_endCallsForRestart (h : IdleLaw s) : IdleLaw (endCallsForRestart s) ∧ NoneInCall (endCallsForRestart s) := by
  have first := (settleAll_closed s.linesWaiting h).1
  have second := (settleAll_closed (s.linesWaiting.foldl settleForRestart s).linesWithPorts first).1
  obtain ⟨law, done, _⟩ := settleAll_closed allLines second
  exact ⟨law, fun l => done l (List.mem_finRange l)⟩

theorem law_beginRestart (h : IdleLaw s) : IdleLaw (beginRestart s) ∧ NoneInCall (beginRestart s) := by
  have closed : IdleLaw (s.onLines fun c => { c with params := { c.params with acceptingCalls := false } }) :=
    h.of_parts rfl rfl rfl rfl rfl
  obtain ⟨ended, none1⟩ := law_endCallsForRestart closed
  obtain ⟨released, none2⟩ := moves_releaseLines allLines none1
  obtain ⟨law, settling⟩ := moves_law (released.trans (moves_flushEntries _)) ended
  refine ⟨law, fun l => ?_⟩
  by_contra hn
  have := settling.inCall l (Bool.not_eq_false _ ▸ hn)
  rw [none1 l] at this
  cases this

theorem refs_nil_of_none (h : IdleLaw s) (hn : ∀ l, (s.line l).key.admitted = false) (e : EntryNo) : s.refs e = [] := by
  refine List.eq_nil_iff_forall_not_mem.2 fun l hl => ?_
  have ref := h.refs l List.not_mem_nil
  rw [hn l, show (s.line l).key.entryRef = some e from mem_refs.1 hl] at ref
  cases ref

end

/-! ## The whole law -/

/-- The law of sessions of a state between commands (R28, R49, R197, R206). -/
structure Sessions (s : State) : Prop where
  law : Law [] (fun e => s.writingBack e = true) none s.ctl.inProgress s
  restart : ∀ n, s.ctl.inProgress = some (.restart n) → ∀ l, (s.line l).key.admitted = false
  notWaiting : s.ctl.inProgress ≠ some (.supervisor .restart)

/-- With no operation in progress. -/
theorem Sessions.of_idle {s : State} (h : IdleLaw s) : Sessions s where
  law := by
    rw [h.progress]
    exact h.narrow (fun _ => id) fun _ _ _ _ k => k.elim
  restart n hn := by rw [h.progress] at hn; cases hn
  notWaiting hn := by rw [h.progress] at hn; cases hn

theorem Sessions.idle {s : State} (h : Sessions s) (hp : s.ctl.inProgress = none) : IdleLaw s := by
  have law := h.law
  rw [hp] at law
  exact law.narrow (no_writing hp _) fun e _ _ _ he => absurd he (by simp [State.writingBack, hp])

theorem sessions_of_lawful {s : State} (hl : LinksLawful s) (h : SessionsLawful s) : Sessions s := by
  obtain ⟨counts, ⟨entries, once⟩, refs, restart, waiting⟩ := h
  have same : ∀ e, s.sessions e = s.refs e := fun e => by
    unfold State.sessions State.refs
    congr 1
    funext l
    cases he : decide ((s.line l).entryRef = some e) with
    | false => simp
    | true =>
      have := refs l
      rw [of_decide_eq_true he] at this
      simp [← this]
  refine ⟨⟨links_of_lawful hl, rfl, fun _ => id, fun l _ => refs l, nofun, fun e x hx => ?_, fun e hx => ?_, fun e x hx => ?_, once⟩,
    restart, waiting⟩
  · have := counts e
    rw [hx, same] at this
    simpa [unreferenced] using this
  · have := counts e
    rw [hx, same] at this
    exact ⟨this, nofun⟩
  · obtain ⟨h1, h2, h3, h4, h5, h6⟩ := entries e x hx
    refine ⟨h1, h2, h3, fun hc => (h4 hc).imp_right fun ⟨n, slot, a, hw⟩ => ?_, h5, h6⟩
    simp [State.writingBack, hw]

theorem Sessions.lawful {s : State} (h : Sessions s) : SessionsLawful s := by
  have refs : ∀ l, (s.line l).entryRef.isSome = (s.line l).phase.isAdmitted := fun l => h.law.refs l List.not_mem_nil
  have same : ∀ e, s.sessions e = s.refs e := fun e => by
    unfold State.sessions State.refs
    congr 1
    funext l
    cases he : decide ((s.line l).entryRef = some e) with
    | false => simp
    | true =>
      have := refs l
      rw [of_decide_eq_true he] at this
      simp [← this]
  refine ⟨fun e => ?_, ⟨fun e x hx => ?_, h.law.once⟩, refs, h.restart, h.notWaiting⟩
  · cases hx : s.entry e with
    | none => rw [same]; exact (h.law.vacant e hx).1
    | some x => rw [same]; simpa [unreferenced] using h.law.counts e x hx
  · obtain ⟨h1, h2, h3, h4, h5, h6⟩ := h.law.entries e x hx
    refine ⟨h1, h2, h3, fun hc => (h4 hc).imp_right fun hw => ?_, h5, h6⟩
    unfold State.writingBack at hw
    split at hw
    · rename_i k n slot a hp
      obtain rfl := of_decide_eq_true hw
      exact ⟨n, slot, a, hp⟩
    all_goals cases hw

theorem leaveEntry_ctl (s : State) (e : EntryNo) : (leaveEntry s e).ctl = s.ctl := by
  unfold leaveEntry
  split
  · rfl
  · dsimp only
    split
    · split
      · rfl
      · rw [queueEntry_oat]; rfl
    · rfl

/-- Of the Account Store Controller, the moves of a line and of its session change the sign-on queue alone (R10). -/
theorem ctl_lifts : Lifts fun s t => t.ctl = { s.ctl with signOnQueue := t.ctl.signOnQueue } where
  refl _ := rfl
  trans h k := by rw [k, h]
  calm h := h.ctl
  edit _ _ := rfl
  queue s e := by rw [queueEntry_oat]
  leave s e := by rw [leaveEntry_ctl]

theorem sessions_moves {s t : State} (h : Sessions s) (k : Moves s t) : Sessions t := by
  obtain ⟨law, settling⟩ := moves_law k h.law
  have prog : t.ctl.inProgress = s.ctl.inProgress := by rw [ctl_lifts.moves k]
  refine ⟨?_, fun n hn l => ?_, by rw [prog]; exact h.notWaiting⟩
  · rw [prog]
    exact law.narrow (fun _ => id) fun e x _ _ he => .inr (by rwa [writingBack_of prog])
  · rw [prog] at hn
    by_contra ha
    have := settling.admitted l (Bool.not_eq_false _ ▸ ha)
    rw [h.restart n hn l] at this
    cases this

/-- A change of nothing that the law sees. -/
theorem Sessions.of_parts {s t : State} (h : Sessions s) (hlc : t.lc.lines = s.lc.lines) (hp : t.pa.ports = s.pa.ports)
    (hg : t.pa.groups = s.pa.groups) (hoat : t.oat = s.oat) (hctl : t.ctl.inProgress = s.ctl.inProgress) : Sessions t := by
  have law := h.law.of_parts hlc hp hg hoat hctl
  have line : ∀ l, t.line l = s.line l := fun l => by simp [State.line, LineCtl.line, hlc]
  refine ⟨?_, fun n hn l => ?_, by rw [hctl]; exact h.notWaiting⟩
  · rw [hctl]
    exact law.narrow (fun _ => id) fun e x _ _ he => .inr (by rwa [writingBack_of hctl])
  · rw [line]
    exact h.restart n (hctl ▸ hn) l

/-- An operation other than a write-back begins. -/
theorem sessions_inProgress {s : State} (h : IdleLaw s) {op : Operation}
    (hr : ∀ n, op = .restart n → ∀ l, (s.line l).key.admitted = false) (hn : op ≠ .supervisor .restart) : Sessions (s.inProgress op) := by
  refine ⟨⟨links_keysKept h.links (keysKept_of_parts rfl rfl rfl), rfl, fun _ => id, h.refs, nofun, h.counts, h.vacant, fun e x hx => ?_, h.once⟩,
    fun n hp => hr n (Option.some.inj hp), fun hp => hn (Option.some.inj hp)⟩
  obtain ⟨h1, h2, h3, h4, h5, h6⟩ := h.entries e x hx
  exact ⟨h1, h2, h3, fun hc => .inl ((h4 hc).resolve_right id), h5, h6⟩

/-! ## The rotation and the completion -/

theorem law_performRequest {s : State} (h : IdleLaw s) (writes : List WriteOutcome) {r : StoreReq} (hr : r ≠ .restart) :
    IdleLaw (performRequest s writes r) := by
  cases r with
  | attach code clear => exact law_finishAttach h writes code clear
  | add p => exact law_addAccount h _ p
  | setPassword n chars => exact law_editAccount h _ n _ (keepsLimit_of_eq fun _ => rfl)
  | change n f => exact law_editAccount h _ n _ (keepsLimit_change f)
  | grant n amount => exact law_editAccount h _ n _ (keepsLimit_of_eq fun _ => rfl)
  | revoke n amount => exact law_editAccount h _ n _ (keepsLimit_of_eq fun _ => rfl)
  | forgive n => exact law_editAccount h _ n _ (keepsLimit_of_eq fun _ => rfl)
  | readAccount n => exact law_readAccount h n
  | readSlots first count => exact law_respond h _ _ _
  | readAndClear n => exact law_readAndClear h _ n
  | replace slot image => exact law_replaceSlot h _ slot image
  | retire n => exact law_retire h _ n
  | flush => exact law_respond (law_moves h (moves_flushEntries s)) _ _ _
  | discard n => exact law_discardOpen h n
  | restart => exact absurd rfl hr

theorem not_admitted_of_none {s : State} (h : NoneInCall s) (l : LineNo) : (s.line l).key.admitted = false := (key_not_inCall (h l)).1

theorem sessions_startRequest {s : State} (h : IdleLaw s) (r : StoreReq) : Sessions (startRequest s r) := by
  unfold startRequest
  split
  · unfold startAttach
    split
    · exact .of_idle (law_respond h _ _ _)
    · exact sessions_inProgress (law_onCtl h rfl) nofun nofun
  · obtain ⟨law, none⟩ := law_beginRestart h
    unfold startRestart
    dsimp only
    split
    · exact .of_idle (law_finishRestart law (refs_nil_of_none law (not_admitted_of_none none)) _ _)
    · exact sessions_inProgress law (fun _ _ => not_admitted_of_none none) nofun
  · rename_i hr
    split
    · exact sessions_inProgress h nofun fun hq => hr (by cases hq; rfl)
    · exact .of_idle (law_performRequest h [] fun hq => hr hq)

/-- A write-back begins: its entry needs the list no longer (R37). -/
theorem sessions_beginWriteBack {s : State} (h : IdleLaw s) {e : EntryNo} {rest : List EntryNo} (hl : s.oat.writeBackList = e :: rest) :
    Sessions (beginWriteBack s e rest) := by
  have sub : ∀ k, k ∈ rest → k ∈ s.oat.writeBackList := fun k hk => by rw [hl]; exact List.mem_cons_of_mem e hk
  have popped : ∀ k, k ∈ s.oat.writeBackList → k ≠ e → k ∈ rest := fun k hk hke => by
    rw [hl] at hk
    exact (List.mem_cons.1 hk).resolve_left hke
  have shorter : Law [] (fun k => k = e) none none { s with oat := { s.oat with writeBackList := rest } } := by
    refine h.of_oat rfl (no_writing h.progress _) (fun k x hx => ?_) h.vacant h.once
    obtain ⟨h1, h2, h3, h4, h5, h6⟩ := h.entries k x hx
    refine ⟨h.counts k x hx, h1, h2, h3, fun hc => ?_, fun hs hm => h5 hs (sub k hm), h6⟩
    by_cases hke : k = e
    · exact .inr hke
    · exact .inl (popped k ((h4 hc).resolve_right id) hke)
  unfold beginWriteBack
  dsimp only
  split
  · rename_i hx
    refine .of_idle (shorter.narrow (no_writing h.progress _) fun k x hk _ hke => ?_)
    rw [hke] at hk
    rw [show s.entry e = some x from hk] at hx
    cases hx
  · rename_i x hx
    have clean : Law [] (fun k => k = e) none none (({ s with oat := { s.oat with writeBackList := rest } } : State).setEntry e (some { x with dirty := false })) :=
      shorter.setEntry hx rfl rfl (shorter.entries e x hx)
    refine ⟨⟨links_keysKept clean.links (keysKept_of_parts rfl rfl rfl), rfl, fun _ => id, clean.refs, nofun, clean.counts, clean.vacant,
      fun k y hy => ?_, clean.once⟩, nofun, nofun⟩
    obtain ⟨h1, h2, h3, h4, h5, h6⟩ := clean.entries k y hy
    exact ⟨h1, h2, h3, fun hc => (h4 hc).imp_right fun hk => by simp [State.writingBack, State.onCtl, hk], h5, h6⟩

theorem sessions_beginClass {s t : State} (h : IdleLaw s) {c : RotationClass} (hc : beginClass s c = some t) : Sessions t := by
  have pointed : IdleLaw (setPointer s c.following) := law_onCtl h rfl
  cases c with
  | signOn =>
    simp only [beginClass] at hc
    split at hc
    · cases hc
    · cases hc
      have taken := law_onCtl (f := fun x => { x with signOnQueue := ‹List SignOnOp› }) pointed rfl
      unfold startSignOn
      split
      · exact sessions_inProgress taken nofun nofun
      · exact .of_idle (law_finishSignOn taken _ _)
  | writeBack =>
    simp only [beginClass] at hc
    split at hc
    · cases hc
    · rename_i hl
      cases hc
      exact sessions_beginWriteBack pointed hl
  | supervisor =>
    simp only [beginClass] at hc
    split at hc
    · cases hc
    · cases hc
      exact sessions_startRequest (law_onCtl (f := fun x => { x with waiting := none }) pointed rfl) _

theorem sessions_rotationChoice {s : State} (h : Sessions s) : Sessions (rotationChoice s) := by
  rcases rotationChoice_cases s with same | ⟨hp, c, hc⟩
  · rw [same]; exact h
  · exact sessions_beginClass (h.idle hp) hc

theorem sessions_storeOperationComplete {s : State} (h : Sessions s) (writes : List WriteOutcome) :
    Sessions (storeOperationComplete s writes) := by
  unfold storeOperationComplete
  split
  · exact h
  · rename_i op hp
    set u := s.onCtl (fun c => { c with inProgress := none }) with hu
    have prog : u.ctl.inProgress = none := rfl
    have cleared : Law [] (fun e => s.writingBack e = true) none none u :=
      ⟨links_keysKept h.law.links (keysKept_of_parts rfl rfl rfl), rfl, no_writing prog _, h.law.refs, nofun, h.law.counts, h.law.vacant,
        fun e x hx => h.law.entries e x hx, h.law.once⟩
    have idle : (∀ e, s.writingBack e = false) → IdleLaw u := fun hw =>
      cleared.narrow (no_writing prog _) fun e _ _ _ he => by rw [hw e] at he; cases he
    cases op with
    | signOn op => exact .of_idle (law_finishSignOn (idle fun e => by simp [State.writingBack, hp]) _ op)
    | writeBack e n slot a =>
      have writing : Law [] (fun k => k = e) none none u := cleared.narrow (no_writing prog _) fun k _ _ _ hk => by
        simp only [State.writingBack, hp, decide_eq_true_eq] at hk
        exact .inr hk.symm
      exact .of_idle (law_finishWriteBack writing writes n slot a)
    | supervisor r =>
      exact .of_idle (law_performRequest (idle fun e => by simp [State.writingBack, hp]) writes fun hr => h.notWaiting (hr ▸ hp))
    | restart n =>
      have law := idle fun e => by simp [State.writingBack, hp]
      exact .of_idle (law_finishRestart law (refs_nil_of_none law (h.restart n hp)) writes n)

/-! ## Every command -/

/-- A call is answered: the line was IDLE, and references no entry (R53, R54). -/
theorem sessions_answer {s : State} (h : Sessions s) {l : LineNo} (hl : (s.line l).phase = .idle) :
    Sessions (s.onLines fun c => (c.issue (.answer l)).modLine l (answeredLine c.params.answerLimit)) := by
  set issued := s.onLines fun c => c.issue (.answer l) with hi
  have commanded : Sessions issued := h.of_parts rfl rfl rfl rfl rfl
  have out : (issued.line l).key.inCall = false := by
    show (s.line l).phase.inCall = false
    rw [hl]
    rfl
  obtain ⟨notAdmitted, noPort, notWaiting⟩ := key_not_inCall out
  have noEntry : (issued.line l).key.entryRef = none := by
    have := commanded.law.refs l List.not_mem_nil
    rwa [notAdmitted, Option.isSome_eq_false_iff, Option.isNone_iff_eq_none] at this
  have line : ∀ k, (issued.modLine l (answeredLine s.lc.params.answerLimit)).line k = if k = l then _ else issued.line k :=
    fun k => modLine_line issued l k _
  have entryRef : ∀ k, ((issued.modLine l (answeredLine s.lc.params.answerLimit)).line k).key.entryRef = (issued.line k).key.entryRef := by
    intro k
    rw [line]
    split
    · subst_vars; exact noEntry.symm
    · rfl
  have admitted : ∀ k, ((issued.modLine l (answeredLine s.lc.params.answerLimit)).line k).key.admitted = (issued.line k).key.admitted := by
    intro k
    rw [line]
    split
    · subst_vars; exact notAdmitted.symm
    · rfl
  have links := commanded.law.links.modLine (f := answeredLine s.lc.params.answerLimit) (commanded.law.links.unclaimed noPort notWaiting) nofun
  have refs := refs_of_role entryRef
  show Sessions (issued.modLine l (answeredLine s.lc.params.answerLimit))
  exact {
    law := {
      links := links
      progress := rfl
      writing := fun _ => id
      refs := fun k hk => by rw [entryRef, admitted]; exact commanded.law.refs k hk
      closed := nofun
      counts := fun e x hx => by rw [refs]; exact commanded.law.counts e x hx
      vacant := fun e hx => by rw [refs]; exact commanded.law.vacant e hx
      entries := commanded.law.entries
      once := commanded.law.once }
    restart := fun n hn k => by rw [admitted]; exact commanded.restart n hn k
    notWaiting := commanded.notWaiting }

theorem sessions_acts {W : Prop} {Op : State → State → Prop} (hop : ∀ s t, Op s t → Sessions s → Sessions t) {s t : State}
    (k : Acts W Op s t) (h : Sessions s) : Sessions t := by
  induction k with
  | refl s => exact h
  | trans _ _ ih1 ih2 => exact ih2 (ih1 h)
  | moves k => exact sessions_moves h k
  | op k => exact hop _ _ k h
  | answer hl => exact sessions_answer h hl
  | port p _ => exact h.of_parts rfl rfl rfl rfl rfl
  | calendar c _ _ => exact h.of_parts rfl rfl rfl rfl rfl
  | params p _ => exact h.of_parts rfl rfl rfl rfl rfl
  | message m text _ => exact h.of_parts rfl rfl rfl rfl rfl
  | attention a _ => exact h.of_parts rfl rfl rfl rfl rfl
  | wait r _ => exact h.of_parts rfl rfl rfl rfl rfl

theorem exec_sessions {i : Instr} {s t : State} (h : exec i s = .next t) (hs : Sessions s) : Sessions t := by
  by_cases hi : ∃ d m, i = .powerOnReset d m
  · obtain ⟨d, m, rfl⟩ := hi
    cases h
    exact (sessions_of_lawful reset_linksLawful reset_sessionsLawful).of_parts rfl rfl rfl rfl rfl
  · refine sessions_acts (Op := fun s t => Sessions s → Sessions t) (W := False) (fun _ _ k => k)
      (exec_acts h (fun d m k => hi ⟨d, m, k⟩) False.elim (fun _ => sessions_rotationChoice) fun _ w _ k => ?_) hs
    exact sessions_storeOperationComplete k w

/-- Settles O7: with the law of links in one direction (`Links`), the law of sessions is kept by every move, also while a line is
being settled (`Law`), and by every store operation. -/
theorem sessionsStayCounted : Obligations.SessionsStayCounted := by
  unfold Obligations.SessionsStayCounted
  intro s t hl hs h
  have start := sessions_of_lawful hl hs
  unfold step at h
  split at h
  · cases h
    exact hs
  · exact (exec_sessions h (start.of_parts rfl rfl rfl rfl rfl)).lawful

end Sys2Proof.Machine
end


/-! # A lookup follows the probe chain -/

section
namespace Sys2Proof.Machine

/-- The slot a probe examines after `k` others, from one on (R7). -/
def chainSlot (capacity start k : Nat) : Nat := (start + k) % capacity

/-- The first VACATED slot among the first `k` of a chain (R7). -/
def firstVacated (view : Nat → SlotView) (capacity start k : Nat) : Option Nat :=
  ((List.range k).find? (fun j => (view (chainSlot capacity start j)).isVacated)).map (chainSlot capacity start)

/-- A slot view that a probe for an account passes over (R7). -/
def SlotView.Passed (number : Nat) (v : SlotView) : Prop := v.isVacated = true ∨ ∃ m a, v = .inUse m a ∧ m ≠ number

theorem chainSlot_succ {capacity : Nat} (hc : 0 < capacity) (start k : Nat) :
    (if chainSlot capacity start k + 1 < capacity then chainSlot capacity start k + 1 else 0) = chainSlot capacity start (k + 1) := by
  have small : (start + k) % capacity < capacity := Nat.mod_lt _ hc
  unfold chainSlot
  rw [← Nat.add_assoc, show (start + k + 1) % capacity = ((start + k) % capacity + 1) % capacity from (Nat.mod_add_mod _ _ _).symm]
  split
  · exact (Nat.mod_eq_of_lt (by assumption)).symm
  · rw [show (start + k) % capacity + 1 = capacity by omega, Nat.mod_self]

theorem firstVacated_succ (view : Nat → SlotView) (capacity start k : Nat) :
    firstVacated view capacity start (k + 1) = (firstVacated view capacity start k).or
      (if (view (chainSlot capacity start k)).isVacated then some (chainSlot capacity start k) else none) := by
  unfold firstVacated
  rw [List.range_succ, List.find?_append]
  cases (List.range k).find? (fun j => (view (chainSlot capacity start j)).isVacated) with
  | some j => rfl
  | none => cases hv : (view (chainSlot capacity start k)).isVacated <;> simp [hv]

/-- The slots passed over leave the rest of the chain, and the first VACATED one of them as the place (R7). -/
theorem probe_passed {view : Nat → SlotView} {capacity number start : Nat} (hc : 0 < capacity) (place : Option Nat) (fuel : Nat) {k : Nat}
    (h : ∀ j, j < k → (view (chainSlot capacity start j)).Passed number) :
    probe view (fun _ _ => false) capacity number (fuel + k) (chainSlot capacity start 0) place =
      probe view (fun _ _ => false) capacity number fuel (chainSlot capacity start k) (place.or (firstVacated view capacity start k)) := by
  induction k generalizing fuel with
  | zero => simp [firstVacated]
  | succ k ih =>
    rw [show fuel + (k + 1) = (fuel + 1) + k by omega, ih (fuel + 1) fun j hj => h j (by omega), firstVacated_succ, ← Option.or_assoc]
    simp only [probe, chainSlot_succ hc]
    rcases h k (Nat.lt_succ_self k) with hv | ⟨m, a, hv, hm⟩
    · cases hw : view (chainSlot capacity start k) <;> simp_all [SlotView.isVacated]
    · simp [hv, hm, SlotView.isVacated]

/-- The first VACATED slot of a chain, where there is one. -/
theorem firstVacated_eq_some {view : Nat → SlotView} {capacity start k v : Nat} (hk : v < k)
    (hv : (view (chainSlot capacity start v)).isVacated = true)
    (hb : ∀ j, j < v → (view (chainSlot capacity start j)).isVacated = false) :
    firstVacated view capacity start k = some (chainSlot capacity start v) := by
  have found : (List.range k).find? (fun j => (view (chainSlot capacity start j)).isVacated) = some v := by
    rw [List.find?_range_eq_some]
    exact ⟨hv, List.mem_range.2 hk, fun j hj => by simp [hb j hj]⟩
  simp [firstVacated, found]

theorem firstVacated_eq_none {view : Nat → SlotView} {capacity start k : Nat}
    (h : ∀ j, j < k → (view (chainSlot capacity start j)).isVacated = false) : firstVacated view capacity start k = none := by
  have missing : (List.range k).find? (fun j => (view (chainSlot capacity start j)).isVacated) = none := by
    rw [List.find?_eq_none]
    exact fun j hj => by simp [h j (List.mem_range.1 hj)]
  simp [firstVacated, missing]

/-- A lookup after the slots it passes over. -/
theorem lookup_passed {s : State} (hc : 0 < s.ctl.capacity) {n k : Nat} (fuel : Nat) (hf : fuel + k = s.ctl.capacity)
    (h : ∀ j, j < k → (slotView s.store (chainSlot s.ctl.capacity n j)).Passed n) :
    s.lookup n = probe (slotView s.store) (fun _ _ => false) s.ctl.capacity n fuel (chainSlot s.ctl.capacity n k)
      (firstVacated (slotView s.store) s.ctl.capacity n k) := by
  have walk := probe_passed (number := n) hc none fuel h
  rw [Option.none_or, hf] at walk
  exact walk

theorem isVacated_iff {v : SlotView} : v.isVacated = true ↔ ∃ m a, v = .vacated m a := by
  cases v <;> simp [SlotView.isVacated]

theorem not_isVacated_iff {v : SlotView} : v.isVacated = false ↔ ¬∃ m a, v = .vacated m a := by
  rw [← isVacated_iff, Bool.not_eq_true]

/-- Settles O43: the slots a probe passes over are walked once (`probe_passed`); the slot after them decides. -/
theorem lookupFollowsProbeChain : Obligations.LookupFollowsProbeChain := by
  unfold Obligations.LookupFollowsProbeChain
  intro n s hc slot view vacated passed
  have walk : ∀ {k}, k < s.ctl.capacity → (∀ j, j < k → passed j) → s.lookup n =
      probe (slotView s.store) (fun _ _ => false) s.ctl.capacity n (s.ctl.capacity - k - 1 + 1) (slot k)
        (firstVacated (slotView s.store) s.ctl.capacity n k) := fun hk hp =>
    lookup_passed hc _ (by omega) fun j hj => (hp j hj).imp_left isVacated_iff.2
  have whole : (∀ j, j < s.ctl.capacity → passed j) → s.lookup n = .notFound (firstVacated (slotView s.store) s.ctl.capacity n s.ctl.capacity) :=
    fun hp => lookup_passed hc 0 (by omega) fun j hj => (hp j hj).imp_left isVacated_iff.2
  have first : ∀ {k v}, v < k → vacated v → (∀ j, j < v → ¬vacated j) →
      firstVacated (slotView s.store) s.ctl.capacity n k = some (slot v) := fun hk hv hb =>
    firstVacated_eq_some hk (isVacated_iff.2 hv) fun j hj => not_isVacated_iff.2 (hb j hj)
  have none : ∀ {k}, (∀ v, v < k → ¬vacated v) → firstVacated (slotView s.store) s.ctl.capacity n k = .none := fun hv =>
    firstVacated_eq_none fun j hj => not_isVacated_iff.2 (hv j hj)
  refine ⟨fun k a hk hp hv => ?_, fun k hk hp hv => ?_, fun k hk hp hv => ⟨fun v hvk h1 h2 => ?_, fun h => ?_⟩, fun hp => ⟨fun v hvk h1 h2 => ?_, fun h => ?_⟩⟩
  · have here : slotView s.store (slot k) = .inUse n a := hv
    simp [walk hk hp, probe, here]
  · have here : slotView s.store (slot k) = .damaged := hv
    simp [walk hk hp, probe, here]
  · have here : slotView s.store (slot k) = .empty := hv
    simp [walk hk hp, probe, here, first hvk h1 h2]
  · have here : slotView s.store (slot k) = .empty := hv
    simp [walk hk hp, probe, here, none h]
  · rw [whole hp, first hvk h1 h2]
  · rw [whole hp, none h]

end Sys2Proof.Machine
end


/-! # The acceptance of store requests -/

section
namespace Sys2Proof.Machine

/-! ## One request -/

/-- A store request's row submits it. -/
theorem exec_store {i : Instr} {r : StoreReq} (hi : requestOf i = some (.store r)) (s : State) :
    exec i s = .next (submit s (.store r)) := by
  cases i <;> cases hi <;> rfl

/-- A store request that passes its checks waits (R9, R15). -/
theorem exec_waits {i : Instr} {r : StoreReq} {s : State} (hi : requestOf i = some (.store r)) (hb : s.sup.busy = false)
    (hf : requestLengthFits (.store r) = true) (hc : acceptanceCode s r = none) :
    exec i s = .next { s with sup := s.sup.accepted, ctl := { s.ctl with waiting := some r } } := by
  rw [exec_store hi, submit_store hb r hf, acceptStore_wait r hc]

/-- A store request that fails one of them completes with its code (R15). -/
theorem exec_completes {i : Instr} {r : StoreReq} {s : State} (hi : requestOf i = some (.store r)) (hb : s.sup.busy = false)
    (hf : requestLengthFits (.store r) = true) {c : Code} (hc : acceptanceCode s r = some c) (hok : c ≠ .ok) :
    exec i s = .next { s with sup := s.sup.answered c.byte false [] } := by
  rw [exec_store hi, submit_store hb r hf, acceptStore_code r c hc hok]

/-! ## The checks in their order (R15) -/

theorem acceptanceCode_account {s : State} {r : StoreReq} (ha : ∀ size clear, r ≠ .attach size clear) (hr : r ≠ .restart) :
    acceptanceCode s r = accountAcceptance s r := by
  cases r <;> first | rfl | exact absurd rfl (ha _ _) | exact absurd rfl hr

section
variable {s : State} {r : StoreReq}

theorem accountAcceptance_noStore (h : s.ctl.attachment = .noStore) : accountAcceptance s r = some .noStore := if_pos h

theorem accountAcceptance_account (h : s.ctl.attachment ≠ .noStore) {c : Code} (hc : accountCheck r = some c) :
    accountAcceptance s r = some c := by
  rw [accountAcceptance, if_neg h, hc]

theorem accountAcceptance_identifiers (h : s.ctl.attachment ≠ .noStore) (hc : accountCheck r = none)
    (hi : identifiersOutOfRange s r = true) : accountAcceptance s r = some .outOfRange := by
  rw [accountAcceptance, if_neg h, hc, hi]
  rfl

theorem accountAcceptance_own (h : s.ctl.attachment ≠ .noStore) (hc : accountCheck r = none)
    (hi : identifiersOutOfRange s r = false) (ho : ownCheckFails r = true) : accountAcceptance s r = some .malformed := by
  rw [accountAcceptance, if_neg h, hc, hi, ho]
  rfl

theorem accountAcceptance_passed (h : s.ctl.attachment ≠ .noStore) (hc : accountCheck r = none)
    (hi : identifiersOutOfRange s r = false) (ho : ownCheckFails r = false) : accountAcceptance s r = none := by
  rw [accountAcceptance, if_neg h, hc, hi, ho]
  rfl

theorem accountCheck_of_number {n : Nat} {c : Code} (hn : namedAccount r = some (n, c)) (h : 1 ≤ n ∧ n ≤ 9999999) :
    accountCheck r = none := by
  rw [accountCheck, hn]
  exact if_pos h

theorem accountCheck_of_bad {n : Nat} {c : Code} (hn : namedAccount r = some (n, c)) (h : n = 0 ∨ 9999999 < n) :
    accountCheck r = some c := by
  rw [accountCheck, hn]
  refine if_neg ?_
  show ¬(1 ≤ n ∧ n ≤ 9999999)
  omega

theorem accountCheck_of_none (hn : namedAccount r = none) : accountCheck r = none := by rw [accountCheck, hn]

end

/-! ## The requests' own checks -/

theorem passwordChar_iff {c : Byte} : passwordChar c = true ↔ 33 ≤ c.toNat ∧ c.toNat ≤ 126 := by simp [passwordChar]

/-- A password whose characters fit passes its own check (R17). -/
theorem password_fits {n : Nat} {chars : List Byte} (hl : chars = [] ∨ 4 ≤ chars.length)
    (hc : ∀ c ∈ chars, 33 ≤ c.toNat ∧ c.toNat ≤ 126) : ownCheckFails (.setPassword n chars) = false := by
  have long : (decide (0 < chars.length) && decide (chars.length < 4)) = false := by
    rcases hl with rfl | h
    · rfl
    · simp [Nat.not_lt.2 h]
  have fit : chars.any (fun c => !passwordChar c) = false := by
    rw [List.any_eq_false]
    exact fun c hcm => by simp [passwordChar_iff.2 (hc c hcm)]
  rw [ownCheckFails, long, fit]
  rfl

theorem password_misfits {n : Nat} {chars : List Byte}
    (h : (1 ≤ chars.length ∧ chars.length < 4) ∨ ∃ c ∈ chars, c.toNat < 33 ∨ 126 < c.toNat) :
    ownCheckFails (.setPassword n chars) = true := by
  rw [ownCheckFails, Bool.or_eq_true]
  rcases h with ⟨h1, h2⟩ | ⟨c, hc, hbad⟩
  · exact .inl (by simp [h2, show 0 < chars.length from h1])
  · refine .inr (List.any_eq_true.2 ⟨c, hc, ?_⟩)
    cases hp : passwordChar c with
    | false => rfl
    | true =>
      have := passwordChar_iff.1 hp
      omega

/-- A status that CHANGE_ACCOUNT admits: LIVE or BARRED (R18). -/
theorem change_status_fits {n : Nat} {f : AccountChange} (h : ∀ x, f.status = some x → x = 0 ∨ x = 2) :
    ownCheckFails (.change n f) = false := by
  cases hf : f.status with
  | none => simp [ownCheckFails, hf]
  | some x => rcases h x hf with rfl | rfl <;> simp [ownCheckFails, hf]

theorem above_false {bound : Nat} {n : Option Nat} (h : ∀ x, n = some x → x ≤ bound) : above bound n = false := by
  cases n with
  | none => rfl
  | some x => simpa [above] using h x rfl

theorem above_true {bound x : Nat} (h : bound < x) : above bound (some x) = true := by simpa [above] using h

/-- An image of a number and account names that number. -/
theorem replace_account {slot : Nat} {image : List Byte} (hl : image.length = 40) {n : Nat} {a : Account}
    (h : imageView image = .inUse n a ∨ imageView image = .vacated n a) : accountCheck (.replace slot image) = none := by
  have fields : (imageByte image 0 = 1 ∨ imageByte image 0 = 2) ∧ imageFields? image = some (n, a) := by
    rcases h with h | h
    · exact ⟨.inl (imageView_inUse_iff.1 h).1, (imageView_inUse_iff.1 h).2⟩
    · exact ⟨.inr (imageView_vacated_iff.1 h).1, (imageView_vacated_iff.1 h).2⟩
  obtain ⟨hs, hf⟩ := fields
  obtain ⟨h1, h2, -⟩ := imageFields_inRange hl hf
  have number : n = imageNat image 2 3 := (carriesAccount_of_imageFields hf).number
  refine accountCheck_of_number (n := n) (c := .malformed) ?_ ⟨h1, h2⟩
  rw [namedAccount, if_pos hs, number]

theorem imageByte_of_empty {image : List Byte} (h : imageView image = .empty) : imageByte image 0 = 0 := by
  unfold imageView at h
  split at h
  · assumption
  · split at h <;> cases h
  · split at h <;> cases h
  · cases h

/-- An image not named by its state byte passes the check of its account number. -/
theorem replace_unnamed {slot : Nat} {image : List Byte} (h : ¬(imageByte image 0 = 1 ∨ imageByte image 0 = 2)) :
    accountCheck (.replace slot image) = none := accountCheck_of_none (if_neg h)

/-- An image with an account number in range, where it names one. -/
theorem replace_named {slot : Nat} {image : List Byte}
    (h : ¬(imageByte image 0 = 1 ∨ imageByte image 0 = 2) ∨ 1 ≤ imageNat image 2 3 ∧ imageNat image 2 3 ≤ 9999999) :
    accountCheck (.replace slot image) = none := by
  by_cases hn : imageByte image 0 = 1 ∨ imageByte image 0 = 2
  · exact accountCheck_of_number (c := .malformed) (if_pos hn) (h.resolve_left (not_not_intro hn))
  · exact replace_unnamed hn

theorem image_fits {slot : Nat} {image : List Byte} (h : imageView image = .empty ∨
    ∃ n a, (imageView image = .inUse n a ∨ imageView image = .vacated n a) ∧ (a.allotment = 0 ∨ a.overdraft = 0)) :
    ownCheckFails (.replace slot image) = false := by
  rw [ownCheckFails, imageMalformed]
  rcases h with h | ⟨n, a, h | h, ha⟩
  · rw [h]
  · rw [h]; rcases ha with ha | ha <;> simp [ha]
  · rw [h]; rcases ha with ha | ha <;> simp [ha]

/-! ## The requests in turn -/

section
variable {s : State}

theorem acceptance_add_code (ha : s.ctl.attachment ≠ .noStore) {p : NewAccount} (h1 : 1 ≤ p.account) (h2 : p.account ≤ 9999999) :
    acceptanceCode s (.add p) =
      if (decide (3 < p.cls) || decide (63 < p.permitted) || decide (6 < p.defaultGroup)) = true then some .outOfRange else none := by
  rw [acceptanceCode_account (r := .add p) nofun nofun]
  cases hi : (decide (3 < p.cls) || decide (63 < p.permitted) || decide (6 < p.defaultGroup)) with
  | false => exact accountAcceptance_passed ha (accountCheck_of_number rfl ⟨h1, h2⟩) hi rfl
  | true => exact accountAcceptance_identifiers ha (accountCheck_of_number rfl ⟨h1, h2⟩) hi

theorem acceptance_add (ha : s.ctl.attachment ≠ .noStore) {p : NewAccount} (h1 : 1 ≤ p.account) (h2 : p.account ≤ 9999999)
    (h3 : p.cls ≤ 3) (h4 : p.permitted ≤ 63) (h5 : p.defaultGroup ≤ 6) : acceptanceCode s (.add p) = none := by
  rw [acceptance_add_code ha h1 h2]
  simp [h3, h4, h5]

/-- A request on an account, of a kind with no check of its own. -/
theorem acceptance_account (ha : s.ctl.attachment ≠ .noStore) {r : StoreReq} {n : Nat} {c : Code} (hn : namedAccount r = some (n, c))
    (h1 : 1 ≤ n) (h2 : n ≤ 9999999) (hi : identifiersOutOfRange s r = false) (ho : ownCheckFails r = false) :
    accountAcceptance s r = none := accountAcceptance_passed ha (accountCheck_of_number hn ⟨h1, h2⟩) hi ho

theorem acceptance_setPassword (ha : s.ctl.attachment ≠ .noStore) {n : Nat} {chars : List Byte} (h1 : 1 ≤ n) (h2 : n ≤ 9999999)
    (hl : chars = [] ∨ 4 ≤ chars.length) (hc : ∀ c ∈ chars, 33 ≤ c.toNat ∧ c.toNat ≤ 126) :
    acceptanceCode s (.setPassword n chars) = none := acceptance_account ha rfl h1 h2 rfl (password_fits hl hc)

theorem acceptance_change (ha : s.ctl.attachment ≠ .noStore) {n : Nat} {f : AccountChange} (h1 : 1 ≤ n) (h2 : n ≤ 9999999)
    (hc : ∀ c, f.cls = some c → c ≤ 3) (hp : ∀ p, f.permitted = some p → p ≤ 63) (hg : ∀ g, f.defaultGroup = some g → g ≤ 6)
    (hs : ∀ x, f.status = some x → x = 0 ∨ x = 2) : acceptanceCode s (.change n f) = none := by
  refine acceptance_account (r := .change n f) ha rfl h1 h2 ?_ (change_status_fits hs)
  simp [identifiersOutOfRange, above_false hc, above_false hp, above_false hg]

theorem acceptance_readSlots (ha : s.ctl.attachment ≠ .noStore) {first : Nat} (count : Nat) (h : first < s.ctl.capacity) :
    acceptanceCode s (.readSlots first count) = none := by
  refine accountAcceptance_passed (r := .readSlots first count) ha (accountCheck_of_none rfl) ?_ rfl
  simpa [identifiersOutOfRange] using h

theorem acceptance_replace (ha : s.ctl.attachment ≠ .noStore) {slot : Nat} {image : List Byte} (h : slot < s.ctl.capacity)
    (hl : image.length = 40) (hv : imageView image = .empty ∨
      ∃ n a, (imageView image = .inUse n a ∨ imageView image = .vacated n a) ∧ (a.allotment = 0 ∨ a.overdraft = 0)) :
    acceptanceCode s (.replace slot image) = none := by
  refine accountAcceptance_passed ha ?_ (by simpa [identifiersOutOfRange] using h) (image_fits hv)
  rcases hv with h0 | ⟨n, a, hna, -⟩
  · refine replace_unnamed ?_
    rw [imageByte_of_empty h0]
    decide
  · exact replace_account hl hna

end

/-- Settles O15: each request's checks, in the order of R15, decide its acceptance code. -/
theorem storeRequestsAccepted : Obligations.StoreRequestsAccepted := by
  unfold Obligations.StoreRequestsAccepted
  refine ⟨fun s hb => ?_, fun s hb => ⟨fun hno i r hi hf hattach hrestart => ?_, fun ha => ?_⟩⟩
  · refine ⟨fun size clear h => exec_waits rfl hb rfl (if_pos h), exec_waits rfl hb rfl rfl, fun ha => ⟨?_, ?_, ?_, ?_, ?_, ?_, ?_⟩⟩
    · exact fun p h1 h2 h3 h4 h5 => exec_waits rfl hb rfl (acceptance_add ha h1 h2 h3 h4 h5)
    · exact fun n chars h1 h2 hl h8 hc => exec_waits rfl hb (decide_eq_true h8) (acceptance_setPassword ha h1 h2 hl hc)
    · exact fun n f h1 h2 hc hp hg hs => exec_waits rfl hb rfl (acceptance_change ha h1 h2 hc hp hg hs)
    · intro n amount h1 h2
      have passes : ∀ {i : Instr} {r : StoreReq}, requestOf i = some (.store r) → requestLengthFits (.store r) = true →
          (∃ c, namedAccount r = some (n, c)) → acceptanceCode s r = accountAcceptance s r → identifiersOutOfRange s r = false →
          ownCheckFails r = false → exec i s = .next { s with sup := s.sup.accepted, ctl := { s.ctl with waiting := some r } } :=
        fun hi hf ⟨_, hn⟩ hc hid ho => exec_waits hi hb hf (hc.trans (acceptance_account ha hn h1 h2 hid ho))
      exact ⟨passes rfl rfl ⟨_, rfl⟩ rfl rfl rfl, passes rfl rfl ⟨_, rfl⟩ rfl rfl rfl, passes rfl rfl ⟨_, rfl⟩ rfl rfl rfl,
        passes rfl rfl ⟨_, rfl⟩ rfl rfl rfl, passes rfl rfl ⟨_, rfl⟩ rfl rfl rfl, passes rfl rfl ⟨_, rfl⟩ rfl rfl rfl,
        passes rfl rfl ⟨_, rfl⟩ rfl rfl rfl⟩
    · exact fun first count h => exec_waits rfl hb rfl (acceptance_readSlots ha count h)
    · exact fun slot image h hl hv => exec_waits rfl hb (decide_eq_true hl) (acceptance_replace ha h hl hv)
    · exact exec_waits rfl hb rfl (accountAcceptance_passed (r := .flush) ha (accountCheck_of_none rfl) rfl rfl)
  · exact exec_completes hi hb hf ((acceptanceCode_account hattach hrestart).trans (accountAcceptance_noStore hno)) nofun
  · refine ⟨fun n hn => ?_, fun p h1 h2 h => ?_, fun n f h1 h2 h => ?_, fun n chars h1 h2 h8 h => ?_, fun n x h1 h2 h0 hx => ?_,
      fun first count h => ?_, fun slot image hl => ⟨fun hs hn => ?_, fun h hn => ?_, fun h hd => ?_, fun n a h hna h1 h2 => ?_⟩⟩
    · have bad : ∀ {i : Instr} {r : StoreReq} {c : Code}, requestOf i = some (.store r) → requestLengthFits (.store r) = true →
          acceptanceCode s r = accountAcceptance s r → namedAccount r = some (n, c) → c ≠ .ok →
          exec i s = .next { s with sup := s.sup.answered c.byte false [] } := fun hi hf hc hr hok =>
        exec_completes hi hb hf (hc.trans (accountAcceptance_account ha (accountCheck_of_bad hr hn))) hok
      exact ⟨fun p hp => bad (r := .add p) (c := .malformed) rfl rfl rfl (hp ▸ rfl) nofun,
        fun amount => ⟨bad (r := .grant n amount) rfl rfl rfl rfl nofun, bad (r := .revoke n amount) rfl rfl rfl rfl nofun⟩,
        bad (r := .forgive n) rfl rfl rfl rfl nofun, bad (r := .readAccount n) rfl rfl rfl rfl nofun,
        bad (r := .readAndClear n) rfl rfl rfl rfl nofun, bad (r := .retire n) rfl rfl rfl rfl nofun,
        bad (r := .discard n) rfl rfl rfl rfl nofun,
        fun chars h8 => bad (r := .setPassword n chars) rfl (decide_eq_true h8) rfl rfl nofun,
        fun f => bad (r := .change n f) rfl rfl rfl rfl nofun⟩
    · refine exec_completes (r := .add p) rfl hb rfl (c := .outOfRange) ?_ nofun
      rw [acceptance_add_code ha h1 h2, if_pos]
      rcases h with h | h | h <;> simp [h]
    · refine exec_completes (r := .change n f) rfl hb rfl (accountAcceptance_identifiers ha (accountCheck_of_number rfl ⟨h1, h2⟩) ?_) nofun
      rcases h with ⟨c, hc, h⟩ | ⟨c, hc, h⟩ | ⟨c, hc, h⟩ <;> simp [identifiersOutOfRange, hc, above_true h]
    · exact exec_completes (r := .setPassword n chars) rfl hb (decide_eq_true h8)
        (accountAcceptance_own ha (accountCheck_of_number rfl ⟨h1, h2⟩) rfl (password_misfits h)) nofun
    · refine exec_completes (r := .change n { status := some x }) rfl hb rfl (accountAcceptance_own ha (accountCheck_of_number rfl ⟨h1, h2⟩) rfl ?_) nofun
      simp [ownCheckFails, h0, hx]
    · refine exec_completes (r := .readSlots first count) rfl hb rfl (accountAcceptance_identifiers (r := .readSlots first count) ha (accountCheck_of_none rfl) ?_) nofun
      simpa [identifiersOutOfRange] using h
    · exact exec_completes (r := .replace slot image) rfl hb (decide_eq_true hl) (accountAcceptance_account ha (accountCheck_of_bad (r := .replace slot image) (if_pos hs) hn)) nofun
    · refine exec_completes (r := .replace slot image) rfl hb (decide_eq_true hl) (accountAcceptance_identifiers ha (replace_named hn) ?_) nofun
      simpa [identifiersOutOfRange] using h
    · refine exec_completes (r := .replace slot image) rfl hb (decide_eq_true hl) (c := .malformed) ?_ nofun
      have own : ownCheckFails (.replace slot image) = true := by rw [ownCheckFails, imageMalformed, hd]
      have inRange : identifiersOutOfRange s (.replace slot image) = false := by simpa [identifiersOutOfRange] using h
      show accountAcceptance s (.replace slot image) = some .malformed
      by_cases hs : imageByte image 0 = 1 ∨ imageByte image 0 = 2
      · by_cases hn : 1 ≤ imageNat image 2 3 ∧ imageNat image 2 3 ≤ 9999999
        · exact accountAcceptance_own ha (replace_named (.inr hn)) inRange own
        · exact accountAcceptance_account ha (accountCheck_of_bad (if_pos hs) (by omega))
      · exact accountAcceptance_own ha (replace_unnamed hs) inRange own
    · refine exec_completes (r := .replace slot image) rfl hb (decide_eq_true hl) (accountAcceptance_own ha (replace_account hl hna) ?_ ?_) nofun
      · simpa [identifiersOutOfRange] using h
      · rw [ownCheckFails, imageMalformed]
        rcases hna with hv | hv <;> rw [hv] <;> simp [h1, h2]

end Sys2Proof.Machine
end


/-! # The choice of the rotation -/

section
namespace Sys2Proof.Machine

/-- A class of the rotation has waiting work (R11). -/
def State.hasWork (s : State) (c : RotationClass) : Prop :=
  match c with
  | .signOn => s.ctl.signOnQueue ≠ []
  | .writeBack => s.oat.writeBackList ≠ []
  | .supervisor => s.ctl.waiting ≠ none

theorem beginClass_eq_none {s : State} {c : RotationClass} (h : ¬s.hasWork c) : beginClass s c = none := by
  cases c with
  | signOn => simp [beginClass, not_not.1 h]
  | writeBack => simp [beginClass, not_not.1 h]
  | supervisor => simp [beginClass, not_not.1 h]

theorem exec_rotationChoice (s : State) : exec .rotationChoice s = .next (rotationChoice s) := rfl

theorem rotationChoice_busy {s : State} (h : s.ctl.inProgress ≠ none) : rotationChoice s = s := by
  obtain ⟨op, hp⟩ := Option.ne_none_iff_exists'.1 h
  rw [rotationChoice, hp]

theorem rotationChoice_nothing {s : State} (h : ∀ c, ¬s.hasWork c) : rotationChoice s = s := by
  unfold rotationChoice
  cases s.ctl.inProgress with
  | some _ => rfl
  | none => simp [beginClass_eq_none (h _)]

/-- The class whose turn it is: it has work, and none before it from the pointer on has (R11). -/
theorem rotationChoice_turn {s t : State} {c : RotationClass} (hp : s.ctl.inProgress = none) (hc : beginClass s c = some t)
    (h : ∀ d, d ≠ c → s.hasWork d → s.ctl.rotation ≠ d ∧ (s.ctl.rotation = c ∨ d.following = s.ctl.rotation)) :
    rotationChoice s = t := by
  have order : c = s.ctl.rotation ∨ c = s.ctl.rotation.following ∨ c = s.ctl.rotation.following.following := by
    cases c <;> cases s.ctl.rotation <;> decide
  have idle : ∀ d, d ≠ c → s.ctl.rotation = d → beginClass s d = none := fun d hd hr =>
    beginClass_eq_none fun hw => (h d hd hw).1 hr
  have after : ∀ r : RotationClass, r.following ≠ r ∧ r.following.following ≠ r ∧ r.following ≠ r.following.following := by
    rintro (_ | _ | _) <;> decide
  obtain ⟨first, second, third⟩ := after s.ctl.rotation
  unfold rotationChoice
  rw [hp]
  rcases order with hr | hr | hr
  · simp [← hr, hc]
  · have none1 : beginClass s s.ctl.rotation = none := idle _ (by rw [hr]; exact first.symm) rfl
    simp [none1, ← hr, hc]
  · have none1 : beginClass s s.ctl.rotation = none := idle _ (by rw [hr]; exact second.symm) rfl
    have none2 : beginClass s s.ctl.rotation.following = none := beginClass_eq_none fun hw =>
      ((h _ (by rw [hr]; exact third) hw).2).elim (fun k => second (by rw [← hr]; exact k.symm)) second
    simp [none1, none2, ← hr, hc]

theorem beginClass_signOn {s : State} {op : SignOnOp} {rest : List SignOnOp} (hq : s.ctl.signOnQueue = op :: rest) :
    beginClass s .signOn = some (startSignOn { s with ctl := { s.ctl with rotation := .writeBack, signOnQueue := rest } } op) := by
  simp only [beginClass, hq]
  rfl

theorem beginClass_writeBack {s : State} {e : EntryNo} {rest : List EntryNo} (hl : s.oat.writeBackList = e :: rest) :
    beginClass s .writeBack = some (beginWriteBack { s with ctl := { s.ctl with rotation := .supervisor } } e rest) := by
  simp only [beginClass, hl]
  rfl

theorem beginClass_supervisor {s : State} {r : StoreReq} (hw : s.ctl.waiting = some r) :
    beginClass s .supervisor = some (startRequest { s with ctl := { s.ctl with rotation := .signOn, waiting := none } } r) := by
  simp only [beginClass, hw]
  rfl

/-- The supervisor class begins its request where the pointer names it. -/
theorem rotationChoice_supervisor {s : State} {r : StoreReq} (hp : s.ctl.inProgress = none) (hr : s.ctl.rotation = .supervisor)
    (hw : s.ctl.waiting = some r) :
    rotationChoice s = startRequest { s with ctl := { s.ctl with rotation := .signOn, waiting := none } } r := by
  refine rotationChoice_turn hp (beginClass_supervisor hw) fun d hd _ => ⟨?_, .inl hr⟩
  rw [hr]
  exact hd.symm

/-- The sign-on class begins its first operation where the pointer names it. -/
theorem rotationChoice_signOn {s : State} {op : SignOnOp} {rest : List SignOnOp} (hp : s.ctl.inProgress = none)
    (hr : s.ctl.rotation = .signOn) (hq : s.ctl.signOnQueue = op :: rest) :
    rotationChoice s = startSignOn { s with ctl := { s.ctl with rotation := .writeBack, signOnQueue := rest } } op := by
  refine rotationChoice_turn hp (beginClass_signOn hq) fun d hd _ => ⟨?_, .inl hr⟩
  rw [hr]
  exact hd.symm

/-! ## A sign-on operation on an open account -/

theorem openAccount_none {s : State} {n : Nat} (h : ∀ e x, s.entry e = some x → x.account ≠ n) : s.openAccount n = none :=
  openAccount_eq_none.2 (findOpen_none.2 h)

/-- What a sign-on operation on an open account changes: the entry and the ACCOUNT items (R13). -/
theorem signOnOpen_parts (s : State) (op : SignOnOp) (e : EntryNo) (x : OatEntry) :
    (signOnOpen s op e x).1 = { s with oat := (signOnOpen s op e x).1.oat, attn := (signOnOpen s op e x).1.attn } := by
  have admits : (admitOpen s op.line e x).1 = { s with oat := (admitOpen s op.line e x).1.oat, attn := (admitOpen s op.line e x).1.attn } := by
    unfold admitOpen
    split <;> rfl
  unfold signOnOpen
  split
  · unfold verifyOpen
    split
    · rfl
    · unfold raiseLocked
      dsimp only
      split <;> rfl
    · split
      · rfl
      · exact admits
  · exact admits

/-- Of the controller, taking a result changes the sign-on queue alone (R10, R93). -/
theorem takeResult_ctl (s : State) (op : SignOnOp) (r : SignOnResult) :
    (takeResult s op r).ctl = { s.ctl with signOnQueue := (takeResult s op r).ctl.signOnQueue } := by
  unfold takeResult
  split
  · rename_i hcur
    obtain ⟨st, hst⟩ := isCurrent_phase hcur
    rw [← watchResult_line s op r] at hst
    have watched := (calm_watchResult s op r).ctl
    dsimp only
    split
    · rw [ctl_lifts.moves (moves_attemptFailed _ hst _), watched]
    · rw [ctl_lifts.moves (moves_enterHeld hst), watched]
    · rw [(calm_admitLine _ _ _ _).ctl, watched]
  · split
    · rw [leaveEntry_ctl]
    · rfl
    · rfl

theorem finishSignOn_open_ctl {s : State} (o : WriteOutcome) {op : SignOnOp} (h : s.openAccount op.account ≠ none) :
    (finishSignOn s o op).ctl = { s.ctl with signOnQueue := (finishSignOn s o op).ctl.signOnQueue } := by
  have performed : (performSignOn s o op).1.ctl = s.ctl := by
    obtain ⟨⟨e, x⟩, ho⟩ := Option.ne_none_iff_exists'.1 h
    rw [performSignOn, ho]
    dsimp only
    rw [signOnOpen_parts]
  rw [finishSignOn, takeResult_ctl, performed]

theorem openAccount_ne_none {s : State} {n : Nat} (h : ∃ e x, s.entry e = some x ∧ x.account = n) : s.openAccount n ≠ none := by
  obtain ⟨e, x, hx, hn⟩ := h
  rw [ne_eq, openAccount_eq_none, findOpen_none]
  exact fun k => k e x hx hn

/-! ## Beginning -/

theorem startSignOn_closed {s : State} {op : SignOnOp} (h : s.openAccount op.account = none) :
    startSignOn s op = s.inProgress (.signOn op) := by
  rw [startSignOn, if_pos (recordNeedsStore_iff.2 h)]

theorem startSignOn_open {s : State} {op : SignOnOp} (h : s.openAccount op.account ≠ none) :
    startSignOn s op = finishSignOn s .good op := by
  rw [startSignOn, if_neg (mt recordNeedsStore_iff.1 h)]

/-- A request of a kind without a beginning of its own: it waits for its store accesses if it needs any, and otherwise completes at
once (R12; log entry 11). -/
theorem startRequest_eq {s : State} {r : StoreReq} (ha : ∀ size clear, r ≠ .attach size clear) (hr : r ≠ .restart) :
    startRequest s r = if requestNeedsStore s r then s.inProgress (.supervisor r) else performRequest s [] r := by
  cases r with
  | attach size clear => exact absurd rfl (ha size clear)
  | restart => exact absurd rfl hr
  | _ => rfl

theorem startRequest_needsStore {s : State} {r : StoreReq} (ha : ∀ size clear, r ≠ .attach size clear) (hr : r ≠ .restart)
    (h : requestNeedsStore s r = true) : startRequest s r = s.inProgress (.supervisor r) := by
  rw [startRequest_eq ha hr, if_pos h]

theorem startRequest_atOnce {s : State} {r : StoreReq} (ha : ∀ size clear, r ≠ .attach size clear) (hr : r ≠ .restart)
    (h : requestNeedsStore s r = false) : startRequest s r = performRequest s [] r := by
  rw [startRequest_eq ha hr, h, if_neg Bool.false_ne_true]

/-- Settles O42: the class whose turn it is begins (`rotationChoice_turn`), and each operation begins as its kind says. -/
theorem rotationChoice_holds : Obligations.RotationChoice := by
  unfold Obligations.RotationChoice
  intro s work after turn
  have works : ∀ d, s.hasWork d → work d := fun d => by cases d <;> exact id
  have worked : ∀ d, ¬work d → ¬s.hasWork d := fun d => mt (works d)
  have following : ∀ d, after d = d.following := fun d => by cases d <;> rfl
  have chosen : ∀ {c t}, turn c → beginClass s c = some t → exec .rotationChoice s = .next t := by
    intro c t ⟨hp, _, hd⟩ hc
    rw [exec_rotationChoice, rotationChoice_turn hp hc fun d hdc hw => ?_]
    rw [← following]
    exact hd d hdc (works d hw)
  refine ⟨fun h => by rw [exec_rotationChoice, rotationChoice_busy h],
    fun h => by rw [exec_rotationChoice, rotationChoice_nothing fun c => worked c (h c)],
    fun op rest ht hq hno => ?_, fun op rest ht hq hopen => ?_, fun e rest x ht hl hx => ?_, fun r ht hr hkind => ?_⟩
  · refine chosen (c := .signOn) ht ((beginClass_signOn hq).trans (congrArg some ?_))
    exact startSignOn_closed (openAccount_none hno)
  · set taken : State := { s with ctl := { s.ctl with rotation := .writeBack, signOnQueue := rest } }
    have held : taken.openAccount op.account ≠ none := openAccount_ne_none hopen
    refine ⟨finishSignOn taken .good op, chosen (c := .signOn) ht ((beginClass_signOn hq).trans (congrArg some (startSignOn_open held))),
      ?_, ?_, (works_finishSignOn (wr := False) (W := False) taken .good op fun k => held k).store_eq⟩
    · rw [finishSignOn_open_ctl _ held]
    · rw [finishSignOn_open_ctl _ held]
      exact ht.1
  · refine chosen (c := .writeBack) ht ((beginClass_writeBack hl).trans (congrArg some ?_))
    unfold beginWriteBack
    rw [show State.entry { s with ctl := { s.ctl with rotation := .supervisor } } e = some x from hx]
    rfl
  · refine chosen (c := .supervisor) ht ((beginClass_supervisor hr).trans (congrArg some ?_))
    set taken : State := { s with ctl := { s.ctl with rotation := .signOn, waiting := none } }
    have store : requestNeedsStore taken r = true := by
      rcases hkind with ⟨n, rfl⟩ | ⟨n, k, rfl⟩ | ⟨n, b, rfl⟩ | ⟨n, a, hkind, hno⟩
      · rfl
      · rfl
      · rfl
      · have closed : recordNeedsStore taken n = true := recordNeedsStore_iff.2 (openAccount_none hno)
        rcases hkind with rfl | rfl | rfl | rfl | rfl <;> exact closed
    have kinds : (∀ size clear, r ≠ .attach size clear) ∧ r ≠ .restart := by
      constructor
      · rintro size clear rfl
        simp at hkind
      · rintro rfl
        simp at hkind
    exact startRequest_needsStore kinds.1 kinds.2 store

end Sys2Proof.Machine
end


/-! # The completion of a write-back -/

section
namespace Sys2Proof.Machine

/-! ## The bytes of a slot write -/

/-- A slot's forty bytes are those stored; every other byte is as it was (R3). -/
theorem storeRead_storeSlot {m : List Host.Cell} (h : storeWf m = true) (slot : Nat) (bytes : List Byte) (address : Nat) :
    storeRead (storeSlot m slot bytes) address = if slot * 40 ≤ address ∧ address < slot * 40 + 40
      then bytes.getD (address - slot * 40) 0 else storeRead m address := by
  split
  · rename_i ha
    have inside := storeRead_writes_inside h (slot * 40) bytes (List.range 40) List.nodup_range (address - slot * 40)
      (List.mem_range.2 (by omega))
    rwa [show slot * 40 + (address - slot * 40) = address by omega] at inside
  · exact storeRead_slotWrite_outside h (.left bytes) slot [] address (by omega)

/-- A store that a slot write made: the slot holds the given bytes, and every other byte is as it was (R4). -/
structure SlotHolds (m m' : List Host.Cell) (slot : Nat) (bytes : List Byte) : Prop where
  wf : storeWf m' = true
  reads : ∀ address, storeRead m' address = if slot * 40 ≤ address ∧ address < slot * 40 + 40
    then bytes.getD (address - slot * 40) 0 else storeRead m address

/-- A slot write of an operation, with what it leaves (R4). -/
theorem writeSlot_holds {s : State} (h : storeWf s.store = true) (o : WriteOutcome) (slot : Nat) (bytes : List Byte) :
    ∃ m, s.writeSlot o slot bytes = { s with store := m } ∧
      SlotHolds s.store m slot (bytesAfterWrite o (slotBytes s.store slot) bytes) :=
  ⟨_, rfl, storeWf_slotWrite h o slot bytes, storeRead_storeSlot h slot _⟩

/-- A slot written twice holds what the second write left. -/
theorem SlotHolds.again {m m' m'' : List Host.Cell} {slot : Nat} {first second : List Byte} (h : SlotHolds m m' slot first)
    (k : SlotHolds m' m'' slot second) : SlotHolds m m'' slot second := by
  refine ⟨k.wf, fun address => ?_⟩
  rw [k.reads, h.reads]
  split <;> rfl

/-! ## Completing -/

/-- The operation in progress completes. -/
theorem exec_complete {s : State} {op : Operation} (hp : s.ctl.inProgress = some op) (writes : List WriteOutcome) :
    exec (.storeOperationComplete writes) s =
      .next (completeOperation { s with ctl := { s.ctl with inProgress := none } } op writes) := by
  show Host.Outcome.next (storeOperationComplete s writes) = _
  rw [storeOperationComplete, hp]
  rfl

/-! ## A matched write-back, by what its entry has become (R38) -/

section
variable {s : State} {e : EntryNo} {x : OatEntry} (o : WriteOutcome) (n : Nat) (slot : SlotNo) (a : Account)

theorem writeBackMatched_held (hx : s.entry e = some x) (hc : 1 ≤ x.count) : writeBackMatched s o e n slot a = s := by
  simp only [writeBackMatched, hx, if_pos hc]

theorem writeBackMatched_dirty (hx : s.entry e = some x) (hc : x.count = 0) (hd : x.dirty = true) :
    writeBackMatched s o e n slot a = queueEntry s e := by
  simp [writeBackMatched, hx, hc, hd]

theorem writeBackMatched_clean (hx : s.entry e = some x) (hc : x.count = 0) (hd : x.dirty = false) (hr : x.retirePending = false) :
    writeBackMatched s o e n slot a = freeEntry s e := by
  simp [writeBackMatched, hx, hc, hd, hr]

theorem writeBackMatched_retiring (hx : s.entry e = some x) (hc : x.count = 0) (hd : x.dirty = false) (hr : x.retirePending = true) :
    writeBackMatched s o e n slot a = vacateSlot s o e n slot a := by
  simp [writeBackMatched, hx, hc, hd, hr]

end

/-- An entry that is not STUCK joins the list unchanged (R36). -/
theorem queueEntry_unstuck {s : State} {e : EntryNo} {x : OatEntry} (hx : s.entry e = some x) (hs : x.state ≠ .stuck)
    (hl : e ∉ s.oat.writeBackList) : queueEntry s e = { s with oat := { s.oat with writeBackList := s.oat.writeBackList ++ [e] } } := by
  have listed : ¬s.queued e = true := by simpa [State.queued] using hl
  rw [queueEntry, if_neg listed]
  dsimp only
  set longer : State := { s with oat := { s.oat with writeBackList := s.oat.writeBackList ++ [e] } }
  have same : longer.entry e = some x := hx
  rw [State.modEntry, same, Option.map_some, if_neg hs, ← same, setEntry_entry_self]

theorem countRetired_of {c : StoreCtl} (hu : 0 < c.inUse) (hv : c.vacated < c.capacity) :
    c.countRetired = { c with inUse := c.inUse - 1, vacated := c.vacated + 1 } := by
  simp [StoreCtl.countRetired, lowerCount, raiseCount, hu, hv]

theorem finishWriteBack_good {s : State} {writes : List WriteOutcome} (h : firstOutcome writes = .good) (e : EntryNo) (n : Nat)
    (slot : SlotNo) (a : Account) : finishWriteBack s writes e n slot a =
      writeBackMatched (s.writeSlot .good slot.val (encodeSlot .inUse n a)) (secondOutcome writes) e n slot a := by
  simp only [finishWriteBack, h, writeMatches, if_true]

theorem finishWriteBack_left (s : State) (bytes : List Byte) (writes : List WriteOutcome) (e : EntryNo) (n : Nat) (slot : SlotNo)
    (a : Account) : finishWriteBack s (.left bytes :: writes) e n slot a =
      writeBackFailed (s.writeSlot (.left bytes) slot.val (encodeSlot .inUse n a)) e n := by
  simp [finishWriteBack, firstOutcome, writeMatches]

theorem vacateSlot_good (s : State) (e : EntryNo) (n : Nat) (slot : SlotNo) (a : Account) : vacateSlot s .good e n slot a =
    freeEntry ((s.writeSlot .good slot.val (encodeSlot .vacated n a)).onCtl StoreCtl.countRetired) e := by
  simp only [vacateSlot, writeMatches, if_true]

/-- The entry of a write-back that did not match (R39). -/
theorem writeBackFailed_entry (s : State) (e : EntryNo) (n : Nat) (k : EntryNo) : (writeBackFailed s e n).entry k =
    if k = e then (s.entry e).map (fun x => if 1 ≤ x.count then { x with dirty := true } else
      { x with dirty := true, retirePending := false, state := if s.queued e then .closing else .stuck })
    else s.entry k := setEntry_entry _ e k _

/-- Settles O48: a good write is followed by what the entry has become (`writeBackMatched`); one that does not match leaves what was
written, and the entry dirty. -/
theorem writeBackCompletes : Obligations.WriteBackCompletes := by
  unfold Obligations.WriteBackCompletes
  intro e n slot a x s hp hx hwf done holds completes freed
  obtain ⟨m, hm, written⟩ := writeSlot_holds (s := done) hwf .good slot.val (encodeSlot .inUse n a)
  set stored : State := { done with store := m }
  have entry : stored.entry e = some x := hx
  have good : ∀ {writes t}, firstOutcome writes = .good → secondOutcome writes = .good → writeBackMatched stored .good e n slot a = t →
      completes writes t := by
    intro writes t h1 h2 ht
    refine (exec_complete hp writes).trans (congrArg Host.Outcome.next ((finishWriteBack_good h1 e n slot a).trans ?_))
    rw [h2, hm]
    exact ht
  refine ⟨fun hc => ?_, fun hc hd hl hs => ?_, fun hc hd hr => ?_, fun hc hd hr hu hv => ?_, fun bytes _ => ?_⟩
  · exact ⟨stored, good rfl rfl (writeBackMatched_held .good n slot a entry hc), rfl, written.reads⟩
  · refine ⟨queueEntry stored e, good rfl rfl (writeBackMatched_dirty .good n slot a entry hc hd), ?_, fun address => ?_⟩
    · rw [queueEntry_unstuck entry (by rw [hs]; exact nofun) hl]
    · rw [queueEntry_store]
      exact written.reads address
  · exact ⟨freeEntry stored e, good rfl rfl (writeBackMatched_clean .good n slot a entry hc hd hr), rfl, written.reads⟩
  · obtain ⟨m', hm', vacated⟩ := writeSlot_holds (s := stored) written.wf .good slot.val (encodeSlot .vacated n a)
    have counted : StoreCtl.countRetired done.ctl = { done.ctl with inUse := s.ctl.inUse - 1, vacated := s.ctl.vacated + 1 } :=
      countRetired_of hu hv
    refine ⟨vacateSlot stored .good e n slot a, good rfl rfl (writeBackMatched_retiring .good n slot a entry hc hd hr), ?_, ?_⟩
    · rw [← counted, vacateSlot_good, hm']
      rfl
    · rw [vacateSlot_good, hm']
      exact (written.again vacated).reads
  · obtain ⟨m', hm', left⟩ := writeSlot_holds (s := done) hwf (.left bytes) slot.val (encodeSlot .inUse n a)
    refine ⟨writeBackFailed { done with store := m' } e n, ?_, left.reads, rfl, fun k hk => ?_, ?_⟩
    · rw [← hm']
      exact (exec_complete hp _).trans (congrArg Host.Outcome.next (finishWriteBack_left done bytes [] e n slot a))
    · rw [writeBackFailed_entry, if_neg hk]
      rfl
    · have listed : (State.queued { done with store := m' } e = true) = (e ∈ s.oat.writeBackList) := by simp [State.queued, done]
      rw [writeBackFailed_entry, if_pos rfl, show State.entry { done with store := m' } e = some x from hx, Option.map_some]
      simp only [listed]

end Sys2Proof.Machine
end


/-! # Store requests from acceptance to completion -/

section
namespace Sys2Proof.Machine

/-- The state in which an accepted request begins: it waits no longer, and the pointer names the class after its own (R11). -/
def State.requested (s : State) : State :=
  { s with sup := s.sup.accepted, ctl := { s.ctl with rotation := .signOn, waiting := none } }

/-- The supervisor class has its turn, and a request can be accepted (R11, R199). -/
structure Ready (s : State) : Prop where
  busy : s.sup.busy = false
  idle : s.ctl.inProgress = none
  turn : s.ctl.rotation = .supervisor

/-- A request that passes its checks in a state, and has no beginning of its own (R15). -/
structure Passes (s : State) (i : Instr) (r : StoreReq) : Prop where
  row : requestOf i = some (.store r)
  fits : requestLengthFits (.store r) = true
  code : acceptanceCode s r = none
  notAttach : ∀ size clear, r ≠ .attach size clear
  notRestart : r ≠ .restart

theorem execAll_cons {i : Instr} {s t : State} (h : exec i s = .next t) (is : List Instr) : execAll (i :: is) s = execAll is t := by
  rw [execAll, h]

section
variable {s : State} {i : Instr} {r : StoreReq}

/-- A request is accepted and begins. -/
theorem execAll_begun (hs : Ready s) (hi : requestOf i = some (.store r)) (hf : requestLengthFits (.store r) = true)
    (hc : acceptanceCode s r = none) (is : List Instr) :
    execAll (i :: .rotationChoice :: is) s = execAll is (startRequest s.requested r) := by
  have chosen : rotationChoice { s with sup := s.sup.accepted, ctl := { s.ctl with waiting := some r } } = startRequest s.requested r :=
    rotationChoice_supervisor hs.idle hs.turn rfl
  rw [execAll_cons (exec_waits hi hs.busy hf hc), execAll_cons (exec_rotationChoice _), chosen]

/-- A request that needs no store access completes at the choice (log entry 11). -/
theorem execAll_atOnce (hs : Ready s) (h : Passes s i r) (hn : requestNeedsStore s.requested r = false) (is : List Instr) :
    execAll (i :: .rotationChoice :: is) s = execAll is (performRequest s.requested [] r) := by
  rw [execAll_begun hs h.row h.fits h.code, startRequest_atOnce h.notAttach h.notRestart hn]

/-- With no operation in progress a completion changes nothing. -/
theorem execAll_complete_idle {t : State} (h : t.ctl.inProgress = none) (writes : List WriteOutcome) :
    execAll [.storeOperationComplete writes] t = .next t := by
  show Host.Outcome.next (storeOperationComplete t writes) = _
  rw [storeOperationComplete, h]

/-- A request that needs the store is carried out at its completion. -/
theorem execAll_completed (hs : Ready s) (h : Passes s i r) (hn : requestNeedsStore s.requested r = true) (writes : List WriteOutcome) :
    execAll [i, .rotationChoice, .storeOperationComplete writes] s = .next (performRequest s.requested writes r) := by
  have idle : ({ s.requested with ctl := { s.requested.ctl with inProgress := none } } : State) = s.requested := by
    rw [← show s.requested.ctl.inProgress = none from hs.idle]
  rw [execAll_begun hs h.row h.fits h.code, startRequest_needsStore h.notAttach h.notRestart hn,
    execAll_cons (exec_complete (s := s.requested.inProgress (.supervisor r)) rfl writes)]
  show Host.Outcome.next (performRequest { s.requested with ctl := { s.requested.ctl with inProgress := none } } writes r) = _
  rw [idle]

end

/-! ## Responses -/

theorem respond_ok (s : State) (clamped : Bool) (result : List Byte) :
    respond s .ok clamped result = { s with sup := s.sup.offered (okCode clamped) clamped result } := by
  rw [respond_eq]
  cases clamped <;> rfl

theorem respond_code (s : State) {c : Code} (hc : c ≠ .ok) (clamped : Bool) (result : List Byte) :
    respond s c clamped result = { s with sup := s.sup.offered c.byte clamped result } := by
  rw [respond_eq]
  simp [hc]

/-! ## Settings brought into range -/

theorem clamp_eq_nearest {lo hi : Nat} (h : lo ≤ hi) (n : Nat) : clamp lo hi n = nearest lo hi n := by
  unfold clamp nearest
  split
  · omega
  · split <;> omega

theorem clamps_iff {lo hi : Nat} (h : lo ≤ hi) (n : Nat) : clamps lo hi n = decide (nearest lo hi n ≠ n) := by
  unfold clamps nearest
  rw [← Bool.decide_or, decide_eq_decide]
  omega

theorem groupNumber_eq (g : Option GroupNo) : groupNumber g = groupByte g := by cases g <;> rfl

/-! ## Edits -/

theorem editGrant_acct (amount : Nat) (a : Account) : (editGrant amount a).acct =
    { a with overdraft := a.overdraft - amount, allotment := min 16777215 (a.allotment + (amount - a.overdraft)) } := by
  simp only [editGrant, grantTo]
  rw [show a.overdraft - min amount a.overdraft = a.overdraft - amount by omega,
    show amount - min amount a.overdraft = amount - a.overdraft by omega]

theorem editGrant_clamped (amount : Nat) (a : Account) :
    (editGrant amount a).clamped = decide (16777215 < a.allotment + (amount - a.overdraft)) := by
  simp only [editGrant]
  rw [show amount - min amount a.overdraft = amount - a.overdraft by omega]

theorem editGrant_result (amount : Nat) (a : Account) : (editGrant amount a).result = balanceBytes (editGrant amount a).acct := rfl

/-- A GRANT of 0 leaves an account in range as it is (R19). -/
theorem editGrant_zero {a : Account} (h : a.allotment ≤ 16777215) :
    editGrant 0 a = { acct := a, clamped := false, result := balanceBytes a, writes := false } := by
  have same : grantTo 0 a = a := by simp [grantTo, h]
  simp [editGrant, same, h]

theorem editChange_frame (f : ChangeFields) (a : Account) :
    editChange f.frame a = { acct := f.applied a, clamped := f.clamps } := by
  obtain ⟨cls, limit, permitted, group, low, live⟩ := f
  have hcls : ((cls.map fun c => c.val).bind fin4?).getD a.cls = cls.getD a.cls := by
    cases cls with
    | none => rfl
    | some c => simp [fin4_val]
  have hlimit : (limit.map clampSessionLimit).getD a.sessionLimit = (limit.map (nearest 1 4)).getD a.sessionLimit := by
    cases limit with
    | none => rfl
    | some n => simp [clampSessionLimit, clamp_eq_nearest]
  have hpermitted : ((permitted.map fun m => m.toNat).map (BitVec.ofNat 6)).getD a.permitted = permitted.getD a.permitted := by
    cases permitted <;> simp
  have hgroup : ((group.map groupByte).bind optGroup?).getD a.defaultGroup = group.getD a.defaultGroup := by
    cases group with
    | none => rfl
    | some g => simp [← groupNumber_eq, optGroup_groupNumber]
  have hstatus : ((live.map fun live => if live then 0 else 2).bind statusOf?).getD a.status =
      (live.map (fun live => if live then Status.live else .barred)).getD a.status := by
    rcases live with _ | _ | _ <;> rfl
  have hlive : ((live.map fun live => if live then 0 else 2) = some 0) = (live = some true) := by
    rcases live with _ | _ | _ <;> simp
  have hclamps : (limit.map (clamps 1 4)).getD false = limit.any (fun n => decide (nearest 1 4 n ≠ n)) := by
    cases limit with
    | none => rfl
    | some n => simp [clamps_iff]
  simp only [editChange, ChangeFields.frame, ChangeFields.applied, ChangeFields.clamps, hcls, hlimit, hpermitted, hgroup, hstatus,
    hlive, hclamps]

theorem changeClamps_frame (f : ChangeFields) : changeClamps f.frame = f.clamps := by
  have edit := congrArg Edit.clamped (editChange_frame f (newAccount { account := 0, cls := 0, sessionLimit := 1, permitted := 0, defaultGroup := 0, allotment := 0, lowThreshold := 0 }))
  exact edit

theorem totalsBytes_eq (a : Account) : totalsBytes a =
    a.bandTotals.toList.flatMap (beBytes 3) ++ beBytes 3 a.waitTotal ++ beBytes 3 a.connectSeconds := by
  simp [totalsBytes, Account.totals]

/-! ## Requests on the account of a number -/

section
variable {s : State} {n : Nat}

/-- The fields of a CHANGE_ACCOUNT that an account can hold are admitted (R18). -/
theorem acceptance_change_frame (ha : s.ctl.attachment ≠ .noStore) (h1 : 1 ≤ n) (h2 : n ≤ 9999999) (f : ChangeFields) :
    acceptanceCode s (.change n f.frame) = none := by
  refine acceptance_change ha h1 h2 (fun c hc => ?_) (fun p hp => ?_) (fun g hg => ?_) fun x hx => ?_
  · obtain ⟨d, _, rfl⟩ := Option.map_eq_some_iff.1 hc
    omega
  · obtain ⟨m, _, rfl⟩ := Option.map_eq_some_iff.1 hp
    have := m.isLt
    omega
  · obtain ⟨_ | g, _, rfl⟩ := Option.map_eq_some_iff.1 hg
    · exact Nat.zero_le 6
    · exact g.isLt
  · obtain ⟨live, _, rfl⟩ := Option.map_eq_some_iff.1 hx
    cases live
    · exact .inr rfl
    · exact .inl rfl

theorem passes_of {i : Instr} {r : StoreReq} {c : Code} (ha : s.ctl.attachment ≠ .noStore) (h1 : 1 ≤ n) (h2 : n ≤ 9999999)
    (hi : requestOf i = some (.store r)) (hf : requestLengthFits (.store r) = true) (hn : namedAccount r = some (n, c))
    (hid : identifiersOutOfRange s r = false) (ho : ownCheckFails r = false) : Passes s i r := by
  have attach : ∀ size clear, r ≠ .attach size clear := fun _ _ h => by subst h; cases hn
  have restart : r ≠ .restart := fun h => by subst h; cases hn
  exact ⟨hi, hf, (acceptanceCode_account attach restart).trans (acceptance_account ha hn h1 h2 hid ho), attach, restart⟩

theorem passes_setPassword (ha : s.ctl.attachment ≠ .noStore) (h1 : 1 ≤ n) (h2 : n ≤ 9999999) {chars : List Byte} (h : PasswordFits chars) :
    Passes s (.setPassword n chars) (.setPassword n chars) :=
  passes_of ha h1 h2 rfl (decide_eq_true h.2.1) rfl rfl (password_fits h.1 h.2.2)

theorem passes_change (ha : s.ctl.attachment ≠ .noStore) (h1 : 1 ≤ n) (h2 : n ≤ 9999999) (f : ChangeFields) :
    Passes s (.changeAccount n f.frame) (.change n f.frame) :=
  ⟨rfl, rfl, acceptance_change_frame ha h1 h2 f, nofun, nofun⟩

end

end Sys2Proof.Machine
end


/-! # The requests on an account that is not open -/

section
namespace Sys2Proof.Machine

/-- The request's turn is over, and the supervisor port offers a response. -/
def State.responded (s : State) (code : Byte) (clamped : Bool) (result : List Byte) : State :=
  { s with ctl := { s.ctl with rotation := .signOn, waiting := none }, sup := s.sup.answered code clamped result }

/-- The controller has met a store fault on an account (R4). -/
def State.faulted (s : State) (n : Nat) : State :=
  { s with ctl := { s.ctl with uncertain := true }, attn := s.attn.raiseAccount n 2 }

theorem writeMatches_iff {o : WriteOutcome} : writeMatches o = true ↔ o = .good := by cases o <;> simp [writeMatches]

theorem requested_store (s : State) : s.requested.store = s.store := rfl

section
variable (s : State) (m : List Host.Cell) (n : Nat) (clamped : Bool) (result : List Byte)

theorem respond_requested_ok :
    respond { s.requested with store := m } .ok clamped result = ({ s with store := m } : State).responded (okCode clamped) clamped result := by
  rw [respond_ok]
  rfl

theorem respond_requested_fault : respond (storeFault { s.requested with store := m } (some n)) .storeFault clamped result =
    (({ s with store := m } : State).faulted n).responded 8 clamped result := by
  rw [respond_code _ (c := .storeFault) nofun]
  rfl

theorem respond_requested_code {c : Code} (hc : c ≠ .ok) : respond s.requested c clamped result = s.responded c.byte clamped result := by
  rw [respond_code _ hc]
  rfl

theorem lookupFault_requested : lookupFault s.requested n clamped = (s.faulted n).responded 8 clamped [] :=
  respond_requested_fault s s.store n clamped []

end

section
variable {s : State} {n : Nat}

/-! ## Edits -/

section
variable {o : WriteOutcome} {clamped : Bool} {f : Account → Edit} (hopen : s.openAccount n = none)
include hopen

theorem editAccount_notFound {place : Option Nat} (hl : s.lookup n = .notFound place) :
    editAccount s o n clamped f = respond s .notFound clamped [] := by simp only [editAccount, hopen, hl]

theorem editAccount_damaged (hl : s.lookup n = .damaged) : editAccount s o n clamped f = lookupFault s n clamped := by
  simp only [editAccount, hopen, hl]

theorem editAccount_found {slot : Nat} {a : Account} (hl : s.lookup n = .found slot a) :
    editAccount s o n clamped f = editSlot s o n slot (f a) := by simp only [editAccount, hopen, hl]

end

theorem editSlot_good {slot : Nat} {d : Edit} (hw : d.writes = true) : editSlot s .good n slot d =
    respond { s with store := slotWrite s.store .good slot (encodeSlot .inUse n d.acct) } .ok d.clamped d.result := by
  simp only [editSlot, hw, writeMatches, if_true, State.writeSlot]

theorem editSlot_failed {o : WriteOutcome} (ho : o ≠ .good) {slot : Nat} {d : Edit} (hw : d.writes = true) : editSlot s o n slot d =
    respond (storeFault { s with store := slotWrite s.store o slot (encodeSlot .inUse n d.acct) } (some n)) .storeFault d.clamped [] := by
  have fails : writeMatches o = false := eq_false_of_ne_true (mt writeMatches_iff.1 ho)
  simp [editSlot, hw, fails, State.writeSlot]

theorem editSlot_unwritten {o : WriteOutcome} {slot : Nat} {d : Edit} (hw : d.writes = false) :
    editSlot s o n slot d = respond s .ok d.clamped d.result := by
  simp [editSlot, hw]

/-! ## READ_AND_CLEAR_TOTALS and RETIRE -/

section
variable {slot : Nat} {a : Account} (hopen : s.openAccount n = none) (hl : s.lookup n = .found slot a)
include hopen hl

theorem readAndClear_good : readAndClear s .good n =
    respond { s with store := slotWrite s.store .good slot (encodeSlot .inUse n (clearTotals a)) } .ok false (totalsBytes a) := by
  simp only [readAndClear, hopen, hl, writeMatches, if_true, State.writeSlot]

theorem readAndClear_failed {o : WriteOutcome} (ho : o ≠ .good) : readAndClear s o n =
    respond (storeFault { s with store := slotWrite s.store o slot (encodeSlot .inUse n (clearTotals a)) } (some n)) .storeFault false
      (totalsBytes a) := by
  simp only [readAndClear, hopen, hl, mt writeMatches_iff.1 ho, Bool.false_eq_true, if_false, State.writeSlot]

theorem retire_good (hu : 0 < s.ctl.inUse) (hv : s.ctl.vacated < s.ctl.capacity) : retire s .good n =
    respond { s with store := slotWrite s.store .good slot (encodeSlot .vacated n a),
                     ctl := { s.ctl with inUse := s.ctl.inUse - 1, vacated := s.ctl.vacated + 1 } } .ok false [0] := by
  simp only [retire, hopen, hl, writeMatches, if_true, State.writeSlot, State.onCtl, countRetired_of hu hv]

theorem retire_failed {o : WriteOutcome} (ho : o ≠ .good) : retire s o n =
    respond (storeFault { s with store := slotWrite s.store o slot (encodeSlot .vacated n a) } (some n)) .storeFault false [] := by
  simp only [retire, hopen, hl, mt writeMatches_iff.1 ho, Bool.false_eq_true, if_false, State.writeSlot]

end

/-! ## The requests of R15 on one account -/

/-- What a request does on an account that is not open and is not found in the store, or whose lookup ends at a damaged slot (R15). -/
structure Misses (s : State) (n : Nat) (r : StoreReq) (clamped : Bool) : Prop where
  needsStore : requestNeedsStore s r = true
  notFound : ∀ writes place, s.lookup n = .notFound place → performRequest s writes r = respond s .notFound clamped []
  damaged : ∀ writes, s.lookup n = .damaged → performRequest s writes r = lookupFault s n clamped

theorem misses_edit (h : s.openAccount n = none) {r : StoreReq} {clamped : Bool} {f : Account → Edit}
    (hn : requestNeedsStore s r = recordNeedsStore s n)
    (hr : ∀ writes, performRequest s writes r = editAccount s (firstOutcome writes) n clamped f) : Misses s n r clamped where
  needsStore := hn.trans (recordNeedsStore_iff.2 h)
  notFound writes _ hl := (hr writes).trans (editAccount_notFound h hl)
  damaged writes hl := (hr writes).trans (editAccount_damaged h hl)

theorem misses_readAccount (h : s.openAccount n = none) : Misses s n (.readAccount n) false where
  needsStore := rfl
  notFound writes _ hl := by
    show readAccount s n = _
    simp only [readAccount, h, hl]
  damaged writes hl := by
    show readAccount s n = _
    simp only [readAccount, h, hl]

theorem misses_readAndClear (h : s.openAccount n = none) : Misses s n (.readAndClear n) false where
  needsStore := recordNeedsStore_iff.2 h
  notFound writes _ hl := by
    show readAndClear s _ n = _
    simp only [readAndClear, h, hl]
  damaged writes hl := by
    show readAndClear s _ n = _
    simp only [readAndClear, h, hl]

theorem misses_retire (h : s.openAccount n = none) : Misses s n (.retire n) false where
  needsStore := recordNeedsStore_iff.2 h
  notFound writes _ hl := by
    show retire s _ n = _
    simp only [retire, h, hl]
  damaged writes hl := by
    show retire s _ n = _
    simp only [retire, h, hl]

/-- A well-formed request on an account passes its checks, and on an account that is not open needs the store (R15). -/
theorem accountRequest_passes {i : Instr} {clamped : Bool} (hi : AccountRequest n i clamped) (ha : s.ctl.attachment ≠ .noStore)
    (h1 : 1 ≤ n) (h2 : n ≤ 9999999) : ∃ r, Passes s i r ∧ ∀ t : State, t.openAccount n = none → Misses t n r clamped := by
  rcases hi with ⟨rfl, ⟨amount, rfl | rfl⟩ | ⟨chars, hp, rfl⟩ | rfl | rfl | rfl | rfl⟩ | ⟨f, rfl, rfl⟩
  · exact ⟨.grant n amount, passes_of ha h1 h2 rfl rfl rfl rfl rfl, fun t ht => misses_edit ht rfl fun _ => rfl⟩
  · exact ⟨.revoke n amount, passes_of ha h1 h2 rfl rfl rfl rfl rfl, fun t ht => misses_edit ht rfl fun _ => rfl⟩
  · exact ⟨.setPassword n chars, passes_setPassword ha h1 h2 hp, fun t ht => misses_edit ht rfl fun _ => rfl⟩
  · exact ⟨.forgive n, passes_of ha h1 h2 rfl rfl rfl rfl rfl, fun t ht => misses_edit ht rfl fun _ => rfl⟩
  · exact ⟨.readAccount n, passes_of ha h1 h2 rfl rfl rfl rfl rfl, fun t ht => misses_readAccount ht⟩
  · exact ⟨.readAndClear n, passes_of ha h1 h2 rfl rfl rfl rfl rfl, fun t ht => misses_readAndClear ht⟩
  · exact ⟨.retire n, passes_of ha h1 h2 rfl rfl rfl rfl rfl, fun t ht => misses_retire ht⟩
  · refine ⟨.change n f.frame, passes_change ha h1 h2 f, fun t ht => misses_edit (f := editChange f.frame) ht rfl fun _ => ?_⟩
    rw [← changeClamps_frame]
    rfl

/-! ## Found in the store -/

/-- An edit of an account found in the store, from acceptance to completion (R4, R15). -/
theorem edit_completes (hs : Ready s) (hopen : s.openAccount n = none) {slot : Nat} {a : Account} (hl : s.lookup n = .found slot a)
    {i : Instr} {r : StoreReq} (hp : Passes s i r) {clamped : Bool} {f : Account → Edit}
    (hn : requestNeedsStore s.requested r = recordNeedsStore s.requested n)
    (hr : ∀ writes, performRequest s.requested writes r = editAccount s.requested (firstOutcome writes) n clamped f) (o : WriteOutcome) :
    execAll [i, .rotationChoice, .storeOperationComplete [o]] s = .next (editSlot s.requested o n slot (f a)) := by
  have closed : s.requested.openAccount n = none := hopen
  rw [execAll_completed hs hp (hn.trans (recordNeedsStore_iff.2 closed)), hr, editAccount_found closed hl]
  rfl

/-- An edit that writes: the slot holds the edited record, or the write did not match. -/
theorem edit_writes (hs : Ready s) (hopen : s.openAccount n = none) {slot : Nat} {a : Account} (hl : s.lookup n = .found slot a)
    {i : Instr} {r : StoreReq} (hp : Passes s i r) {clamped : Bool} {f : Account → Edit}
    (hn : requestNeedsStore s.requested r = recordNeedsStore s.requested n)
    (hr : ∀ writes, performRequest s.requested writes r = editAccount s.requested (firstOutcome writes) n clamped f)
    {d : Edit} (hd : f a = d) (hw : d.writes = true) (o : WriteOutcome) :
    (o = .good → execAll [i, .rotationChoice, .storeOperationComplete [o]] s =
      .next (({ s with store := slotWrite s.store o slot (encodeSlot .inUse n d.acct) } : State).responded (okCode d.clamped) d.clamped d.result)) ∧
    (o ≠ .good → execAll [i, .rotationChoice, .storeOperationComplete [o]] s =
      .next ((({ s with store := slotWrite s.store o slot (encodeSlot .inUse n d.acct) } : State).faulted n).responded 8 d.clamped [])) := by
  rw [edit_completes hs hopen hl hp hn hr, hd]
  constructor
  · rintro rfl
    rw [editSlot_good hw]
    exact congrArg Host.Outcome.next (respond_requested_ok s _ _ _)
  · intro ho
    rw [editSlot_failed ho hw]
    exact congrArg Host.Outcome.next (respond_requested_fault s _ n _ _)

end

/-- Settles O51: every request on the account misses in one way (`Misses`); found, an edit writes the slot (`edit_writes`). -/
theorem requestsOnClosedAccount : Obligations.RequestsOnClosedAccount := by
  unfold Obligations.RequestsOnClosedAccount
  intro n o s hb ha hp ht h1 h2 hno turned runs faulted answers
  have hs : Ready s := ⟨hb, hp, ht⟩
  have hopen : s.openAccount n = none := openAccount_none hno
  have closed : s.requested.openAccount n = none := hopen
  refine ⟨fun i clamped hi => ?_, ?_, ?_⟩
  · obtain ⟨r, passes, misses⟩ := accountRequest_passes (s := s) hi ha h1 h2
    obtain ⟨needs, notFound, damaged⟩ := misses s.requested closed
    refine ⟨fun place hl => ?_, fun hl => ?_⟩
    · refine (execAll_completed hs passes needs [o]).trans (congrArg Host.Outcome.next ?_)
      rw [notFound _ place hl, respond_requested_code s clamped [] (c := .notFound) nofun]
      rfl
    · refine (execAll_completed hs passes needs [o]).trans (congrArg Host.Outcome.next ?_)
      rw [damaged _ hl, lookupFault_requested]
      rfl
  · have missing : performRequest s.requested [] (.discard n) = s.responded 5 false [] := by
      show discardOpen s.requested n = _
      simp only [discardOpen, closed]
      exact respond_requested_code s false [] (c := .notFound) nofun
    refine (execAll_atOnce hs (passes_of ha h1 h2 rfl rfl rfl rfl rfl) rfl _).trans ?_
    rw [missing]
    exact execAll_complete_idle (t := s.responded 5 false []) hp _
  · intro slot a hl after writes balance totals cleared
    have inRange := (lookup_found_inRange hl).2.2
    have found : s.requested.lookup n = .found slot a := hl
    have edits : ∀ {i r clamped} {f : Account → Edit} {d : Edit}, Passes s i r →
        requestNeedsStore s.requested r = recordNeedsStore s.requested n →
        (∀ ws, performRequest s.requested ws r = editAccount s.requested (firstOutcome ws) n clamped f) → f a = d → d.writes = true →
        writes i d.acct d.clamped d.result := by
      intro i r clamped f d hp hn hr hd hw
      have both := edit_writes hs hopen hl hp hn hr hd hw o
      dsimp only [writes, after, answers, faulted, turned, runs]
      generalize slotWrite s.store o slot (encodeSlot .inUse n d.acct) = m at both ⊢
      exact both
    have passesClear : Passes s (.readAndClearTotals n) (.readAndClear n) := passes_of ha h1 h2 rfl rfl rfl rfl rfl
    have passesRetire : Passes s (.retire n) (.retire n) := passes_of ha h1 h2 rfl rfl rfl rfl rfl
    refine ⟨?_, fun amount hne => ?_, fun amount => ?_, ?_, fun chars hc => ?_, fun f => ?_, ?_, ?_, ?_, ?_, ?_⟩
    · refine (edit_completes hs hopen hl (r := .grant n 0) (f := editGrant 0) (passes_of ha h1 h2 rfl rfl rfl rfl rfl) rfl (fun _ => rfl) o).trans ?_
      rw [editGrant_zero inRange.2.2.2.1, editSlot_unwritten rfl]
      exact congrArg Host.Outcome.next (respond_requested_ok s s.store false (balanceBytes a))
    · have grants := edits (i := .grant n amount) (r := .grant n amount) (f := editGrant amount) (passes_of ha h1 h2 rfl rfl rfl rfl rfl) rfl (fun _ => rfl) rfl
        (decide_eq_true hne)
      rw [editGrant_result, editGrant_acct, editGrant_clamped] at grants
      exact grants
    · exact edits (i := .revoke n amount) (r := .revoke n amount) (f := editRevoke amount) (d := editRevoke amount a) (passes_of ha h1 h2 rfl rfl rfl rfl rfl) rfl (fun _ => rfl) rfl rfl
    · exact edits (i := .forgive n) (r := .forgive n) (f := editForgive) (d := editForgive a) (passes_of ha h1 h2 rfl rfl rfl rfl rfl) rfl (fun _ => rfl) rfl rfl
    · exact edits (i := .setPassword n chars) (r := .setPassword n chars) (f := editPassword chars) (d := editPassword chars a) (passes_setPassword ha h1 h2 hc) rfl (fun _ => rfl) rfl rfl
    · exact edits (i := .changeAccount n f.frame) (r := .change n f.frame) (f := editChange f.frame)
        (d := { acct := f.applied a, clamped := f.clamps }) (passes_change ha h1 h2 f) rfl (fun _ => rfl) (editChange_frame f a) rfl
    · have reads : performRequest s.requested [o] (.readAccount n) =
          s.responded 0 false (beBytes 2 slot ++ [0, 0] ++ slotBytes s.store slot) := by
        show readAccount s.requested n = _
        simp only [readAccount, closed, found]
        exact respond_requested_ok s s.store false (accountResult slot false 0 (slotBytes s.store slot))
      exact (execAll_completed hs (passes_of ha h1 h2 rfl rfl rfl rfl rfl) rfl [o]).trans (congrArg Host.Outcome.next reads)
    · rintro rfl
      refine (execAll_completed hs passesClear (recordNeedsStore_iff.2 closed) _).trans (congrArg Host.Outcome.next ?_)
      refine (readAndClear_good closed found).trans ?_
      rw [totalsBytes_eq, requested_store]
      dsimp only [after, answers, turned]
      rw [show cleared = clearTotals a from rfl]
      generalize slotWrite s.store .good slot (encodeSlot .inUse n (clearTotals a)) = m
      exact respond_requested_ok s m false totals
    · intro ho
      refine (execAll_completed hs passesClear (recordNeedsStore_iff.2 closed) _).trans (congrArg Host.Outcome.next ?_)
      refine (readAndClear_failed closed found ho).trans ?_
      rw [totalsBytes_eq, requested_store]
      dsimp only [after, answers, turned, faulted]
      rw [show cleared = clearTotals a from rfl]
      generalize slotWrite s.store o slot (encodeSlot .inUse n (clearTotals a)) = m
      exact respond_requested_fault s m n false totals
    · rintro rfl hu hv
      refine (execAll_completed hs passesRetire (recordNeedsStore_iff.2 closed) _).trans (congrArg Host.Outcome.next ?_)
      refine (retire_good closed found hu hv).trans ?_
      rw [respond_ok, requested_store]
      dsimp only [after, answers, turned]
      generalize slotWrite s.store .good slot (encodeSlot .vacated n a) = m
      rfl
    · intro ho
      refine (execAll_completed hs passesRetire (recordNeedsStore_iff.2 closed) _).trans (congrArg Host.Outcome.next ?_)
      refine (retire_failed closed found ho).trans ?_
      rw [requested_store]
      dsimp only [after, answers, turned, faulted]
      generalize slotWrite s.store o slot (encodeSlot .vacated n a) = m
      exact respond_requested_fault s m n false []

end Sys2Proof.Machine
end


/-! # Reading open accounts -/

section
namespace Sys2Proof.Machine

section
variable {s : State} {e : EntryNo} {x : OatEntry}

theorem openAccount_account {n : Nat} (h : s.openAccount n = some (e, x)) : s.entry e = some x ∧ x.account = n := by
  unfold State.openAccount at h
  cases hf : s.findOpen n with
  | none => simp [hf] at h
  | some k =>
    obtain ⟨y, hy, hn⟩ := findOpen_some hf
    simp only [hf, hy, Option.map_some, Option.some.injEq, Prod.mk.injEq] at h
    obtain ⟨rfl, rfl⟩ := h
    exact ⟨hy, hn⟩

/-- The one entry on an account is its open entry (R28). -/
theorem openAccount_eq_some {n : Nat} (hx : s.entry e = some x) (hn : x.account = n)
    (huniq : ∀ k y, s.entry k = some y → y.account = n → k = e) : s.openAccount n = some (e, x) := by
  cases ho : s.openAccount n with
  | none => exact absurd hn (findOpen_none.1 (openAccount_eq_none.1 ho) e x hx)
  | some ky =>
    obtain ⟨k, y⟩ := ky
    obtain ⟨hy, hyn⟩ := openAccount_account ho
    obtain rfl := huniq k y hy hyn
    rw [hx] at hy
    cases hy
    rfl

end

/-- The copies of an entry merged into a slot's image (R21). -/
theorem mergeImage_encodeSlot (state : SlotState) (n : Nat) (a b : Account) :
    mergeImage (encodeSlot state n a) b = encodeSlot state n b := by
  have cut : encodeSlot state n a = slotStateByte state :: statusByte a.status :: (beBytes 3 n ++ (accountBytes a ++
      [-(byteSum (slotStateByte state :: statusByte a.status :: beBytes 3 n ++ accountBytes a))])) := by
    simp [encodeSlot, slotImage, withCheck]
  rw [cut]
  rfl

theorem mergeImage_inUse {m : List Host.Cell} {slot n : Nat} {a b : Account} (h : slotView m slot = .inUse n a) :
    mergeImage (slotBytes m slot) b = encodeSlot .inUse n b := by
  rw [(encodeSlot_of_decode_inUse (length_slotBytes m slot) h).1, mergeImage_encodeSlot]

theorem mergeImage_vacated {m : List Host.Cell} {slot n : Nat} {a b : Account} (h : slotView m slot = .vacated n a) :
    mergeImage (slotBytes m slot) b = encodeSlot .vacated n b := by
  rw [(encodeSlot_of_decode_vacated (length_slotBytes m slot) h).1, mergeImage_encodeSlot]

section
variable {s : State}

theorem readAccount_open {n : Nat} {e : EntryNo} {x : OatEntry} (ho : s.openAccount n = some (e, x))
    (hv : slotView s.store x.slot.val ≠ .damaged) :
    readAccount s n = respond s .ok false (accountResult x.slot.val true x.count (mergeImage (slotBytes s.store x.slot.val) x.acct)) := by
  simp only [readAccount, ho]
  exact if_neg hv

theorem readAccount_open_damaged {n : Nat} {e : EntryNo} {x : OatEntry} (ho : s.openAccount n = some (e, x))
    (hv : slotView s.store x.slot.val = .damaged) : readAccount s n = lookupFault s n false := by
  simp only [readAccount, ho]
  exact if_pos hv

/-! ## The records of READ_SLOTS (R22) -/

theorem slotReport_damaged {j : Nat} (h : slotView s.store j = .damaged) : slotReport s j = (1, slotBytes s.store j) := by
  have view : decodeSlot (slotBytes s.store j) = .damaged := h
  simp only [slotReport, view]

/-- A slot that an entry names and that holds the entry's account is merged. -/
theorem slotReport_merged {e : EntryNo} {x : OatEntry} (ho : s.openAccount x.account = some (e, x)) {a : Account}
    (h : slotView s.store x.slot.val = .inUse x.account a) : slotReport s x.slot.val = (2, encodeSlot .inUse x.account x.acct) := by
  have view : decodeSlot (slotBytes s.store x.slot.val) = .inUse x.account a := h
  simp only [slotReport, view, ho, if_true, mergeImage_inUse h]

theorem slotReport_plain {j : Nat} (hd : slotView s.store j ≠ .damaged)
    (hm : ∀ e x, s.entry e = some x → x.slot.val = j → ∀ a, slotView s.store j ≠ .inUse x.account a) :
    slotReport s j = (0, slotBytes s.store j) := by
  cases hv : slotView s.store j with
  | damaged => exact absurd hv hd
  | empty =>
    have view : decodeSlot (slotBytes s.store j) = .empty := hv
    simp only [slotReport, view]
  | vacated n a =>
    have view : decodeSlot (slotBytes s.store j) = .vacated n a := hv
    simp only [slotReport, view]
  | inUse n a =>
    have view : decodeSlot (slotBytes s.store j) = .inUse n a := hv
    simp only [slotReport, view]
    cases ho : s.openAccount n with
    | none => rfl
    | some ex =>
      obtain ⟨e, x⟩ := ex
      obtain ⟨hx, rfl⟩ := openAccount_account ho
      exact if_neg fun hj => hm e x hx hj a hv

end

/-- Settles O50: the copies of an entry are merged into the image of its slot (`mergeImage_encodeSlot`). -/
theorem openAccountRead : Obligations.OpenAccountRead := by
  unfold Obligations.OpenAccountRead
  intro s hb ha hp ht huniq turned runs answers
  have hs : Ready s := ⟨hb, hp, ht⟩
  have opened : ∀ {e x}, s.entry e = some x → s.requested.openAccount x.account = some (e, x) := fun {e x} hx =>
    openAccount_eq_some (s := s.requested) hx rfl fun k y hy hn => huniq k e y x hy hx hn
  refine ⟨?_, fun first count hf => ?_⟩
  · intro e x hx h1 h2 returns
    have completes : runs (.readAccount x.account) (readAccount s.requested x.account) :=
      execAll_completed (r := .readAccount x.account) hs (passes_of ha h1 h2 rfl rfl rfl rfl rfl) rfl []
    have sound : ∀ image, slotView s.store x.slot.val ≠ .damaged → mergeImage (slotBytes s.store x.slot.val) x.acct = image → returns image := by
      intro image hv hm
      refine completes.trans (congrArg Host.Outcome.next ?_)
      rw [readAccount_open (opened hx) hv, requested_store, hm]
      refine (respond_requested_ok s s.store _ _).trans ?_
      have result : accountResult x.slot.val true x.count image =
          beBytes 2 x.slot.val ++ [1, BitVec.ofNat 8 x.count] ++ image := by simp [accountResult, flagByte, beBytes]
      rw [result]
      rfl
    refine ⟨fun m a hv => sound _ (by rw [hv]; exact nofun) (mergeImage_inUse hv),
      fun m a hv => sound _ (by rw [hv]; exact nofun) (mergeImage_vacated hv), fun hv => ?_⟩
    refine completes.trans (congrArg Host.Outcome.next ?_)
    rw [readAccount_open_damaged (opened hx) hv, lookupFault_requested]
    rfl
  · intro k
    refine ⟨slotReport s.requested, ?_, ?_⟩
    · have passes : Passes s (.readSlots first count) (.readSlots first count) :=
        ⟨rfl, rfl, acceptance_readSlots ha count hf, nofun, nofun⟩
      refine (execAll_completed hs passes rfl []).trans (congrArg Host.Outcome.next ?_)
      exact respond_requested_ok s s.store (decide (8 < count)) _
    · intro j merged
      refine ⟨slotReport_damaged, fun e x ⟨hx, hj, a, hv⟩ => ?_, fun hd hm => ?_⟩
      · subst hj
        exact slotReport_merged (opened hx) hv
      · exact slotReport_plain hd fun e x hx hj a hv => hm e x ⟨hx, hj, a, hv⟩

end Sys2Proof.Machine
end


/-! # ADD_ACCOUNT from acceptance to completion -/

section
namespace Sys2Proof.Machine

/-! ## Lookups that pass over the slots of open entries -/

/-- A probe that passes slots over is a probe of a store in which each of them holds another account in use (R16). -/
theorem probe_passing {view view' : Nat → SlotView} {pass : Nat → SlotView → Bool} {capacity number : Nat}
    (h : ∀ j, (pass j (view j) = true ∧ ∃ m b, m ≠ number ∧ view' j = .inUse m b) ∨ (pass j (view j) = false ∧ view' j = view j))
    (fuel slot : Nat) (place : Option Nat) :
    probe view pass capacity number fuel slot place = probe view' (fun _ _ => false) capacity number fuel slot place := by
  induction fuel generalizing slot place with
  | zero => rfl
  | succ fuel ih =>
    simp only [probe]
    rcases h slot with ⟨hp, m, b, hm, hv⟩ | ⟨hp, hv⟩
    · simp [hp, hv, hm, ih]
    · simp [hp, hv, ih]

theorem slotNamed_iff {s : State} {j : Nat} : s.slotNamed j = true ↔ ∃ e x, s.entry e = some x ∧ x.slot.val = j := by
  unfold State.slotNamed
  rw [List.any_eq_true]
  constructor
  · rintro ⟨y, hy, h⟩
    obtain ⟨i, hi, rfl⟩ := List.getElem_of_mem hy
    cases hx : s.oat.entries.toList[i] with
    | none => simp [hx] at h
    | some x =>
      have hi' : i < 112 := by simpa using hi
      refine ⟨⟨i, hi'⟩, x, ?_, by simpa [hx] using h⟩
      rw [← hx]
      simp [State.entry, Vector.get_eq_getElem]
  · rintro ⟨e, x, hx, hj⟩
    refine ⟨some x, ?_, by simpa using hj⟩
    rw [← hx]
    simp [State.entry, Vector.get_eq_getElem]

/-- The lookup of ADD_ACCOUNT (R16), as a lookup in a store where the slots of open entries are taken. -/
theorem lookupForAdd_eq {s taken : State} {n : Nat} (hc : taken.ctl.capacity = s.ctl.capacity)
    (h : ∀ j, ((∃ e x, s.entry e = some x ∧ x.slot.val = j) → slotView s.store j ≠ .damaged →
        ∃ m b, m ≠ n ∧ slotView taken.store j = .inUse m b) ∧
      (¬(∃ e x, s.entry e = some x ∧ x.slot.val = j) ∨ slotView s.store j = .damaged → slotView taken.store j = slotView s.store j)) :
    s.lookupForAdd n = taken.lookup n := by
  unfold State.lookupForAdd State.lookup State.lookupPassing
  rw [hc]
  refine probe_passing (fun j => ?_) _ _ _
  by_cases hn : ∃ e x, s.entry e = some x ∧ x.slot.val = j
  · by_cases hd : slotView s.store j = .damaged
    · exact .inr ⟨by simp [hd], (h j).2 (.inr hd)⟩
    · exact .inl ⟨by simp [slotNamed_iff.2 hn, hd], (h j).1 hn hd⟩
  · refine .inr ⟨?_, (h j).2 (.inl hn)⟩
    rw [eq_false_of_ne_true (mt slotNamed_iff.1 hn), Bool.false_and]

/-! ## ADD_ACCOUNT (R16) -/

section
variable {s : State} {o : WriteOutcome} {p : NewAccount}

theorem addAccount_full (h : fillLimit s.ctl.capacity ≤ s.ctl.inUse) :
    addAccount s o p = respond s .storeFull (clamps 1 4 p.sessionLimit) [] := if_pos h

theorem addAccount_held (h : ¬fillLimit s.ctl.capacity ≤ s.ctl.inUse) (ho : s.openAccount p.account ≠ none) :
    addAccount s o p = respond s .present (clamps 1 4 p.sessionLimit) [] := by
  obtain ⟨e, he⟩ := Option.ne_none_iff_exists'.1 (mt openAccount_eq_none.2 ho)
  simp only [addAccount, if_neg h, he]

section
variable (h : ¬fillLimit s.ctl.capacity ≤ s.ctl.inUse) (ho : s.openAccount p.account = none)
include h ho

theorem addAccount_found {slot : Nat} {b : Account} (hl : s.lookupForAdd p.account = .found slot b) :
    addAccount s o p = respond s .present (clamps 1 4 p.sessionLimit) [] := by
  simp only [addAccount, if_neg h, openAccount_eq_none.1 ho, hl]

theorem addAccount_damaged (hl : s.lookupForAdd p.account = .damaged) :
    addAccount s o p = lookupFault s p.account (clamps 1 4 p.sessionLimit) := by
  simp only [addAccount, if_neg h, openAccount_eq_none.1 ho, hl]

theorem addAccount_noPlace (hl : s.lookupForAdd p.account = .notFound none) :
    addAccount s o p = respond s .storeFull (clamps 1 4 p.sessionLimit) [] := by
  simp only [addAccount, if_neg h, openAccount_eq_none.1 ho, hl]

theorem addAccount_place {slot : Nat} (hl : s.lookupForAdd p.account = .notFound (some slot)) :
    addAccount s o p = placeAccount s o p slot := by
  simp only [addAccount, if_neg h, openAccount_eq_none.1 ho, hl]

end

theorem countIn_inUse {c : StoreCtl} (h : c.inUse < c.capacity) : c.countIn .inUse = { c with inUse := c.inUse + 1 } := by
  simp [StoreCtl.countIn, raiseCount, h]

/-- A record placed in an EMPTY slot. -/
theorem placeAccount_empty {slot : Nat} (hc : s.ctl.inUse < s.ctl.capacity) (hv : slotView s.store slot = .empty) :
    placeAccount s .good p slot = respond
      { s with store := storeSlot s.store slot (encodeSlot .inUse p.account (newAccount p)), ctl := { s.ctl with inUse := s.ctl.inUse + 1 } }
      .ok (clamps 1 4 p.sessionLimit) (beBytes 2 slot) := by
  simp only [placeAccount, writeMatches, if_true, hv, SlotView.isVacated, Bool.false_eq_true, if_false, State.writeSlot, State.onCtl,
    slotWrite, bytesAfterWrite, countIn_inUse hc]

/-- A record placed in a VACATED slot. -/
theorem placeAccount_vacated {slot m : Nat} {b : Account} (hc : s.ctl.inUse < s.ctl.capacity) (hv : slotView s.store slot = .vacated m b)
    (h0 : 0 < s.ctl.vacated) :
    placeAccount s .good p slot = respond
      { s with store := storeSlot s.store slot (encodeSlot .inUse p.account (newAccount p)),
               ctl := { s.ctl with inUse := s.ctl.inUse + 1, vacated := s.ctl.vacated - 1 } }
      .ok (clamps 1 4 p.sessionLimit) (beBytes 2 slot) := by
  have lowered : lowerCount s.ctl.capacity s.ctl.vacated = s.ctl.vacated - 1 := if_pos h0
  simp only [placeAccount, writeMatches, if_true, hv, SlotView.isVacated, State.writeSlot, State.onCtl, slotWrite, bytesAfterWrite, lowered]
  rw [countIn_inUse (by exact hc)]

theorem placeAccount_failed {slot : Nat} (ho : o ≠ .good) :
    placeAccount s o p slot = respond
      (storeFault { s with store := slotWrite s.store o slot (encodeSlot .inUse p.account (newAccount p)) } (some p.account))
      .storeFault (clamps 1 4 p.sessionLimit) [] := by
  simp only [placeAccount, mt writeMatches_iff.1 ho, Bool.false_eq_true, if_false, State.writeSlot]

/-- ADD_ACCOUNT of an admitted record from acceptance to completion: at once where the store is full or the account open (R12). -/
theorem execAll_add (hs : Ready s) (hc : acceptanceCode s (.add p) = none) :
    execAll [.addAccount p, .rotationChoice, .storeOperationComplete [o]] s =
      if fillLimit s.ctl.capacity ≤ s.ctl.inUse then .next (s.responded 7 (clamps 1 4 p.sessionLimit) [])
      else if s.openAccount p.account = none then .next (addAccount s.requested o p)
      else .next (s.responded 6 (clamps 1 4 p.sessionLimit) []) := by
  have passes : Passes s (.addAccount p) (.add p) := ⟨rfl, rfl, hc, nofun, nofun⟩
  have needs : requestNeedsStore s.requested (.add p) =
      (decide (s.ctl.inUse < fillLimit s.ctl.capacity) && recordNeedsStore s.requested p.account) := rfl
  split
  · rename_i hfull
    rw [execAll_atOnce hs passes (by rw [needs, decide_eq_false (Nat.not_lt.2 hfull), Bool.false_and])]
    show execAll _ (addAccount s.requested .good p) = _
    rw [addAccount_full (s := s.requested) hfull, respond_requested_code _ _ _ (c := .storeFull) nofun]
    exact execAll_complete_idle (t := s.responded 7 _ []) hs.idle [o]
  · rename_i hfull
    split
    · rename_i ho
      refine execAll_completed hs passes ?_ [o]
      rw [needs, decide_eq_true (Nat.not_le.1 hfull), Bool.true_and]
      exact recordNeedsStore_iff.2 ho
    · rename_i ho
      have held : recordNeedsStore s.requested p.account = false := eq_false_of_ne_true (mt recordNeedsStore_iff.1 ho)
      rw [execAll_atOnce hs passes (by rw [needs, held, Bool.and_false])]
      show execAll _ (addAccount s.requested .good p) = _
      rw [addAccount_held (s := s.requested) hfull ho, respond_requested_code _ _ _ (c := .present) nofun]
      exact execAll_complete_idle (t := s.responded 6 _ []) hs.idle [o]

/-- The new record with the fields given (R16). -/
theorem newAccount_eq {cls : ClassNo} {g : Option GroupNo} (hc : p.cls = cls.val) (hg : p.defaultGroup = groupByte g) : newAccount p =
    { status := .live, cls := cls, sessionLimit := nearest 1 4 p.sessionLimit, permitted := BitVec.ofNat 6 p.permitted,
      defaultGroup := g, password := 0, failedCount := 0, allotment := p.allotment, overdraft := 0, lowThreshold := p.lowThreshold,
      bandTotals := Vector.replicate 4 0, waitTotal := 0, connectSeconds := 0, lastSignOn := none } := by
  have cls_eq : (fin4? p.cls).getD 0 = cls := by rw [hc, fin4_val]; rfl
  have group_eq : (optGroup? p.defaultGroup).getD none = g := by rw [hg, ← groupNumber_eq, optGroup_groupNumber]; rfl
  simp only [newAccount, cls_eq, group_eq, clampSessionLimit, clamp_eq_nearest (show 1 ≤ 4 by decide)]

end

end Sys2Proof.Machine
end


/-! # REPLACE_SLOT from acceptance to completion -/

section
namespace Sys2Proof.Machine

/-! ## The bytes of an image without its check byte -/

theorem imageByte_take {b : List Byte} {i : Nat} (h : i < 39) : imageByte (b.take 39) i = imageByte b i := by
  simp [imageByte, List.getD_eq_getElem?_getD, h]

theorem imageNat_take {b : List Byte} {i k : Nat} (h : i + k ≤ 39) : imageNat (b.take 39) i k = imageNat b i k := by
  simp only [imageNat, List.drop_take, List.take_take]
  rw [Nat.min_eq_left (by omega)]

theorem imageFields_take (b : List Byte) : imageFields? (b.take 39) = imageFields? b := by
  simp [imageFields?, imageByte_take, imageNat_take]

/-- An image with a check byte of the controller's own: a sound one of the same account (R24). -/
theorem withCheck_take {image : List Byte} (hl : image.length = 40) {state : SlotState} (h0 : image.getD 0 0 = slotStateByte state)
    {n : Nat} {a : Account} (hf : imageFields? image = some (n, a)) : withCheck (image.take 39) = encodeSlot state n a := by
  set checked := withCheck (image.take 39) with hchecked
  have front : checked.take 39 = image.take 39 := by
    rw [hchecked, withCheck, List.take_append_of_le_length (by simp [hl]), List.take_take, Nat.min_self]
  have length : checked.length = 40 := by simp [hchecked, withCheck, hl]
  have fields : imageFields? checked = some (n, a) := by rw [← imageFields_take, front, imageFields_take, hf]
  have first : checked.getD 0 0 = slotStateByte state := by
    rw [← h0]
    exact BitVec.eq_of_toNat_eq (by
      have one := imageByte_take (b := checked) (i := 0) (by decide)
      rw [front, imageByte_take (by decide)] at one
      exact one.symm)
  rw [← slotImage_of_imageFields length (byteSum_withCheck _) fields, first]
  rfl

theorem replaceBytes_empty {image : List Byte} (h : imageView image = .empty) : replaceBytes image = List.replicate 40 0 := by
  simp [replaceBytes, imageState, h, emptyImage]

theorem replaceBytes_inUse {image : List Byte} (hl : image.length = 40) {n : Nat} {a : Account} (h : imageView image = .inUse n a) :
    replaceBytes image = encodeSlot .inUse n a := by
  obtain ⟨h0, hf⟩ := imageView_inUse_iff.1 h
  have state : imageState image ≠ .empty := by simp [imageState, h]
  rw [replaceBytes, if_neg state]
  exact withCheck_take hl (state := .inUse) (BitVec.eq_of_toNat_eq h0) hf

theorem replaceBytes_vacated {image : List Byte} (hl : image.length = 40) {n : Nat} {a : Account} (h : imageView image = .vacated n a) :
    replaceBytes image = encodeSlot .vacated n a := by
  obtain ⟨h0, hf⟩ := imageView_vacated_iff.1 h
  have state : imageState image ≠ .empty := by simp [imageState, h]
  rw [replaceBytes, if_neg state]
  exact withCheck_take hl (state := .vacated) (BitVec.eq_of_toNat_eq h0) hf

/-! ## The duplicate check -/

/-- Two lookups that end alike, up to the place a new record would take. -/
def Lookup.EndsAs (a b : Lookup) : Prop := a = b ∨ (∃ p, a = .notFound p) ∧ ∃ p, b = .notFound p

/-- A probe that passes slots over ends as one in a store where each of them is passed over for what it holds (R24). -/
theorem probe_endsAs {view view' : Nat → SlotView} {pass : Nat → SlotView → Bool} {capacity number : Nat}
    (h : ∀ j, (pass j (view j) = true ∧ (view' j).Passed number) ∨ (pass j (view j) = false ∧ view' j = view j))
    (fuel slot : Nat) (place place' : Option Nat) :
    (probe view pass capacity number fuel slot place).EndsAs (probe view' (fun _ _ => false) capacity number fuel slot place') := by
  induction fuel generalizing slot place place' with
  | zero => exact .inr ⟨⟨_, rfl⟩, _, rfl⟩
  | succ fuel ih =>
    simp only [probe]
    rcases h slot with ⟨hp, hv | ⟨m, b, hv, hm⟩⟩ | ⟨hp, hv⟩
    · obtain ⟨m, b, hv⟩ := isVacated_iff.1 hv
      simpa [hp, hv] using ih _ _ _
    · simpa [hp, hv, hm] using ih _ _ _
    · rw [hv]
      simp only [hp, Bool.false_eq_true, if_false]
      split
      · split
        · exact .inl rfl
        · exact ih _ _ _
      · exact ih _ _ _
      · exact .inr ⟨⟨_, rfl⟩, _, rfl⟩
      · exact .inl rfl

theorem slotBytes_storeSlot_other {m : List Host.Cell} (h : storeWf m = true) {slot j : Nat} (hj : j ≠ slot) (bytes : List Byte) :
    slotBytes (storeSlot m slot bytes) j = slotBytes m j := by
  refine List.map_congr_left fun i hi => ?_
  have small := List.mem_range.1 hi
  rw [storeRead_storeSlot h, if_neg (by omega)]

/-- The duplicate check of REPLACE_SLOT, which passes over the target, as a lookup with the target VACATED (R24). -/
theorem duplicateCheck {s : State} (hwf : storeWf s.store = true) {slot n : Nat} {a : Account} (hn : 1 ≤ n ∧ n ≤ maxAccount)
    (ha : AccountInRange a) : (s.lookupPassing (fun i _ => decide (i = slot)) n).EndsAs
      (State.lookup { s with store := storeSlot s.store slot (encodeSlot .vacated n a) } n) := by
  have target : slotView (storeSlot s.store slot (encodeSlot .vacated n a)) slot = .vacated n a := by
    rw [slotView, slotBytes_storeSlot hwf _ _ (length_encodeSlot _ _ _), decode_encode_vacated hn ha]
  have other : ∀ j, j ≠ slot → slotView (storeSlot s.store slot (encodeSlot .vacated n a)) j = slotView s.store j := fun j hj => by
    rw [slotView, slotView, slotBytes_storeSlot_other hwf hj]
  generalize storeSlot s.store slot (encodeSlot .vacated n a) = stored at target other
  refine probe_endsAs (fun j => ?_) _ _ _ _
  by_cases hj : j = slot
  · subst hj
    exact .inl ⟨decide_eq_true rfl, .inl (isVacated_iff.2 ⟨n, a, target⟩)⟩
  · exact .inr ⟨decide_eq_false hj, other j hj⟩

/-! ## REPLACE_SLOT (R24) -/

section
variable {s : State} {o : WriteOutcome} {slot : Nat} {image : List Byte}

/-- The target or the image's account is open, or an entry names the slot. -/
theorem replaceForbidden_iff : replaceForbidden s slot image = true ↔
    (∃ e x, s.entry e = some x ∧ (x.slot.val = slot ∨ ∃ b, slotView s.store slot = .inUse x.account b)) ∨
      ∃ n, imageAccount image = some n ∧ ∃ e x, s.entry e = some x ∧ x.account = n := by
  have opened : ∀ n, (s.findOpen n).isSome = true ↔ ∃ e x, s.entry e = some x ∧ x.account = n := by
    intro n
    rw [Option.isSome_iff_ne_none, ne_eq, findOpen_none]
    push Not
    rfl
  unfold replaceForbidden
  rw [Bool.or_eq_true, Bool.or_eq_true, slotNamed_iff]
  refine or_congr ?_ ?_
  · constructor
    · rintro (⟨e, x, hx, hj⟩ | h)
      · exact ⟨e, x, hx, .inl hj⟩
      · cases hv : slotView s.store slot with
        | inUse n b =>
          rw [hv] at h
          obtain ⟨e, x, hx, rfl⟩ := (opened n).1 h
          exact ⟨e, x, hx, .inr ⟨b, rfl⟩⟩
        | _ => rw [hv] at h; cases h
    · rintro ⟨e, x, hx, hj | ⟨b, hv⟩⟩
      · exact .inl ⟨e, x, hx, hj⟩
      · refine .inr ?_
        rw [hv]
        exact (opened _).2 ⟨e, x, hx, rfl⟩
  · cases imageAccount image with
    | none => simp
    | some n => exact (opened n).trans ⟨fun k => ⟨n, rfl, k⟩, fun ⟨_, hk, k⟩ => Option.some.inj hk ▸ k⟩

theorem replaceSlot_forbidden (h : replaceForbidden s slot image = true) : replaceSlot s o slot image = respond s .wrongState false [] :=
  if_pos h

theorem replaceSlot_unnamed (h : ¬replaceForbidden s slot image = true) (hn : imageAccount image = none) :
    replaceSlot s o slot image = writeReplacement s o slot image := by
  simp only [replaceSlot, h, hn, Bool.false_eq_true, if_false]

section
variable {n : Nat} (h : ¬replaceForbidden s slot image = true) (hn : imageAccount image = some n)
include h hn

theorem replaceSlot_found {k : Nat} {b : Account} (hl : s.lookupPassing (fun i _ => decide (i = slot)) n = .found k b) :
    replaceSlot s o slot image = respond s .present false [] := by
  simp only [replaceSlot, h, hn, hl, Bool.false_eq_true, if_false]

theorem replaceSlot_damaged (hl : s.lookupPassing (fun i _ => decide (i = slot)) n = .damaged) :
    replaceSlot s o slot image = lookupFault s n false := by
  simp only [replaceSlot, h, hn, hl, Bool.false_eq_true, if_false]

theorem replaceSlot_notFound {place : Option Nat} (hl : s.lookupPassing (fun i _ => decide (i = slot)) n = .notFound place) :
    replaceSlot s o slot image = writeReplacement s o slot image := by
  simp only [replaceSlot, h, hn, hl, Bool.false_eq_true, if_false]

end

/-- The counts of both views of a slot: what it held leaves them, and the image joins them (R24). -/
theorem countOut_countIn {c : StoreCtl} {before : SlotView} {state : SlotState}
    (h1 : (if before.isInUse then 1 else 0) ≤ c.inUse) (h2 : (if before.isVacated then 1 else 0) ≤ c.vacated)
    (h3 : c.inUse - (if before.isInUse then 1 else 0) + (if state = .inUse then 1 else 0) ≤ c.capacity)
    (h4 : c.vacated - (if before.isVacated then 1 else 0) + (if state = .vacated then 1 else 0) ≤ c.capacity) :
    (c.countOut before).countIn state =
      { c with inUse := c.inUse - (if before.isInUse then 1 else 0) + (if state = .inUse then 1 else 0),
               vacated := c.vacated - (if before.isVacated then 1 else 0) + (if state = .vacated then 1 else 0) } := by
  have out : c.countOut before = { c with inUse := c.inUse - (if before.isInUse then 1 else 0),
                                          vacated := c.vacated - (if before.isVacated then 1 else 0) } := by
    cases before with
    | inUse n a =>
      have : 0 < c.inUse := h1
      simp [StoreCtl.countOut, lowerCount, this, SlotView.isInUse, SlotView.isVacated]
    | vacated n a =>
      have : 0 < c.vacated := h2
      simp [StoreCtl.countOut, lowerCount, this, SlotView.isInUse, SlotView.isVacated]
    | empty => rfl
    | damaged => rfl
  rw [out]
  cases state with
  | inUse =>
    have : c.inUse - (if before.isInUse then 1 else 0) < c.capacity := h3
    simp [StoreCtl.countIn, raiseCount, this]
  | vacated =>
    have : c.vacated - (if before.isVacated then 1 else 0) < c.capacity := h4
    simp [StoreCtl.countIn, raiseCount, this]
  | empty => simp [StoreCtl.countIn]

theorem writeReplacement_good : writeReplacement s .good slot image =
    respond ((s.writeSlot .good slot (replaceBytes image)).onCtl
      fun c => (c.countOut (slotView s.store slot)).countIn (imageState image)) .ok false [] := by
  simp only [writeReplacement, writeMatches, if_true]

theorem writeReplacement_failed (ho : o ≠ .good) : writeReplacement s o slot image =
    respond (storeFault (s.writeSlot o slot (replaceBytes image)) (imageAccount image)) .storeFault false [] := by
  simp only [writeReplacement, mt writeMatches_iff.1 ho, Bool.false_eq_true, if_false]

end

end Sys2Proof.Machine
end


/-! # FLUSH, ATTACH_STORE and READ_SLOTS; the store-wide requests -/

section
namespace Sys2Proof.Machine

/-! ## FLUSH (R41) -/

/-- An entry that a flush queues: dirty or STUCK, and not queued yet (R40, R41). -/
def State.flushes (s : State) (e : EntryNo) : Bool :=
  !s.queued e && (s.entry e).any (fun x => x.dirty || decide (x.state = .stuck))

/-- One entry of a flush. -/
def flushStep (s : State) (e : EntryNo) : State :=
  match s.entry e with
  | none => s
  | some x => if x.dirty || decide (x.state = .stuck) then queueEntry s e else s

theorem flushEntries_eq (s : State) : flushEntries s = allEntries.foldl flushStep s := rfl

/-- An entry once queued: STUCK becomes CLOSING (R36). -/
def OatEntry.unstuck (x : OatEntry) : OatEntry := { x with state := if x.state = .stuck then .closing else x.state }

theorem unstuck_eq (x : OatEntry) : x.unstuck = if x.state = .stuck then { x with state := .closing } else x := by
  unfold OatEntry.unstuck
  split <;> rfl

theorem flushes_iff {s : State} {e : EntryNo} : s.flushes e = true ↔
    e ∉ s.oat.writeBackList ∧ ∃ x, s.entry e = some x ∧ (x.dirty = true ∨ x.state = .stuck) := by
  cases hx : s.entry e <;> simp [State.flushes, State.queued, hx]

theorem flushStep_flushes {s : State} {e : EntryNo} (h : s.flushes e = true) : flushStep s e = queueEntry s e := by
  obtain ⟨_, x, hx, hd⟩ := flushes_iff.1 h
  simp only [flushStep, hx]
  exact if_pos (by simpa using hd)

theorem flushStep_rests {s : State} {e : EntryNo} (h : s.flushes e = false) : flushStep s e = s := by
  unfold flushStep
  split
  · rfl
  · rename_i x hx
    split
    · rename_i hd
      have listed : s.queued e = true := by simpa [State.flushes, hx, hd] using h
      rw [queueEntry, if_pos listed]
    · rfl

/-- What one step of a flush leaves. -/
theorem flushStep_spec (s : State) (e : EntryNo) :
    (flushStep s e).oat.writeBackList = s.oat.writeBackList ++ (if s.flushes e then [e] else []) ∧
      (∀ k, (flushStep s e).entry k = if k = e ∧ s.flushes e = true then (s.entry e).map OatEntry.unstuck else s.entry k) ∧
      ∃ oat, flushStep s e = { s with oat := oat } := by
  cases hf : s.flushes e with
  | false =>
    rw [flushStep_rests hf]
    exact ⟨by simp, by simp, s.oat, rfl⟩
  | true =>
    have unlisted := (flushes_iff.1 hf).1
    rw [flushStep_flushes hf]
    refine ⟨by rw [queueEntry_list, if_neg unlisted]; rfl, fun k => ?_, _, queueEntry_oat s e⟩
    rw [queueEntry_entry]
    simp only [unlisted, not_false_iff, and_true]
    rfl

/-- A flush of some entries queues those of them that are to be flushed, in order (R40, R41). -/
theorem flushSteps_spec (es : List EntryNo) (s : State) (hn : es.Nodup) :
    (es.foldl flushStep s).oat.writeBackList = s.oat.writeBackList ++ es.filter s.flushes ∧
      (∀ k, (es.foldl flushStep s).entry k = if k ∈ es ∧ s.flushes k = true then (s.entry k).map OatEntry.unstuck else s.entry k) ∧
      ∃ oat, es.foldl flushStep s = { s with oat := oat } := by
  induction es generalizing s with
  | nil => exact ⟨by simp, by simp, s.oat, rfl⟩
  | cons e es ih =>
    obtain ⟨he, hes⟩ := List.nodup_cons.1 hn
    obtain ⟨hlist, hentry, _, hrest⟩ := flushStep_spec s e
    obtain ⟨list, entry, _, rest⟩ := ih (flushStep s e) hes
    have other : ∀ k, k ≠ e → (flushStep s e).entry k = s.entry k ∧ (flushStep s e).flushes k = s.flushes k := by
      intro k hk
      have same : (flushStep s e).entry k = s.entry k := by rw [hentry, if_neg (fun h => hk h.1)]
      refine ⟨same, ?_⟩
      have queued : (flushStep s e).queued k = s.queued k := by
        unfold State.queued
        rw [hlist]
        cases s.flushes e <;> simp [hk]
      rw [State.flushes, State.flushes, queued, same]
    have later : es.filter (flushStep s e).flushes = es.filter s.flushes :=
      List.filter_congr fun k hk => (other k (fun h => he (h ▸ hk))).2
    refine ⟨?_, fun k => ?_, _, rest.trans (by rw [hrest])⟩
    · rw [List.foldl_cons, list, hlist, later, List.append_assoc, List.filter_cons]
      cases s.flushes e <;> rfl
    · rw [List.foldl_cons, entry]
      by_cases hk : k = e
      · subst hk
        simp [he, hentry]
      · obtain ⟨same, flush⟩ := other k hk
        simp [hk, same, flush]

/-- What a flush leaves (R40, R41). -/
theorem flushEntries_spec (s : State) :
    (flushEntries s).oat.writeBackList = s.oat.writeBackList ++ allEntries.filter s.flushes ∧
      (∀ k, (flushEntries s).entry k = if s.flushes k = true then (s.entry k).map OatEntry.unstuck else s.entry k) ∧
      ∃ oat, flushEntries s = { s with oat := oat } := by
  obtain ⟨list, entry, rest⟩ := flushSteps_spec allEntries s (List.nodup_finRange 112)
  rw [flushEntries_eq]
  refine ⟨list, fun k => ?_, rest⟩
  rw [entry]
  simp only [show k ∈ allEntries from List.mem_finRange k, true_and]

/-! ## ATTACH_STORE (R2) -/

theorem anyEntry_iff {s : State} : s.oat.entries.toList.any Option.isSome = true ↔ ∃ e x, s.entry e = some x := by
  rw [List.any_eq_true]
  constructor
  · rintro ⟨y, hy, h⟩
    obtain ⟨i, hi, rfl⟩ := List.getElem_of_mem hy
    obtain ⟨x, hx⟩ := Option.isSome_iff_exists.1 h
    refine ⟨⟨i, by simpa using hi⟩, x, ?_⟩
    rw [← hx]
    simp [State.entry, Vector.get_eq_getElem]
  · rintro ⟨e, x, hx⟩
    refine ⟨some x, ?_, rfl⟩
    rw [← hx]
    simp [State.entry, Vector.get_eq_getElem]

theorem storeRead_clearBelow {m : List Host.Cell} {bound : Option Nat} (h : storeAbove bound m) (slots address : Nat) :
    storeRead (clearBelow m slots) address = if address < slots * 40 then 0 else storeRead m address := by
  induction m generalizing bound with
  | nil => simp [clearBelow, storeRead, storeDefault]
  | cons c m ih =>
    obtain ⟨k, b⟩ := c
    obtain ⟨-, -, above⟩ := h
    have rest := ih above
    unfold clearBelow at rest ⊢
    rw [List.filter_cons]
    by_cases hk : slots * 40 ≤ k
    · simp only [hk, decide_true, if_true, storeRead, rest]
      by_cases ha : address = k
      · simp [ha, Nat.not_lt.2 hk]
      · simp [ha]
    · simp only [hk, decide_false, Bool.false_eq_true, if_false, rest, storeRead]
      split
      · rfl
      · rename_i ha
        rw [if_neg (by omega)]

theorem clearStore_nil (m : List Host.Cell) (capacity : Nat) : clearStore m capacity [] = clearBelow m capacity := rfl

/-- A slot of a cleared store is EMPTY (R2). -/
theorem slotView_clearBelow {m : List Host.Cell} (h : storeWf m = true) {slots j : Nat} (hj : j < slots) :
    slotView (clearBelow m slots) j = .empty := by
  have zeros : slotBytes (clearBelow m slots) j = List.replicate 40 0 := by
    refine List.ext_getElem (by simp [slotBytes]) fun i h1 h2 => ?_
    have small : i < 40 := by simpa [slotBytes] using h1
    simp only [slotBytes, List.getElem_map, List.getElem_range, List.getElem_replicate]
    rw [storeRead_clearBelow ((storeWf_iff m).1 h), if_pos (by omega)]
  rw [slotView, zeros]
  decide

theorem countSlots_clearBelow {m : List Host.Cell} (h : storeWf m = true) {test : SlotView → Bool} (ht : test .empty = false) (slots : Nat) :
    countSlots (clearBelow m slots) test slots = 0 := by
  unfold countSlots
  rw [List.length_eq_zero_iff, List.filter_eq_nil_iff]
  intro j hj
  rw [slotView_clearBelow h (List.mem_range.1 hj), ht]
  exact Bool.false_ne_true

end Sys2Proof.Machine
end


/-! # The store-wide requests from acceptance to completion -/

section
namespace Sys2Proof.Machine

section
variable {s : State}

/-! ## REPLACE_SLOT -/

theorem imageAccount_inUse {image : List Byte} {n : Nat} {a : Account} (h : imageView image = .inUse n a) : imageAccount image = some n := by
  simp only [imageAccount, h]

theorem imageAccount_vacated {image : List Byte} {n : Nat} {a : Account} (h : imageView image = .vacated n a) : imageAccount image = none := by
  simp only [imageAccount, h]

theorem imageAccount_empty {image : List Byte} (h : imageView image = .empty) : imageAccount image = none := by
  simp only [imageAccount, h]

/-- The items REPLACE_SLOT leaves where its write does not match: a STORE_FAULT item for an IN_USE image alone (R24). -/
def replaceItems (s : State) (account : Option Nat) : Attention :=
  match account with
  | none => s.attn
  | some n => s.attn.raiseAccount n 2

theorem respond_requested_replaced (s : State) (m : List Host.Cell) (account : Option Nat) :
    respond (storeFault { s.requested with store := m } account) .storeFault false [] =
      ({ s with store := m, ctl := { s.ctl with uncertain := true }, attn := replaceItems s account } : State).responded 8 false [] := by
  rw [respond_code _ (c := .storeFault) nofun]
  cases account <;> rfl

/-- The replacement of a slot, when its write matches: the slot holds the bytes, and the counts of both views are right (R24). -/
theorem replacement_good (hwf : storeWf s.store = true) {slot : Nat} {image : List Byte}
    (h1 : (if (slotView s.store slot).isInUse then 1 else 0) ≤ s.ctl.inUse)
    (h2 : (if (slotView s.store slot).isVacated then 1 else 0) ≤ s.ctl.vacated)
    (h3 : s.ctl.inUse - (if (slotView s.store slot).isInUse then 1 else 0) + (if imageState image = .inUse then 1 else 0) ≤ s.ctl.capacity)
    (h4 : s.ctl.vacated - (if (slotView s.store slot).isVacated then 1 else 0) + (if imageState image = .vacated then 1 else 0) ≤ s.ctl.capacity) :
    ∃ m, SlotHolds s.store m slot (replaceBytes image) ∧ writeReplacement s.requested .good slot image = State.responded
      { s with store := m, ctl := { s.ctl with
          inUse := s.ctl.inUse - (if (slotView s.store slot).isInUse then 1 else 0) + (if imageState image = .inUse then 1 else 0),
          vacated := s.ctl.vacated - (if (slotView s.store slot).isVacated then 1 else 0) +
            (if imageState image = .vacated then 1 else 0) } } 0 false [] := by
  obtain ⟨m, hm, holds⟩ := writeSlot_holds (s := s.requested) hwf .good slot (replaceBytes image)
  refine ⟨m, holds, ?_⟩
  have counts := countOut_countIn (c := s.requested.ctl) (before := slotView s.store slot) (state := imageState image) h1 h2 h3 h4
  rw [writeReplacement_good, hm, respond_ok]
  show State.mk _ _ _ _ _ _ _ _ _ _ = _
  rw [State.onCtl]
  dsimp only
  rw [requested_store, counts]
  rfl

theorem replacement_failed {o : WriteOutcome} (ho : o ≠ .good) (slot : Nat) (image : List Byte) :
    writeReplacement s.requested o slot image = State.responded
      { s with store := slotWrite s.store o slot (replaceBytes image), ctl := { s.ctl with uncertain := true },
               attn := replaceItems s (imageAccount image) } 8 false [] := by
  rw [writeReplacement_failed ho, State.writeSlot, requested_store]
  exact respond_requested_replaced s _ _

theorem execAll_replace (hs : Ready s) {slot : Nat} {image : List Byte} (hl : image.length = 40)
    (hc : acceptanceCode s (.replace slot image) = none) (o : WriteOutcome) :
    execAll [.replaceSlot slot image, .rotationChoice, .storeOperationComplete [o]] s = .next (replaceSlot s.requested o slot image) :=
  execAll_completed (r := .replace slot image) hs ⟨rfl, decide_eq_true hl, hc, nofun, nofun⟩ rfl [o]

/-! ## READ_SLOTS -/

/-- With no open entry every slot is returned as read (R22). -/
theorem slotRecord_closed (h : ∀ e x, s.entry e ≠ some x) (j : Nat) : slotRecord s j =
    beBytes 2 j ++ [if slotView s.store j = .damaged then 1 else 0] ++ slotBytes s.store j := by
  unfold slotRecord
  split
  · rename_i hd
    rw [slotReport_damaged hd]
    simp
  · rename_i hd
    rw [slotReport_plain hd fun e x hx => absurd hx (h e x)]
    simp

/-! ## ATTACH_STORE -/

/-- The store is attached with a capacity and its counts (R2). -/
def State.attachedAs (s : State) (store : List Host.Cell) (capacity inUse vacated : Nat) : State :=
  { s with store := store, ctl := { s.ctl with attachment := .attached, capacity := capacity, inUse := inUse,
                                               vacated := vacated, uncertain := false } }

theorem startAttach_open {size clear : Nat} (h : ∃ e x, s.entry e = some x) :
    startAttach s size clear = respond s .wrongState (decide (3 < size)) [] := if_pos (anyEntry_iff.2 h)

theorem startAttach_closed {size clear : Nat} (h : ∀ e x, s.entry e ≠ some x) :
    startAttach s size clear = (beginAttach s size).inProgress (.supervisor (.attach size clear)) :=
  if_neg fun k => by
    obtain ⟨e, x, hx⟩ := anyEntry_iff.1 k
    exact h e x hx

/-- ATTACH_STORE with no entry open, from acceptance to completion (R2). -/
theorem execAll_attach (hs : Ready s) (h : ∀ e x, s.entry e ≠ some x) (size : Nat) {clear : Nat} (hc : clear ≤ 1) (writes : List WriteOutcome) :
    execAll [.attachStore size clear, .rotationChoice, .storeOperationComplete writes] s =
      .next (finishAttach (beginAttach s.requested size) writes size clear) := by
  have idle : ({ beginAttach s.requested size with ctl := { (beginAttach s.requested size).ctl with inProgress := none } } : State) =
      beginAttach s.requested size := by
    rw [← show (beginAttach s.requested size).ctl.inProgress = none from hs.idle]
  rw [execAll_begun hs (r := .attach size clear) rfl rfl (if_pos hc)]
  show execAll _ (startAttach s.requested size clear) = _
  rw [startAttach_closed (s := s.requested) h, execAll_cons
    (exec_complete (s := (beginAttach s.requested size).inProgress (.supervisor (.attach size clear))) rfl writes)]
  show Host.Outcome.next (finishAttach { beginAttach s.requested size with
    ctl := { (beginAttach s.requested size).ctl with inProgress := none } } writes size clear) = _
  rw [idle]

theorem finishAttach_requested (size : Nat) (writes : List WriteOutcome) (clear : Nat) {m : List Host.Cell}
    (hm : (if clear = 1 then clearStore s.store (capacityOf size) writes else s.store) = m) :
    finishAttach (beginAttach s.requested size) writes size clear =
      (s.attachedAs m (capacityOf size) (countSlots m SlotView.isInUse (capacityOf size))
        (countSlots m SlotView.isVacated (capacityOf size))).responded (okCode (decide (3 < size))) (decide (3 < size))
        (beBytes 2 (capacityOf size) ++ beBytes 2 (countSlots m SlotView.isInUse (capacityOf size)) ++
          beBytes 2 (countSlots m SlotView.isVacated (capacityOf size)) ++
          beBytes 2 (countSlots m (fun v => decide (v = .damaged)) (capacityOf size))) := by
  have store : (if clear = 1 then clearStore (beginAttach s.requested size).store (beginAttach s.requested size).ctl.capacity writes
      else (beginAttach s.requested size).store) = m := hm
  unfold finishAttach
  rw [store, respond_ok]
  rfl

end

/-- Settles O52: each request's outcome follows from its lookup (`addAccount_place` and its companions, `replaceSlot_notFound` and its
companions), its flush (`flushEntries_spec`) or its scan (`finishAttach_requested`). -/
theorem storeWideRequests : Obligations.StoreWideRequests := by
  unfold Obligations.StoreWideRequests
  intro s hb hp ht hwf turned runs answers
  have hs : Ready s := ⟨hb, hp, ht⟩
  refine ⟨?_, ?_, ?_, ?_, ?_, ?_⟩
  · intro p cls g o ha h1 h2 hc hpm hg adds limit clamped full held named faulted a
    have accepted : acceptanceCode s (.add p) = none := acceptance_add ha h1 h2 (by omega) hpm (by
      rw [hg]
      cases g with
      | none => exact Nat.zero_le 6
      | some g => exact g.isLt)
    have clamp_eq : clamps 1 4 p.sessionLimit = clamped := clamps_iff (by decide) _
    have record : newAccount p = a := newAccount_eq hc hg
    have run := execAll_add (o := o) hs accepted
    rw [clamp_eq] at run
    refine ⟨fun hf => ?_, fun hf hh => ?_, fun taken htaken hviews hf hh => ?_⟩
    · rw [if_pos (by exact hf)] at run
      exact run
    · rw [if_neg (by exact hf), if_neg (openAccount_ne_none hh)] at run
      exact run
    · have closed : s.openAccount p.account = none := openAccount_none fun e x hx hn => hh ⟨e, x, hx, hn⟩
      have lookup : s.requested.lookupForAdd p.account = taken.lookup p.account :=
        lookupForAdd_eq (s := s.requested) (by rw [htaken]; rfl) hviews
      have room : s.ctl.inUse < s.ctl.capacity := by
        have : ¬s.ctl.capacity - s.ctl.capacity / 8 ≤ s.ctl.inUse := hf
        omega
      rw [if_neg (by exact hf), if_pos closed] at run
      have ends : ∀ {t}, addAccount s.requested o p = t → adds t := fun h => run.trans (congrArg Host.Outcome.next h)
      have code : ∀ {c : Code}, c ≠ .ok → respond s.requested c (clamps 1 4 p.sessionLimit) [] = s.responded c.byte clamped [] :=
        fun h => by rw [clamp_eq, respond_requested_code s clamped [] h]
      refine ⟨fun slot b hl => ends ?_, fun hl => ends ?_, fun hl => ends ?_, ?_⟩
      · exact (addAccount_found (s := s.requested) hf closed (lookup.trans hl)).trans (code (c := .present) nofun)
      · refine (addAccount_damaged (s := s.requested) hf closed (lookup.trans hl)).trans ?_
        rw [clamp_eq]
        exact lookupFault_requested s p.account clamped
      · exact (addAccount_noPlace (s := s.requested) hf closed (lookup.trans hl)).trans (code (c := .storeFull) nofun)
      · intro slot hl written
        have placed := addAccount_place (s := s.requested) (o := o) hf closed (lookup.trans hl)
        refine ⟨fun ho hv => ends ?_, fun m b ho hv h0 => ends ?_, fun ho => ends ?_⟩
        · rw [placed, ho, placeAccount_empty (s := s.requested) room hv, clamp_eq, record, respond_ok, requested_store]
          dsimp only [written, answers, turned]
          generalize storeSlot s.store slot (encodeSlot .inUse p.account a) = m
          rfl
        · rw [placed, ho, placeAccount_vacated (s := s.requested) room hv h0, clamp_eq, record, respond_ok, requested_store]
          dsimp only [written, answers, turned]
          generalize storeSlot s.store slot (encodeSlot .inUse p.account a) = m
          rfl
        · rw [placed, placeAccount_failed ho, clamp_eq, record, requested_store]
          dsimp only [faulted, answers, turned]
          generalize slotWrite s.store o slot (encodeSlot .inUse p.account a) = m
          exact respond_requested_fault s m p.account clamped []
  · intro o slot image ha hslot hl before replaces forbidden uncertain writes
    have run : ∀ {t}, (imageView image = .empty ∨
        ∃ n a, (imageView image = .inUse n a ∨ imageView image = .vacated n a) ∧ (a.allotment = 0 ∨ a.overdraft = 0)) →
        replaceSlot s.requested o slot image = t → replaces t := fun hv h =>
      (execAll_replace hs hl (acceptance_replace ha hslot hl hv) o).trans (congrArg Host.Outcome.next h)
    have refused : replaceForbidden s.requested slot image = true → replaceSlot s.requested o slot image = answers turned 10 false [] := fun h =>
      (replaceSlot_forbidden h).trans (respond_requested_code s false [] (c := .wrongState) nofun)
    have written : ∀ {bytes : List Byte} {inUse vacated : Nat} {items : Attention}, (imageView image = .empty ∨
        ∃ n a, (imageView image = .inUse n a ∨ imageView image = .vacated n a) ∧ (a.allotment = 0 ∨ a.overdraft = 0)) →
        replaceSlot s.requested o slot image = writeReplacement s.requested o slot image → replaceBytes image = bytes →
        (if imageState image = .inUse then 1 else 0) = inUse → (if imageState image = .vacated then 1 else 0) = vacated →
        replaceItems s (imageAccount image) = items → writes bytes inUse vacated items := by
      rintro bytes inUse vacated items hv heq rfl rfl rfl rfl
      refine ⟨fun ho b1 b2 b3 b4 => ?_, fun ho => ?_⟩
      · obtain ⟨m, holds, hm⟩ := replacement_good hwf b1 b2 b3 b4
        exact ⟨_, run hv (by rw [heq, ho, hm]), rfl, holds.reads⟩
      · refine run hv (heq.trans ((replacement_failed ho slot image).trans ?_))
        dsimp only [answers, uncertain, turned]
        generalize slotWrite s.store o slot (replaceBytes image) = m
        rfl
    have unnamed : imageAccount image = none → ¬forbidden → ¬replaceForbidden s.requested slot image = true := fun hn hf h =>
      (replaceForbidden_iff.1 h).elim hf fun ⟨_, h1, _⟩ => by rw [hn] at h1; cases h1
    refine ⟨fun hv => ⟨fun hf => ?_, fun hf => ?_⟩, fun n a hv hao => ⟨fun hf => ?_, fun hf => ?_⟩, fun n a hv hao => ?_⟩
    · exact run (.inl hv) (refused (replaceForbidden_iff.2 (.inl hf)))
    · have none := imageAccount_empty hv
      refine written (.inl hv) (replaceSlot_unnamed (unnamed none hf) none) (replaceBytes_empty hv) ?_ ?_ (by rw [none]; rfl)
      · simp [imageState, hv]
      · simp [imageState, hv]
    · exact run (.inr ⟨n, a, .inr hv, hao⟩) (refused (replaceForbidden_iff.2 (.inl hf)))
    · have none := imageAccount_vacated hv
      refine written (.inr ⟨n, a, .inr hv, hao⟩) (replaceSlot_unnamed (unnamed none hf) none) (replaceBytes_vacated hl hv) ?_ ?_ (by rw [none]; rfl)
      · simp [imageState, hv]
      · simp [imageState, hv]
    · intro held passing
      have named := imageAccount_inUse hv
      have fits : imageView image = .empty ∨
          ∃ n a, (imageView image = .inUse n a ∨ imageView image = .vacated n a) ∧ (a.allotment = 0 ∨ a.overdraft = 0) :=
        .inr ⟨n, a, .inl hv, hao⟩
      have allowed : ¬forbidden → ¬held → ¬replaceForbidden s.requested slot image = true := fun hf hh h =>
        (replaceForbidden_iff.1 h).elim hf fun ⟨k, h1, e, x, hx, hk⟩ => by
          rw [named] at h1
          cases h1
          exact hh ⟨e, x, hx, hk⟩
      obtain ⟨-, fields⟩ := imageView_inUse_iff.1 hv
      obtain ⟨hn1, hn2, inRange⟩ := imageFields_inRange hl fields
      have duplicate : (s.requested.lookupPassing (fun i _ => decide (i = slot)) n).EndsAs (passing.lookup n) :=
        duplicateCheck (s := s) hwf ⟨hn1, hn2⟩ inRange
      refine ⟨fun hf => ?_, fun hf hh ⟨k, b, hk⟩ => ?_, fun hf hh hk => ?_, fun hf hh ⟨place, hk⟩ => ?_⟩
      · refine run fits (refused (replaceForbidden_iff.2 (hf.imp_right fun ⟨e, x, hx, hn⟩ => ⟨n, named, e, x, hx, hn⟩)))
      · rcases duplicate with same | ⟨_, p, hp⟩
        · exact run fits ((replaceSlot_found (allowed hf hh) named (same.trans hk)).trans
            (respond_requested_code s false [] (c := .present) nofun))
        · rw [hk] at hp; cases hp
      · rcases duplicate with same | ⟨_, p, hp⟩
        · exact run fits ((replaceSlot_damaged (allowed hf hh) named (same.trans hk)).trans (lookupFault_requested s n false))
        · rw [hk] at hp; cases hp
      · have missing : ∃ p, s.requested.lookupPassing (fun i _ => decide (i = slot)) n = .notFound p := by
          rcases duplicate with same | ⟨h, _⟩
          · exact ⟨place, same.trans hk⟩
          · exact h
        obtain ⟨p, hp⟩ := missing
        refine written fits (replaceSlot_notFound (allowed hf hh) named hp) (replaceBytes_inUse hl hv) ?_ ?_ (by rw [named]; rfl)
        · simp [imageState, hv]
        · simp [imageState, hv]
  · intro first count ha hf hno k flag clamped
    refine (execAll_completed (r := .readSlots first count) hs ⟨rfl, rfl, acceptance_readSlots ha count hf, nofun, nofun⟩ rfl [.good]).trans ?_
    refine congrArg Host.Outcome.next ((respond_requested_ok s s.store (decide (8 < count)) _).trans ?_)
    have records : (fun i => slotRecord s.requested (first + i)) =
        fun j => beBytes 2 (first + j) ++ [flag (first + j)] ++ slotBytes s.store (first + j) :=
      funext fun j => slotRecord_closed (s := s.requested) hno (first + j)
    rw [records]
    rfl
  · intro ha
    obtain ⟨list, entry, oat, rest⟩ := flushEntries_spec s.requested
    have accepted : acceptanceCode s .flush = none := accountAcceptance_passed (r := .flush) ha (accountCheck_of_none rfl) rfl rfl
    have run := execAll_atOnce (i := .flush) (r := .flush) hs ⟨rfl, rfl, accepted, nofun, nofun⟩ rfl []
    have same : (flush s.requested).oat = (flushEntries s.requested).oat := by
      unfold flush
      rw [respond_ok]
    refine ⟨allEntries.filter s.requested.flushes, flush s.requested, run, ?_, by rw [same, list]; rfl, ?_, fun e => ?_, fun e => ?_⟩
    · have count : beBytes 1 ((flushEntries s.requested).oat.writeBackList.length - s.requested.oat.writeBackList.length) =
          [BitVec.ofNat 8 (allEntries.filter s.requested.flushes).length] := by
        rw [list, List.length_append, Nat.add_sub_cancel_left]
        simp [beBytes]
      unfold flush
      dsimp only
      rw [count, rest, respond_ok]
      rfl
    · exact (List.pairwise_lt_finRange 112).filter _
    · rw [List.mem_filter, flushes_iff]
      exact and_iff_right (List.mem_finRange e)
    · rw [entry_of_oat same, entry]
      have member : e ∈ allEntries.filter s.requested.flushes ↔ s.requested.flushes e = true := by
        rw [List.mem_filter]
        exact and_iff_right (List.mem_finRange e)
      simp only [member]
      cases s.requested.flushes e with
      | false => simp [State.requested, State.entry]
      | true =>
        simp only [true_and, if_true, ← unstuck_eq]
        rfl
  · intro size clear hc hopen
    refine ⟨_, (execAll_begun (r := .attach size clear) hs rfl rfl (if_pos hc) []).trans rfl, ?_⟩
    exact (startAttach_open (s := s.requested) hopen).trans (respond_requested_code s _ [] (c := .wrongState) nofun)
  · intro size hno capacity clamped attached count inUse vacated damaged
    have cleared : finishAttach (beginAttach s.requested size) [] size 1 = (s.attachedAs (clearBelow s.store capacity) capacity 0 0).responded
        (okCode clamped) clamped (beBytes 2 capacity ++ [0, 0, 0, 0, 0, 0]) := by
      refine (finishAttach_requested size [] 1 (if_pos rfl)).trans ?_
      rw [clearStore_nil, countSlots_clearBelow hwf rfl, countSlots_clearBelow hwf rfl, countSlots_clearBelow hwf rfl]
      have result : beBytes 2 (capacityOf size) ++ beBytes 2 0 ++ beBytes 2 0 ++ beBytes 2 0 =
          beBytes 2 (capacityOf size) ++ [0, 0, 0, 0, 0, 0] := by simp [beBytes]
      rw [result]
      rfl
    refine ⟨?_, _, (execAll_attach hs hno size (Nat.le_refl 1) []).trans (congrArg Host.Outcome.next cleared), rfl,
      storeRead_clearBelow ((storeWf_iff _).1 hwf) capacity⟩
    refine (execAll_attach hs hno size (Nat.zero_le 1) _).trans (congrArg Host.Outcome.next ?_)
    exact finishAttach_requested size _ 0 rfl

end Sys2Proof.Machine
end


/-! # What a power-on reset leaves of the operation it cuts short -/

section
namespace Sys2Proof.Machine

/-- Every byte of a slot is an old one or one of those of some images, and every byte outside is as it was (R12). -/
def SlotMixes (m m' : List Host.Cell) (slot : Nat) (images : List (List Byte)) : Prop := ∀ address : Nat,
  if slot * 40 ≤ address ∧ address < slot * 40 + 40 then
    storeRead m' address ∈ storeRead m address :: images.map (fun b => b.getD (address - slot * 40) 0)
  else storeRead m' address = storeRead m address

/-- The outcome of a write of an abandoned operation: made whole, cut short or not begun (R12; log entry 9). -/
def Abandoned (o : WriteOutcome) : Prop := o = .good ∨ ∃ marks, o = .mixed marks

section
variable {m m' m'' : List Host.Cell} {slot : Nat} {images images' : List (List Byte)}

theorem SlotMixes.same (m : List Host.Cell) (slot : Nat) (images : List (List Byte)) : SlotMixes m m slot images := fun address => by
  split
  · exact List.mem_cons_self
  · rfl

theorem SlotMixes.more (h : SlotMixes m m' slot images) (hi : ∀ b ∈ images, b ∈ images') : SlotMixes m m' slot images' := fun address => by
  have mixed := h address
  split
  · rename_i ha
    rw [if_pos ha, List.mem_cons, List.mem_map] at mixed
    rw [List.mem_cons, List.mem_map]
    exact mixed.imp_right fun ⟨b, hb, hv⟩ => ⟨b, hi b hb, hv⟩
  · rename_i ha
    rwa [if_neg ha] at mixed

/-- Two writes of one slot leave a mixture of what was there and of both images. -/
theorem SlotMixes.trans (h : SlotMixes m m' slot images) (k : SlotMixes m' m'' slot images') :
    SlotMixes m m'' slot (images ++ images') := fun address => by
  have first := h address
  have second := k address
  split
  · rename_i ha
    rw [if_pos ha] at first second
    rw [List.map_append]
    rcases List.mem_cons.1 second with old | new
    · rw [old]
      rcases List.mem_cons.1 first with old | new
      · exact List.mem_cons.2 (.inl old)
      · exact List.mem_cons_of_mem _ (List.mem_append_left _ new)
    · exact List.mem_cons_of_mem _ (List.mem_append_right _ new)
  · rename_i ha
    rw [if_neg ha] at first second
    exact second.trans first

end

theorem slotBytes_getD {m : List Host.Cell} {slot i : Nat} (h : i < 40) : (slotBytes m slot).getD i 0 = storeRead m (slot * 40 + i) := by
  rw [List.getD_eq_getElem _ _ (by simpa [slotBytes] using h)]
  simp [slotBytes]

/-- A byte of a slot after an abandoned write: the new one or the old one. -/
theorem bytesAfterWrite_abandoned {o : WriteOutcome} (ho : Abandoned o) (old new : List Byte) {i : Nat} (hi : i < 40) :
    (bytesAfterWrite o old new).getD i 0 = old.getD i 0 ∨ (bytesAfterWrite o old new).getD i 0 = new.getD i 0 := by
  rcases ho with rfl | ⟨marks, rfl⟩
  · exact .inr rfl
  · rw [bytesAfterWrite, List.getD_eq_getElem _ _ (by simpa using hi), List.getElem_map, List.getElem_range]
    split
    · exact .inr rfl
    · exact .inl rfl

/-- An abandoned write leaves a mixture in its slot (R12). -/
theorem mixes_slotWrite {m : List Host.Cell} (h : storeWf m = true) {o : WriteOutcome} (ho : Abandoned o) (slot : Nat) (bytes : List Byte) :
    SlotMixes m (slotWrite m o slot bytes) slot [bytes] := fun address => by
  rw [slotWrite, storeRead_storeSlot h]
  split
  · rename_i ha
    have hi : address - slot * 40 < 40 := by omega
    rcases bytesAfterWrite_abandoned ho (slotBytes m slot) bytes hi with old | new
    · rw [old, slotBytes_getD hi, show slot * 40 + (address - slot * 40) = address by omega]
      exact List.mem_cons_self
    · rw [new]
      exact List.mem_cons_of_mem _ (List.mem_cons_self)
  · rfl

/-! ## The outcomes of the writes -/

theorem abandonedWrites_abandoned (done : Nat) (torn : List Bool) : ∀ o ∈ abandonedWrites done torn, Abandoned o := by
  intro o ho
  simp only [abandonedWrites, List.mem_append, List.mem_cons, List.mem_replicate] at ho
  rcases ho with ⟨_, rfl⟩ | rfl | ⟨_, rfl⟩
  · exact .inl rfl
  · exact .inr ⟨torn, rfl⟩
  · exact .inr ⟨[], rfl⟩

theorem firstOutcome_abandoned {writes : List WriteOutcome} (h : ∀ o ∈ writes, Abandoned o) : Abandoned (firstOutcome writes) := by
  cases writes with
  | nil => exact .inl rfl
  | cons o _ => exact h o List.mem_cons_self

theorem secondOutcome_abandoned {writes : List WriteOutcome} (h : ∀ o ∈ writes, Abandoned o) : Abandoned (secondOutcome writes) := by
  rcases writes with _ | ⟨_, _ | ⟨o, _⟩⟩
  · exact .inl rfl
  · exact .inl rfl
  · exact h o (List.mem_cons_of_mem _ List.mem_cons_self)

/-! ## The store operations -/

section
variable {s : State} {o : WriteOutcome}

theorem storeFault_store (s : State) (n : Option Nat) : (storeFault s n).store = s.store := by cases n <;> rfl

theorem lookupFault_store (s : State) (n : Nat) (clamped : Bool) : (lookupFault s n clamped).store = s.store := storeFault_store s (some n)

theorem writeSlot_store (s : State) (o : WriteOutcome) (slot : Nat) (bytes : List Byte) :
    (s.writeSlot o slot bytes).store = slotWrite s.store o slot bytes := by simp only [State.writeSlot]

/-- An operation that writes one slot once, or nothing. -/
def WritesSlot (m m' : List Host.Cell) (o : WriteOutcome) (slot : Nat) (bytes : List Byte) : Prop :=
  m' = m ∨ m' = slotWrite m o slot bytes

theorem WritesSlot.mixes {m m' : List Host.Cell} {slot : Nat} {bytes : List Byte} (h : WritesSlot m m' o slot bytes)
    (hwf : storeWf m = true) (ho : Abandoned o) : SlotMixes m m' slot [bytes] := by
  rcases h with h | h <;> rw [h]
  · exact .same m slot _
  · exact mixes_slotWrite hwf ho slot bytes

theorem editSlot_store (n slot : Nat) (d : Edit) :
    WritesSlot s.store (editSlot s o n slot d).store o slot (encodeSlot .inUse n d.acct) := by
  unfold editSlot
  split
  · right
    dsimp only
    split
    · rw [respond_store, writeSlot_store]
    · rw [respond_store, storeFault_store, writeSlot_store]
  · exact .inl rfl

section
variable {n slot : Nat} {a : Account} (hopen : s.openAccount n = none) (hl : s.lookup n = .found slot a)
include hopen hl

theorem editAccount_store (clamped : Bool) (f : Account → Edit) :
    WritesSlot s.store (editAccount s o n clamped f).store o slot (encodeSlot .inUse n (f a).acct) := by
  rw [editAccount_found hopen hl]
  exact editSlot_store n slot (f a)

theorem readAndClear_store : WritesSlot s.store (readAndClear s o n).store o slot (encodeSlot .inUse n (clearTotals a)) := by
  right
  simp only [readAndClear, hopen, hl]
  split
  · rw [respond_store, writeSlot_store]
  · rw [respond_store, storeFault_store, writeSlot_store]

theorem retire_store : WritesSlot s.store (retire s o n).store o slot (encodeSlot .vacated n a) := by
  right
  simp only [retire, hopen, hl]
  split
  · rw [respond_store, onCtl_store, writeSlot_store]
  · rw [respond_store, storeFault_store, writeSlot_store]

end

theorem placeAccount_store (p : NewAccount) (slot : Nat) :
    WritesSlot s.store (placeAccount s o p slot).store o slot (encodeSlot .inUse p.account (newAccount p)) := by
  right
  unfold placeAccount
  dsimp only
  split
  · rw [respond_store, onCtl_store]
    split
    · rw [onCtl_store, writeSlot_store]
    · rw [writeSlot_store]
  · rw [respond_store, storeFault_store, writeSlot_store]

theorem addAccount_store {p : NewAccount} {slot : Nat} (hl : s.lookupForAdd p.account = .notFound (some slot)) :
    WritesSlot s.store (addAccount s o p).store o slot (encodeSlot .inUse p.account (newAccount p)) := by
  unfold addAccount
  dsimp only
  split
  · exact .inl rfl
  · split
    · exact .inl rfl
    · rw [hl]
      exact placeAccount_store p slot

theorem writeReplacement_store (slot : Nat) (image : List Byte) :
    WritesSlot s.store (writeReplacement s o slot image).store o slot (replaceBytes image) := by
  right
  unfold writeReplacement
  dsimp only
  split
  · rw [respond_store, onCtl_store, writeSlot_store]
  · rw [respond_store, storeFault_store, writeSlot_store]

theorem replaceSlot_store (slot : Nat) (image : List Byte) :
    WritesSlot s.store (replaceSlot s o slot image).store o slot (replaceBytes image) := by
  unfold replaceSlot
  split
  · exact .inl rfl
  · split
    · exact writeReplacement_store slot image
    · split
      · exact .inl rfl
      · exact .inl rfl
      · exact writeReplacement_store slot image

/-! ## Sign-on operations -/

theorem takeResult_store (s : State) (op : SignOnOp) (r : SignOnResult) : (takeResult s op r).store = s.store :=
  (works_takeResult (wr := False) (W := False) s op r).store_eq

theorem admitClosed_store (l : LineNo) (n slot : Nat) (a : Account) :
    WritesSlot s.store (admitClosed s o l n slot a).1.store o slot (encodeSlot .inUse n (admittedAccount s l a)) := by
  unfold admitClosed
  split
  · exact .inl rfl
  · exact .inl rfl
  · right
    dsimp only
    split
    · rw [createEntry, setEntry_store, writeSlot_store]
    · rw [storeFault_store, writeSlot_store]

theorem writeMismatch_store (n slot : Nat) (a : Account) : WritesSlot s.store (writeMismatch s o n slot a).store o slot
    (encodeSlot .inUse n (afterMismatch s.lc.params.lockoutThreshold a)) := by
  unfold writeMismatch
  dsimp only
  split
  · exact .inl rfl
  · right
    split
    · unfold raiseLocked
      split
      · rw [raiseAccount_store, writeSlot_store]
      · rw [writeSlot_store]
    · rw [storeFault_store, writeSlot_store]

/-- A sign-on operation on an account found in the store leaves a mixture with one of two images (R88, R91). -/
theorem signOnClosed_mixes (hwf : storeWf s.store = true) (ho : Abandoned o) {op : SignOnOp} {slot : Nat} {a : Account}
    (hl : s.lookup op.account = .found slot a) : SlotMixes s.store (signOnClosed s o op).1.store slot
      [encodeSlot .inUse op.account (admittedAccount s op.line a),
        encodeSlot .inUse op.account (afterMismatch s.lc.params.lockoutThreshold a)] := by
  have admits : SlotMixes s.store (admitClosed s o op.line op.account slot a).1.store slot _ := (admitClosed_store _ _ _ _).mixes hwf ho
  have mismatch : SlotMixes s.store (writeMismatch s o op.account slot a).store slot _ := (writeMismatch_store _ _ _).mixes hwf ho
  cases hk : op.kind with
  | verify password marker =>
    simp only [signOnClosed, hl, hk]
    unfold verifyClosed
    split
    · exact .same _ _ _
    · exact mismatch.more (by simp)
    · split
      · exact .same _ _ _
      · exact admits.more (by simp)
  | admitOp =>
    simp only [signOnClosed, hl, hk]
    exact admits.more (by simp)

/-- One on an account that is not found writes nothing. -/
theorem signOnClosed_missed {op : SignOnOp} (hl : ∀ slot a, s.lookup op.account ≠ .found slot a) :
    (signOnClosed s o op).1.store = s.store := by
  unfold signOnClosed
  split
  · exact storeFault_store s _
  · rfl
  · rfl
  · exact absurd (by assumption) (hl _ _)
  · exact absurd (by assumption) (hl _ _)

/-! ## Write-backs -/

theorem writeBackFailed_store (s : State) (e : EntryNo) (n : Nat) : (writeBackFailed s e n).store = s.store := rfl

/-- A write-back leaves a mixture with its IN_USE and its VACATED image (R14, R37). -/
theorem finishWriteBack_mixes (hwf : storeWf s.store = true) {writes : List WriteOutcome} (hw : ∀ o ∈ writes, Abandoned o) (e : EntryNo)
    (n : Nat) (slot : SlotNo) (a : Account) : SlotMixes s.store (finishWriteBack s writes e n slot a).store slot.val
      [encodeSlot .inUse n a, encodeSlot .vacated n a] := by
  obtain ⟨m, hm, holds⟩ := writeSlot_holds hwf (firstOutcome writes) slot.val (encodeSlot .inUse n a)
  have first : SlotMixes s.store m slot.val [encodeSlot .inUse n a] := by
    have mixed := mixes_slotWrite hwf (firstOutcome_abandoned hw) slot.val (encodeSlot .inUse n a)
    rwa [← writeSlot_store, hm] at mixed
  have one : SlotMixes s.store m slot.val [encodeSlot .inUse n a, encodeSlot .vacated n a] := first.more (by simp)
  unfold finishWriteBack
  rw [hm]
  dsimp only
  split
  · unfold writeBackMatched
    split
    · exact one
    · split
      · exact one
      · split
        · rw [queueEntry_store]
          exact one
        · split
          · unfold vacateSlot
            have second : SlotMixes m (State.writeSlot { s with store := m } (secondOutcome writes) slot.val (encodeSlot .vacated n a)).store
                slot.val [encodeSlot .vacated n a] := by
              rw [writeSlot_store]
              exact mixes_slotWrite holds.wf (secondOutcome_abandoned hw) _ _
            generalize State.writeSlot { s with store := m } (secondOutcome writes) slot.val (encodeSlot .vacated n a) = u at second ⊢
            dsimp only
            split <;> exact first.trans second
          · exact one
  · exact one

/-! ## ATTACH_STORE with the clear option (R2) -/

/-- The bytes the clearing writes leave: in a slot one of the writes names, what its outcome leaves of the old bytes and zeros. -/
theorem storeRead_clearNamed {old : List Host.Cell} {capacity : Nat} (writes : List WriteOutcome) (slot : Nat) {m : List Host.Cell}
    (hwf : storeWf m = true) (address : Nat) : storeRead (clearNamed old capacity slot writes m) address =
      if address / 40 < capacity ∧ slot ≤ address / 40 ∧ address / 40 < slot + writes.length then
        (bytesAfterWrite (writes.getD (address / 40 - slot) .good) (slotBytes old (address / 40)) emptyImage).getD (address % 40) 0
      else storeRead m address := by
  induction writes generalizing slot m with
  | nil => rw [if_neg (by simp only [List.length_nil]; omega)]; rfl
  | cons o writes ih =>
    have step : storeWf (if slot < capacity then storeSlot m slot (bytesAfterWrite o (slotBytes old slot) emptyImage) else m) = true := by
      split
      · exact storeWf_storeSlot hwf _ _
      · exact hwf
    rw [clearNamed, ih (slot + 1) step]
    by_cases here : address / 40 = slot
    · rw [if_neg (by omega)]
      by_cases hc : slot < capacity
      · rw [if_pos hc, if_pos ⟨by omega, by omega, by simp only [List.length_cons]; omega⟩, storeRead_storeSlot hwf, if_pos (by omega), here,
          Nat.sub_self, show address - slot * 40 = address % 40 by omega]
        rfl
      · rw [if_neg hc, if_neg (by omega)]
    · have after : storeRead (if slot < capacity then storeSlot m slot (bytesAfterWrite o (slotBytes old slot) emptyImage) else m) address =
          storeRead m address := by
        split
        · rw [storeRead_storeSlot hwf, if_neg (by omega)]
        · rfl
      by_cases hs : address / 40 < capacity ∧ slot + 1 ≤ address / 40 ∧ address / 40 < slot + 1 + writes.length
      · rw [if_pos hs, if_pos ⟨hs.1, by omega, by simp only [List.length_cons]; omega⟩,
          show address / 40 - slot = (address / 40 - (slot + 1)) + 1 by omega]
        rfl
      · rw [if_neg hs, after, if_neg (by simp only [List.length_cons]; omega)]

theorem emptyImage_getD (i : Nat) : emptyImage.getD i 0 = 0 := by
  rcases Nat.lt_or_ge i 40 with h | h
  · rw [List.getD_eq_getElem _ _ (by simpa [emptyImage] using h)]
    simp only [emptyImage, List.getElem_replicate]
  · exact List.getD_eq_default _ _ (by simpa [emptyImage] using h)

/-- Outcomes whole up to one, and all alike after it. -/
theorem getD_cutShort {α : Type} (done k : Nat) (x y z d : α) (i : Nat) (h : i < done + (k + 1)) :
    (List.replicate done x ++ y :: List.replicate k z).getD i d = if i < done then x else if i = done then y else z := by
  rw [List.getD_eq_getElem _ _ (by simpa using h), List.getElem_append]
  simp only [List.length_replicate]
  split
  · simp
  · split
    · subst_vars; simp
    · rw [List.getElem_cons, dif_neg (by omega), List.getElem_replicate]

/-- A clear cut short: the slots below the one being written hold zeros, that one a mixture, and the rest is as it was (R2, R12). -/
theorem clearStore_abandoned {m : List Host.Cell} (hwf : storeWf m = true) {capacity : Nat} (hc : capacity ≤ 8192) (done : Nat)
    (torn : List Bool) (address : Nat) :
    (address / 40 < capacity → address / 40 < done → storeRead (clearStore m capacity (abandonedWrites done torn)) address = 0) ∧
    (address / 40 < capacity → address / 40 = done →
      storeRead (clearStore m capacity (abandonedWrites done torn)) address ∈ [storeRead m address, 0]) ∧
    (capacity ≤ address / 40 ∨ done < address / 40 →
      storeRead (clearStore m capacity (abandonedWrites done torn)) address = storeRead m address) := by
  have long : (abandonedWrites done torn).length = done + (8192 + 1) := by
    rw [abandonedWrites, List.length_append, List.length_cons, List.length_replicate, List.length_replicate]
  have small : address % 40 < 40 := Nat.mod_lt _ (by decide)
  have oldByte : (slotBytes m (address / 40)).getD (address % 40) 0 = storeRead m address := by
    rw [slotBytes_getD small, show address / 40 * 40 + address % 40 = address by omega]
  have inside : address / 40 < capacity → storeRead (clearStore m capacity (abandonedWrites done torn)) address =
      (bytesAfterWrite ((abandonedWrites done torn).getD (address / 40) .good) (slotBytes m (address / 40)) emptyImage).getD
        (address % 40) 0 := by
    intro h
    rw [clearStore, storeRead_clearNamed _ _ (storeWf_clearBelow hwf capacity), if_pos ⟨h, Nat.zero_le _, by rw [long]; omega⟩, Nat.sub_zero]
  refine ⟨fun h hd => ?_, fun h hd => ?_, fun h => ?_⟩
  · have good : (abandonedWrites done torn).getD (address / 40) .good = .good := by
      rw [abandonedWrites, getD_cutShort _ _ _ _ _ _ _ (by omega), if_pos hd]
    rw [inside h, good]
    exact emptyImage_getD _
  · have mixed : Abandoned ((abandonedWrites done torn).getD (address / 40) .good) := by
      rw [List.getD_eq_getElem _ _ (by rw [long]; omega)]
      exact abandonedWrites_abandoned done torn _ (List.getElem_mem _)
    rw [inside h]
    rcases bytesAfterWrite_abandoned mixed (slotBytes m (address / 40)) emptyImage small with hb | hb
    · rw [hb, oldByte]
      exact List.mem_cons_self
    · rw [hb, emptyImage_getD]
      exact List.mem_cons_of_mem _ List.mem_cons_self
  · by_cases hin : address / 40 < capacity
    · have hd : done < address / 40 := h.resolve_left (by omega)
      have none : (abandonedWrites done torn).getD (address / 40) .good = .mixed [] := by
        rw [abandonedWrites, getD_cutShort _ _ _ _ _ _ _ (by omega), if_neg (by omega), if_neg (by omega)]
      rw [inside hin, none, bytesAfterWrite, List.getD_eq_getElem _ _ (by simpa using small)]
      simpa using oldByte
    · rw [clearStore, storeRead_clearNamed _ _ (storeWf_clearBelow hwf capacity), if_neg (fun k => hin k.1),
        storeRead_clearBelow ((storeWf_iff m).1 hwf), if_neg (by omega)]

end

end Sys2Proof.Machine
end


/-! # Power-on reset leaves the store as far as the writes had gone -/

section
namespace Sys2Proof.Machine

/-! ## RESTART cut short (R47) -/

/-- One write-back of RESTART leaves a mixture in the slot of its entry, and goes on with the outcomes that are left. -/
theorem flushOne_mixes {f : Flush} (hwf : storeWf f.state.store = true) (hw : ∀ o ∈ f.writes, Abandoned o) {e : EntryNo} {x : OatEntry}
    (hx : f.state.entry e = some x) :
    SlotMixes f.state.store (flushOne f e).state.store x.slot.val [encodeSlot .inUse x.account x.acct, encodeSlot .vacated x.account x.acct] ∧
      storeWf (flushOne f e).state.store = true ∧ ∀ o ∈ (flushOne f e).writes, Abandoned o := by
  obtain ⟨m, hm, holds⟩ := writeSlot_holds hwf (firstOutcome f.writes) x.slot.val (encodeSlot .inUse x.account x.acct)
  have first : SlotMixes f.state.store m x.slot.val [encodeSlot .inUse x.account x.acct] := by
    have mixed := mixes_slotWrite hwf (firstOutcome_abandoned hw) x.slot.val (encodeSlot .inUse x.account x.acct)
    rwa [← writeSlot_store, hm] at mixed
  have one := first.more (images' := [encodeSlot .inUse x.account x.acct, encodeSlot .vacated x.account x.acct]) (by simp)
  have rest : ∀ o ∈ f.writes.tail, Abandoned o := fun o ho => hw o (List.mem_of_mem_tail ho)
  unfold flushOne
  rw [hx]
  dsimp only
  rw [hm]
  split
  · split
    · obtain ⟨m', hm', holds'⟩ := writeSlot_holds (s := { f.state with store := m }) holds.wf (firstOutcome f.writes.tail) x.slot.val
        (encodeSlot .vacated x.account x.acct)
      have second : SlotMixes m m' x.slot.val [encodeSlot .vacated x.account x.acct] := by
        have mixed := mixes_slotWrite holds.wf (firstOutcome_abandoned rest) x.slot.val (encodeSlot .vacated x.account x.acct)
        rwa [← writeSlot_store { f.state with store := m }, hm'] at mixed
      have both : SlotMixes f.state.store m' x.slot.val _ := first.trans second
      have left : ∀ o ∈ f.writes.tail.tail, Abandoned o := fun o ho => rest o (List.mem_of_mem_tail ho)
      unfold flushVacated
      rw [hm']
      dsimp only
      split
      · exact ⟨both, holds'.wf, left⟩
      · exact ⟨both, holds'.wf, left⟩
    · exact ⟨one, holds.wf, rest⟩
  · exact ⟨one, holds.wf, rest⟩

/-- The write-backs of RESTART change no byte but those of the slots of the entries it writes, and leave mixtures there. -/
theorem flushAll_bytes (es : List EntryNo) {f : Flush} (hwf : storeWf f.state.store = true) (hw : ∀ o ∈ f.writes, Abandoned o) (address : Nat) :
    storeRead (es.foldl flushOne f).state.store address = storeRead f.state.store address ∨
      ∃ e ∈ es, ∃ x, f.state.entry e = some x ∧ x.slot.val * 40 ≤ address ∧ address < x.slot.val * 40 + 40 ∧
        storeRead (es.foldl flushOne f).state.store address ∈
          [(encodeSlot .inUse x.account x.acct).getD (address - x.slot.val * 40) 0,
            (encodeSlot .vacated x.account x.acct).getD (address - x.slot.val * 40) 0] := by
  induction es generalizing f with
  | nil => exact .inl rfl
  | cons e es ih =>
    rw [List.foldl_cons]
    cases hx : f.state.entry e with
    | none =>
      rw [flushOne_free hx]
      exact (ih hwf hw).imp_right fun ⟨k, hk, h⟩ => ⟨k, List.mem_cons_of_mem e hk, h⟩
    | some x =>
      obtain ⟨mixes, wf, writes⟩ := flushOne_mixes hwf hw hx
      rcases ih wf writes with same | ⟨k, hk, y, hy, h⟩
      · rw [same]
        have byte := mixes address
        split at byte
        · rename_i ha
          rcases List.mem_cons.1 byte with old | new
          · exact .inl old
          · exact .inr ⟨e, List.mem_cons_self, x, hx, ha.1, ha.2, new⟩
        · exact .inl byte
      · exact .inr ⟨k, List.mem_cons_of_mem e hk, y, (flushed_flushOne f e).1.old hy, h⟩

/-! ## The operation in progress -/

theorem abandonedStore_of {s : State} {op : Operation} (h : s.ctl.inProgress = some op) (done : Nat) (torn : List Bool) :
    abandonedStore s done torn =
      (completeOperation { s with ctl := { s.ctl with inProgress := none } } op (abandonedWrites done torn)).store := by
  rw [abandonedStore, h]
  rfl

theorem finishAttach_store (s : State) (writes : List WriteOutcome) (code clear : Nat) :
    (finishAttach s writes code clear).store = if clear = 1 then clearStore s.store s.ctl.capacity writes else s.store := by
  rw [finishAttach, respond_store]

theorem flush_store (s : State) : (flush s).store = s.store := by
  have moved : (flushEntries s).store = s.store := store_lifts.moves (moves_flushEntries s)
  rw [flush, respond_store, moved]

/-- Settles O4: an operation cut short has written one slot, or the slots of RESTART's entries, or cleared slots from 0 upward; each
write it made whole, cut short or did not begin. -/
theorem powerOnResetKeepsStore : Obligations.PowerOnResetKeepsStore := by
  unfold Obligations.PowerOnResetKeepsStore
  intro done torn s hwf
  refine ⟨powerOnReset s done torn, rfl, rfl, fun hp => ?_, ?_⟩
  · show abandonedStore s done torn = s.store
    rw [abandonedStore, hp]
  intro mixes closed found carries
  set u : State := { s with ctl := { s.ctl with inProgress := none } }
  have wf : storeWf u.store = true := hwf
  have outcomes := abandonedWrites_abandoned done torn
  have first := firstOutcome_abandoned outcomes
  have store : ∀ {op}, s.ctl.inProgress = some op →
      (powerOnReset s done torn).store = (completeOperation u op (abandonedWrites done torn)).store := fun h =>
    abandonedStore_of h done torn
  have mixed : ∀ {slot images m'}, (powerOnReset s done torn).store = m' → SlotMixes u.store m' slot images → mixes slot images :=
    fun h k => by
      rw [← h] at k
      exact k
  have request : ∀ {r : StoreReq} {slot bytes}, carries r →
      WritesSlot u.store (performRequest u (abandonedWrites done torn) r).store (firstOutcome (abandonedWrites done torn)) slot bytes →
      mixes slot [bytes] := fun h k => mixed (store h) (k.mixes wf first)
  have unchanged : ∀ {r : StoreReq}, carries r → (performRequest u (abandonedWrites done torn) r).store = u.store →
      (powerOnReset s done torn).store = s.store := fun h k => (store h).trans k
  have signOn : ∀ {op : SignOnOp}, s.ctl.inProgress = some (.signOn op) →
      (powerOnReset s done torn).store = (performSignOn u (firstOutcome (abandonedWrites done torn)) op).1.store := fun h =>
    (store h).trans (takeResult_store _ _ _)
  refine ⟨fun e n slot a h => mixed (store h) (finishWriteBack_mixes wf outcomes e n slot a),
    fun op h => ⟨fun slot a ⟨hc, hl⟩ => ?_, fun hm => (signOn h).trans ?_⟩, fun n slot a ⟨hc, hl⟩ => ?_,
    fun p slot h hl => request h (addAccount_store hl), fun slot image h => request h (replaceSlot_store slot image), ?_,
    fun size h hc address => ?_, fun ended h address => ?_⟩
  · have opened : u.openAccount op.account = none := openAccount_none hc
    refine mixed (signOn h) ?_
    rw [performSignOn, opened]
    exact signOnClosed_mixes wf first hl
  · cases ho : u.openAccount op.account with
    | some ex =>
      rw [performSignOn, ho]
      dsimp only
      rw [signOnOpen_parts]
    | none =>
      rw [performSignOn, ho]
      refine signOnClosed_missed (hm.resolve_left fun k => k ?_)
      exact findOpen_none.1 (openAccount_eq_none.1 ho)
  · have opened : u.openAccount n = none := openAccount_none hc
    have found : u.lookup n = .found slot a := hl
    exact ⟨fun _ h => request h (editAccount_store opened found _ _), fun _ h => request h (editAccount_store opened found _ _),
      fun h => request h (editAccount_store opened found _ _), fun _ h => request h (editAccount_store opened found _ _),
      fun _ h => request h (editAccount_store opened found _ _), fun h => request h (readAndClear_store opened found),
      fun h => request h (retire_store opened found)⟩
  · rintro (⟨n, h | h⟩ | ⟨first, count, h⟩ | h | ⟨size, clear, h, hc⟩)
    · exact unchanged h (works_readAccount (wr := False) (W := False) u n).store_eq
    · exact unchanged h (works_discardOpen (wr := False) (W := False) u n).store_eq
    · exact unchanged h rfl
    · exact unchanged h (flush_store u)
    · refine unchanged h ?_
      exact (finishAttach_store _ _ _ _).trans (if_neg hc)
  · have cleared : (powerOnReset s done torn).store = clearStore s.store s.ctl.capacity (abandonedWrites done torn) :=
      (store h).trans ((finishAttach_store _ _ _ _).trans (if_pos rfl))
    rw [cleared]
    exact clearStore_abandoned hwf hc done torn address
  · rw [store h]
    exact flushAll_bytes u.oat.writeBackList (f := { state := u, writes := abandonedWrites done torn, written := 0, lost := 0 }) wf outcomes address

end Sys2Proof.Machine
end

/-! # A failed attempt

`attemptFailed` as R95 states it. What an end of a call does to the count of attempts of a line in SIGNON is the one fact that the
laws of the ends do not say already. -/
section
namespace Sys2Proof.Machine

/-! ## Records of lines, fused -/

theorem modLine_modLine (s : State) (l : LineNo) (f g : LineRec → LineRec) :
    (s.modLine l f).modLine l g = s.modLine l (fun r => g (f r)) := by
  simp only [State.modLine, State.onLines, LineCtl.modLine, LineCtl.setLine, LineCtl.line, Vector.get_eq_getElem,
    Vector.getElem_set_self, Vector.set_set]

/-! ## The count of attempts through the end of a call -/

/-- No line's count of attempts differs. -/
def AttemptsKept (s t : State) : Prop := ∀ k, (t.line k).attemptsUsed = (s.line k).attemptsUsed

theorem AttemptsKept.trans {a b c : State} (h : AttemptsKept a b) (k : AttemptsKept b c) : AttemptsKept a c :=
  fun l => (k l).trans (h l)

theorem attemptsKept_modLine {s : State} {l : LineNo} {f : LineRec → LineRec}
    (h : (f (s.line l)).attemptsUsed = (s.line l).attemptsUsed) : AttemptsKept s (s.modLine l f) := fun k => by
  by_cases hk : k = l
  · subst hk; simpa using h
  · simp [hk]

theorem attemptsKept_speaks {s : State} {l : LineNo} {f : LineCtl → LineCtl} (h : SpeaksOnly l s.lc (f s.lc)) :
    AttemptsKept s (s.onLines f) := fun k => by
  by_cases hk : k = l
  · subst hk
    obtain ⟨_, _, _, _, _, _, e⟩ := h.line
    rw [onLines_line, e]; rfl
  · rw [onLines_line, h.others k hk]; rfl

theorem attemptsKept_offerPort (s : State) (p : PortNo) (l : LineNo) (st : AdmittedStage) :
    AttemptsKept s (offerPort s p l st) :=
  attemptsKept_modLine (s := s.modPort p _) (l := l)
    (f := fun r => { r with phase := .admitted st, port := some p, stageTimer := none }) rfl

theorem attemptsKept_serveQueue (s : State) (p : PortNo) : AttemptsKept s (serveQueue s p) := by
  unfold serveQueue
  split
  · exact fun _ => rfl
  · split
    · split
      · exact fun _ => rfl
      · exact attemptsKept_offerPort _ p _ _
    · exact fun _ => rfl

theorem attemptsKept_releasePort (s : State) (p : PortNo) (l : LineNo) (out : Bool) :
    AttemptsKept s (releasePort s p l out) := by
  have cleared : AttemptsKept s ((hangUp s p).modLine l (fun r => { r with port := none })) :=
    attemptsKept_modLine (s := hangUp s p) rfl
  unfold releasePort portByReady
  dsimp only
  split
  · exact cleared
  · split
    · exact cleared.trans (attemptsKept_serveQueue (State.modPort _ p _) p)
    · exact cleared

/-- Settlement of a call that was never ADMITTED gives up its port and no queue place: with no port it has nothing to do. -/
theorem settleWork_portless (act : State → EntryNo → CreditState → State) {s : State} {l : LineNo}
    (hp : (s.line l).phase.isAdmitted = false) (hn : (s.line l).port = none) (out : Bool) (ended : Option View) :
    settleWork act s l out ended = s.modLine l (fun r => { r with phase := .closing }) := by
  unfold settleWork settleClaims
  cases phase : (s.line l).phase <;> simp_all [Phase.isAdmitted]

theorem settleWork_ported (act : State → EntryNo → CreditState → State) {s : State} {l : LineNo} {p : PortNo}
    (hp : (s.line l).phase.isAdmitted = false) (hn : (s.line l).port = some p) (out : Bool) (ended : Option View) :
    settleWork act s l out ended = releasePort (s.modLine l (fun r => { r with phase := .closing })) p l out := by
  unfold settleWork settleClaims
  cases phase : (s.line l).phase <;> simp_all [Phase.isAdmitted]

theorem attemptsKept_endCall (co : EndedSecond) {s : State} {l : LineNo} {st : SignOnStage}
    (hp : (s.line l).phase = .signon st) (cause : EndCause) (out : Bool) :
    ((endCall co s l cause out).line l).attemptsUsed = (s.line l).attemptsUsed := by
  have work : ∀ ended, AttemptsKept s (settleWork (meterAction co) s l out ended) := fun ended => by
    have closing : AttemptsKept s (s.modLine l (fun r => { r with phase := .closing })) := attemptsKept_modLine rfl
    have never : (s.line l).phase.isAdmitted = false := by rw [hp]; rfl
    cases port : (s.line l).port with
    | none => rw [settleWork_portless _ never port]; exact closing
    | some p => rw [settleWork_ported _ never port]; exact closing.trans (attemptsKept_releasePort _ p l out)
  have settled : ∀ ended, ((settle (meterAction co) s l cause out ended).line l).attemptsUsed = (s.line l).attemptsUsed :=
    fun ended => by rw [settle_line]; exact work ended l
  have closed : ∀ (t : State) (k : Nat), AttemptsKept t (enterClosing t l k) := fun t k => by
    have timed : AttemptsKept t (t.modLine l (fun r => { r with stageTimer := some Config.closingLimit })) :=
      attemptsKept_modLine rfl
    unfold enterClosing
    dsimp only
    split
    · exact timed.trans (attemptsKept_speaks (speaksOnly_requestGoodbye l _ k))
    · exact timed.trans (attemptsKept_speaks (speaksOnly_release l _))
  have inCall : (s.line l).phase.inCall = true := by rw [hp]; rfl
  rw [endCall, endCallWith, if_pos inCall]
  exact (closed _ _ l).trans (settled _)

/-! ## The failed attempt -/

/-- A failed attempt of a line in SIGNON is what R95 says. -/
theorem attemptFailed_spec (co : EndedSecond) {s : State} {l : LineNo} {st : SignOnStage} (reason : Nat)
    (hp : (s.line l).phase = .signon st) : AttemptFailed reason s (attemptFailed co s l reason) l := by
  unfold AttemptFailed attemptFailed
  dsimp only
  constructor
  · intro more
    rw [if_pos more]
    rfl
  · intro spent
    rw [if_neg (by omega)]
    have counted : EndKeeps s (s.modLine l (fun r => { r with attemptsUsed := r.attemptsUsed + 1 })) :=
      endKeeps_modLine ⟨rfl, rfl, rfl, rfl⟩
    have told := counted.trans (endKeeps_requestMessage _ l 3 reason)
    obtain ⟨current, pending, busy, line⟩ :=
      request_line l (s.modLine l (fun r => { r with attemptsUsed := r.attemptsUsed + 1 })).lc 3 reason
    have record : (requestMessage (s.modLine l (fun r => { r with attemptsUsed := r.attemptsUsed + 1 })) l 3 reason).line l =
        { s.line l with
          attemptsUsed := (s.line l).attemptsUsed + 1, current := current, pending := pending, txBusy := busy } := by
      refine line.trans ?_
      have e := modLine_line s l l (fun r => { r with attemptsUsed := r.attemptsUsed + 1 })
      rw [if_pos rfl] at e
      exact congrArg (fun r : LineRec => { r with current := current, pending := pending, txBusy := busy }) e
    have phase : ((requestMessage (s.modLine l (fun r => { r with attemptsUsed := r.attemptsUsed + 1 })) l 3 reason).line
        l).phase = .signon st := by rw [record]; exact hp
    obtain ⟨ended, keeps⟩ := endCall_spec co _ l .signonFailed false (by rw [phase]; rfl)
    exact ⟨ended, (told.trans keeps).keptAtEnd, (told.trans keeps).sup,
      (attemptsKept_endCall co phase .signonFailed false).trans (by rw [record])⟩

end Sys2Proof.Machine
end

/-! # The entry stages of a sign-on (O31)

Characters and breaks in ACCOUNT_ENTRY and PASSWORD_ENTRY, and the password fold. -/
section
namespace Sys2Proof.Machine

/-! ## Events of a line in SIGNON -/

theorem lineNo?_val (l : LineNo) : lineNo? l.val = some l := by simp [lineNo?]

theorem exec_lineRxChar_signon {s : State} {l : LineNo} {st : SignOnStage} (h : (s.line l).phase = .signon st) (c : Byte) :
    exec (.lineRxChar l.val c) s = .next (signOnChar s l st c) := by
  show Host.Outcome.next (lineEvent l.val s _) = _
  simp only [lineEvent, lineNo?_val, lineRxChar, h]

theorem exec_rxBreak_signon {s : State} {l : LineNo} {st : SignOnStage} (h : (s.line l).phase = .signon st) :
    exec (.rxBreak l.val) s = .next (signOnBreak s l st) := by
  show Host.Outcome.next (lineEvent l.val s _) = _
  simp only [lineEvent, lineNo?_val, rxBreak, h]

/-- The echo of a character, after a change of the line's record that leaves its transmitter flag. -/
theorem echo_modLine (s : State) (l : LineNo) (f : LineRec → LineRec) (hf : (f (s.line l)).txBusy = (s.line l).txBusy)
    (c : Byte) :
    (s.modLine l f).onLines (fun x => x.echo l c) =
      if (s.line l).txBusy then (s.modLine l f).modLine l (fun r => { r with echoSuppressed := true })
      else (s.modLine l f).sent l c := by
  have busy : ((s.modLine l f).lc.line l).txBusy = (s.line l).txBusy := by
    show ((s.modLine l f).line l).txBusy = _
    rw [modLine_line, if_pos rfl, hf]
  cases free : (s.line l).txBusy <;> rw [free] at busy <;>
    simp only [State.onLines, LineCtl.echo, busy] <;> rfl

/-! ## ACCOUNT_ENTRY -/

theorem accountChar_digit {s : State} {l : LineNo} {c : Byte} (h1 : 48 ≤ low7 c) (h2 : low7 c ≤ 57) :
    accountChar s l c = if (s.line l).entryBuffer.length < 7 then
      (s.modLine l (fun r => { r with entryBuffer := (s.line l).entryBuffer ++ [BitVec.ofNat 8 (low7 c)] })).onLines
        (fun x => x.echo l c) else s := by
  have h13 : ¬ low7 c = 13 := by omega
  simp only [accountChar, h13, h1, h2, if_false, and_self, if_true]

theorem accountChar_backspace {s : State} {l : LineNo} {c : Byte} (h : low7 c = 8 ∨ low7 c = 127) :
    accountChar s l c = if (s.line l).entryBuffer = [] then s else
      (s.modLine l (fun r => { r with entryBuffer := (s.line l).entryBuffer.dropLast })).onLines (fun x => x.echo l c) := by
  have h13 : ¬ low7 c = 13 := by omega
  have digit : ¬ (48 ≤ low7 c ∧ low7 c ≤ 57) := by omega
  have back : isBackspace c = true := by simpa [isBackspace] using h
  simp only [accountChar, h13, digit, back, if_false, if_true]

theorem accountChar_other {s : State} {l : LineNo} {c : Byte} (h8 : low7 c ≠ 8) (h13 : low7 c ≠ 13) (h127 : low7 c ≠ 127)
    (h : low7 c < 48 ∨ 57 < low7 c) : accountChar s l c = s := by
  have digit : ¬ (48 ≤ low7 c ∧ low7 c ≤ 57) := by omega
  simp [accountChar, isBackspace, h8, h13, h127, digit]

theorem accountChar_return {s : State} {l : LineNo} {c : Byte} (h : low7 c = 13) :
    accountChar s l c = endAccountEntry s l := by simp only [accountChar, h, if_true]

/-! ## PASSWORD_ENTRY -/

theorem passwordEntryChar_graphic {s : State} {l : LineNo} {c : Byte} (h1 : 33 ≤ low7 c) (h2 : low7 c ≤ 126) :
    passwordEntryChar s l c = if (s.line l).entryBuffer.length < 8 then
      s.modLine l (fun r => { r with entryBuffer := (s.line l).entryBuffer ++ [BitVec.ofNat 8 (low7 c)] }) else s := by
  have h13 : ¬ low7 c = 13 := by omega
  simp only [passwordEntryChar, h13, h1, h2, if_false, and_self, if_true]

theorem passwordEntryChar_backspace {s : State} {l : LineNo} {c : Byte} (h : low7 c = 8 ∨ low7 c = 127) :
    passwordEntryChar s l c = s.modLine l (fun r => { r with entryBuffer := (s.line l).entryBuffer.dropLast }) := by
  have h13 : ¬ low7 c = 13 := by omega
  have graphic : ¬ (33 ≤ low7 c ∧ low7 c ≤ 126) := by omega
  have back : isBackspace c = true := by simpa [isBackspace] using h
  simp only [passwordEntryChar, h13, graphic, back, if_false, if_true]

theorem passwordEntryChar_other {s : State} {l : LineNo} {c : Byte} (h : low7 c < 33) (h8 : low7 c ≠ 8) (h13 : low7 c ≠ 13) :
    passwordEntryChar s l c = s := by
  have h127 : low7 c ≠ 127 := by omega
  have graphic : ¬ (33 ≤ low7 c ∧ low7 c ≤ 126) := by omega
  simp [passwordEntryChar, isBackspace, h8, h13, h127, graphic]

theorem passwordEntryChar_return {s : State} {l : LineNo} {c : Byte} (h : low7 c = 13) :
    passwordEntryChar s l c = endPasswordEntry s l := by simp only [passwordEntryChar, h, if_true]

theorem endPasswordEntry_short {s : State} {l : LineNo} (h : (s.line l).entryBuffer.length < 4) :
    endPasswordEntry s l = attemptFailed noSecond (s.modLine l (fun r => { r with entryBuffer := [] })) l 1 := by
  simp only [endPasswordEntry, h, if_true]

/-! ## The hand-over -/

theorem holdsSignOn_iff (watches : Vector Watch 4) (n : Nat) :
    holdsSignOn watches n = true ↔ ∃ w : WatchNo, (watches.get w).inUse = true ∧ (watches.get w).low ≤ n ∧
      n ≤ (watches.get w).high ∧ (watches.get w).kinds.getLsbD 0 = true ∧ (watches.get w).action = .hold := by
  have named : ∀ x, x ∈ watches.toList ↔ ∃ w : WatchNo, watches.get w = x := fun x => by
    rw [Vector.mem_toList_iff, Vector.mem_iff_getElem]
    exact ⟨fun ⟨i, hi, e⟩ => ⟨⟨i, hi⟩, e⟩, fun ⟨w, e⟩ => ⟨w.val, w.isLt, e⟩⟩
  simp only [holdsSignOn, List.any_eq_true, named, Watch.matchesEvent, Watch.covers, WatchKind.bit, Bool.and_eq_true,
    decide_eq_true_eq]
  constructor
  · rintro ⟨_, ⟨w, rfl⟩, ⟨⟨⟨⟨inUse, low⟩, high⟩, kind⟩, hold⟩⟩
    exact ⟨w, inUse, low, high, kind, hold⟩
  · rintro ⟨w, inUse, low, high, kind, hold⟩
    exact ⟨_, ⟨w, rfl⟩, ⟨⟨⟨⟨inUse, low⟩, high⟩, kind⟩, hold⟩⟩

/-- A carriage return on 4 to 8 characters hands a VERIFY over; the record of the line at the hand-over. -/
theorem endPasswordEntry_long {s : State} {l : LineNo} {n : Nat} (h : 4 ≤ (s.line l).entryBuffer.length)
    (hn : (s.line l).account = some n) :
    endPasswordEntry s l =
      let asked := s.modLine l (fun r => { r with entryBuffer := [], phase := .signon .checking, attempt := r.attempt + 1 })
      if s.ctl.attachment = .attached then
        { asked with ctl := { s.ctl with signOnQueue := s.ctl.signOnQueue ++
          [{ line := l, attempt := (s.line l).attempt + 1,
             kind := .verify (passwordFold (s.line l).entryBuffer) (holdsSignOn s.watches n && !(s.line l).verdictGiven),
             account := n }] } }
      else attemptFailed noSecond asked l 5 := by
  have short : ¬ (s.line l).entryBuffer.length < 4 := by omega
  have attempt : ((s.modLine l (fun r => { r with entryBuffer := [] })).line l).attempt = (s.line l).attempt := by simp
  simp only [endPasswordEntry, short, if_false, hn, Option.getD_some, handOver, modLine_modLine, modLine_ctl, attempt]

/-! ## The password fold -/

theorem passwordFold_append (chars : List Byte) (c : Byte) :
    passwordFold (chars ++ [c]) =
      if (passwordFold chars * 131 + c.toNat) % 16777216 = 0 then 1 else (passwordFold chars * 131 + c.toNat) % 16777216 := by
  rw [passwordFold, List.foldl_append]
  rfl

/-- A fold is a number of 24 bits that is not 0. -/
theorem passwordFold_bounds (chars : List Byte) : 1 ≤ passwordFold chars ∧ passwordFold chars ≤ 16777215 := by
  induction chars using List.reverseRecOn with
  | nil => decide
  | append_singleton chars c _ =>
    rw [passwordFold_append]
    split <;> omega

theorem passwordFold_laws : passwordFold [] = 7919 ∧
    (∀ (chars : List Byte) (c : Byte), passwordFold (chars ++ [c]) =
      if (passwordFold chars * 131 + c.toNat) % 16777216 = 0 then 1
      else (passwordFold chars * 131 + c.toNat) % 16777216) ∧
    (∀ chars, 1 ≤ passwordFold chars ∧ passwordFold chars ≤ 16777215) ∧ passwordFold [97, 98, 49, 50] = 12836369 :=
  ⟨rfl, passwordFold_append, passwordFold_bounds, by decide⟩

/-- Settles O31, stage by stage. -/
theorem signOnEntries : Obligations.SignOnEntries := by
  unfold Obligations.SignOnEntries
  refine ⟨fun l c s stage => ?_, passwordFold_laws, fun l c s stage => ?_⟩
  · intro k buffer edited value
    rw [exec_lineRxChar_signon stage, exec_rxBreak_signon stage]
    have edits : ∀ b, (s.modLine l (fun r => { r with entryBuffer := b })).onLines (fun x => x.echo l c) = edited b :=
      fun b => echo_modLine s l _ rfl c
    refine ⟨fun h1 h2 free => ?_, fun h1 h2 full => ?_, fun back some => ?_, fun back none => ?_, fun h8 h13 h127 other => ?_,
      fun h13 none => ?_, fun h13 some zero => ?_, fun h13 some => ?_, rfl⟩
    · exact congrArg _ ((accountChar_digit h1 h2).trans ((if_pos free).trans (edits _)))
    · exact congrArg _ ((accountChar_digit h1 h2).trans (if_neg (Nat.not_lt.2 full)))
    · exact congrArg _ ((accountChar_backspace back).trans ((if_neg some).trans (edits _)))
    · exact congrArg _ ((accountChar_backspace back).trans (if_pos none))
    · exact congrArg _ (accountChar_other h8 h13 h127 other)
    · exact congrArg _ ((accountChar_return h13).trans (if_pos none))
    · exact ⟨_, congrArg _ ((accountChar_return h13).trans ((if_neg some).trans (if_pos zero))), attemptFailed_spec _ 1 stage⟩
    · have some' : buffer ≠ [] := fun e => some (by simp only [value, e, List.foldl_nil])
      exact congrArg _ ((accountChar_return h13).trans ((if_neg some').trans (if_neg some)))
  · intro k buffer edited
    rw [exec_lineRxChar_signon stage, exec_rxBreak_signon stage]
    refine ⟨fun h1 h2 free => ?_, fun h1 h2 full => ?_, fun back => ?_, fun low h8 h13 => ?_, fun h13 short => ?_, ?_, rfl⟩
    · exact congrArg _ ((passwordEntryChar_graphic h1 h2).trans (if_pos free))
    · exact congrArg _ ((passwordEntryChar_graphic h1 h2).trans (if_neg (Nat.not_lt.2 full)))
    · exact congrArg _ (passwordEntryChar_backspace back)
    · exact congrArg _ (passwordEntryChar_other low h8 h13)
    · have emptied : ((edited []).line l).phase = .signon .passwordEntry := by simpa [edited] using stage
      exact ⟨_, congrArg _ ((passwordEntryChar_return h13).trans (endPasswordEntry_short short)),
        attemptFailed_spec _ 1 emptied⟩
    · intro n h13 long account asked covered
      have handed := (passwordEntryChar_return h13).trans (endPasswordEntry_long long account)
      have checking : (asked.line l).phase = .signon .checking := by simp [asked]
      refine ⟨fun away => ?_, fun attached => ?_⟩
      · exact ⟨_, congrArg _ (handed.trans (if_neg away)), attemptFailed_spec _ 5 checking⟩
      · refine ⟨holdsSignOn s.watches n && !(s.line l).verdictGiven, ?_, congrArg _ (handed.trans (if_pos attached))⟩
        rw [Bool.and_eq_true, holdsSignOn_iff, Bool.not_eq_true']

end Sys2Proof.Machine
end

/-! # A call that was never ADMITTED ends alone (O37)

Such a call holds no port, no queue place and no entry, so its settlement is the dropping of its own waiting state, and what follows
speaks on its line alone. -/
section
namespace Sys2Proof.Machine

/-- The machine with another Line Controller and without what waited for a line in the sign-on queue, the attention set and the host
port bus. -/
def State.without (s : State) (l : LineNo) (lc : LineCtl) : State :=
  { s with lc := lc,
           pa := { s.pa with bus := dropSlotCommands l s.pa.bus },
           attn := { s.attn with hold := s.attn.hold.set l false },
           ctl := { s.ctl with signOnQueue := s.ctl.signOnQueue.filter (fun op => decide (op.line ≠ l)) } }

/-- A Line Controller differs from another in the record of one line and in the commands for line units. -/
structure OneLine (l : LineNo) (c c' : LineCtl) : Prop where
  params : c'.params = c.params
  messages : c'.messages = c.messages
  others : ∀ k, k ≠ l → c'.line k = c.line k

theorem OneLine.trans {l : LineNo} {a b c : LineCtl} (h : OneLine l a b) (k : OneLine l b c) : OneLine l a c :=
  ⟨k.params.trans h.params, k.messages.trans h.messages, fun j hj => (k.others j hj).trans (h.others j hj)⟩

theorem oneLine_modLine (l : LineNo) (c : LineCtl) (f : LineRec → LineRec) : OneLine l c (c.modLine l f) :=
  ⟨rfl, rfl, fun k hk => (ctl_modLine_line c l k f).trans (if_neg hk)⟩

theorem SpeaksOnly.oneLine {l : LineNo} {c c' : LineCtl} (h : SpeaksOnly l c c') : OneLine l c c' :=
  ⟨h.params, h.messages, h.others⟩

/-- What is left of a Line Controller that differs in one line. -/
theorem OneLine.eq {l : LineNo} {c c' : LineCtl} (h : OneLine l c c') : c' = { c with lines := c'.lines, bus := c'.bus } := by
  obtain ⟨lines, params, messages, bus⟩ := c'
  obtain ⟨rfl, rfl, -⟩ := h
  rfl

theorem settle_alone (act : State → EntryNo → CreditState → State) {s : State} {l : LineNo}
    (hp : (s.line l).phase.isAdmitted = false) (hn : (s.line l).port = none) (cause : EndCause) (out : Bool)
    (ended : Option View) : ∃ c, settle act s l cause out ended = s.without l c ∧ OneLine l s.lc c := by
  rw [settle, settleWork_portless act hp hn]
  refine ⟨_, rfl, rfl, rfl, fun k hk => ?_⟩
  simp [emptySlots, writeSummary, withdraw, dropHold, State.modLine, State.onLines, State.onAttention, hk]

/-- The life in CLOSING begins by commands and messages of the line alone. -/
theorem enterClosing_alone (s : State) (l : LineNo) (credits : Nat) :
    ∃ c, enterClosing s l credits = { s with lc := c } ∧ OneLine l s.lc c := by
  unfold enterClosing
  dsimp only
  split
  · exact ⟨_, rfl, (oneLine_modLine l _ _).trans (speaksOnly_requestGoodbye l _ credits).oneLine⟩
  · exact ⟨_, rfl, (oneLine_modLine l _ _).trans (speaksOnly_release l _).oneLine⟩

/-- The end of a call that was never ADMITTED. -/
theorem endCall_alone (co : EndedSecond) {s : State} {l : LineNo} (hc : (s.line l).phase.inCall = true)
    (hp : (s.line l).phase.isAdmitted = false) (hn : (s.line l).port = none) (cause : EndCause) (out : Bool) :
    ∃ c, endCall co s l cause out = s.without l c ∧ OneLine l s.lc c := by
  rw [endCall, endCallWith, if_pos hc]
  dsimp only
  obtain ⟨c, settled, one⟩ := settle_alone (meterAction co) hp hn cause out (co l)
  obtain ⟨c', closed, one'⟩ := enterClosing_alone (settle (meterAction co) s l cause out (co l)) l
    (if (s.line l).phase.isAdmitted then ((settle (meterAction co) s l cause out (co l)).line l).charged else 0)
  rw [closed]
  rw [settled] at one' ⊢
  exact ⟨c', rfl, one.trans one'⟩

/-! ## The three expiries -/

theorem exec_answerLimitExpiry_due {s : State} {l : LineNo} (hp : (s.line l).phase = .answering)
    (due : (s.line l).stageTimer = some 0) :
    exec (.answerLimitExpiry l) s = .next (endCall noSecond s l .carrierLost false) := by
  have at0 : expiryDue s (.answerLimit l) = true := by simp [expiryDue, timerOf, stageTimerIn, hp, due]
  show Host.Outcome.next (takeExpiry noSecond s _) = _
  rw [takeExpiry, if_pos at0]; rfl

theorem exec_signonLimitExpiry_due {s : State} {l : LineNo}
    (hp : (s.line l).phase = .signon .accountEntry ∨ (s.line l).phase = .signon .passwordEntry)
    (due : (s.line l).stageTimer = some 0) :
    exec (.signonLimitExpiry l) s = .next (endCall noSecond s l .signonFailed false) := by
  have at0 : expiryDue s (.signonLimit l) = true := by
    rcases hp with hp | hp <;> simp [expiryDue, timerOf, stageTimerIn, hp, due]
  show Host.Outcome.next (takeExpiry noSecond s _) = _
  rw [takeExpiry, if_pos at0]; rfl

theorem exec_carrierHoldExpiry_due {s : State} {l : LineNo} (hc : (s.line l).phase.inCall = true)
    (due : (s.line l).carrierHold = some 0) :
    exec (.carrierHoldExpiry l) s = .next (endCall noSecond s l .carrierLost false) := by
  have at0 : expiryDue s (.carrierHold l) = true := by simp [expiryDue, timerOf, hc, due]
  show Host.Outcome.next (takeExpiry noSecond s _) = _
  rw [takeExpiry, if_pos at0]; rfl

/-- Settles O37, expiry by expiry. -/
theorem callNeverAdmittedEndsAlone : Obligations.CallNeverAdmittedEndsAlone := by
  unfold Obligations.CallNeverAdmittedEndsAlone
  intro i l s hn _ which
  have ends : ∀ cause, (s.line l).phase.inCall = true → (s.line l).phase.isAdmitted = false →
      exec i s = .next (endCall noSecond s l cause false) → cause = (if i = .signonLimitExpiry l then .signonFailed else .carrierLost) →
      ∃ t, exec i s = .next t ∧ CallEnded (if i = .signonLimitExpiry l then .signonFailed else .carrierLost) s t l ∧
        t = s.without l { s.lc with lines := t.lc.lines, bus := t.lc.bus } ∧ ∀ k, k ≠ l → t.line k = s.line k := by
    rintro cause hc hp run rfl
    obtain ⟨c, alone, one⟩ := endCall_alone noSecond hc hp hn _ false
    refine ⟨_, run, endCall_ended noSecond s l _ false hc, ?_, ?_⟩
    · rw [alone]; exact congrArg (s.without l) one.eq
    · rw [alone]; exact one.others
  rcases which with ⟨rfl, hp, due⟩ | ⟨rfl, hp, due⟩ | ⟨rfl, ⟨st, hp⟩, due⟩
  · exact ends .carrierLost (by rw [hp]; rfl) (by rw [hp]; rfl) (exec_answerLimitExpiry_due hp due) (by simp)
  · exact ends .signonFailed (by rcases hp with hp | hp <;> rw [hp] <;> rfl) (by rcases hp with hp | hp <;> rw [hp] <;> rfl)
      (exec_signonLimitExpiry_due hp due) (by simp)
  · have hc : (s.line l).phase.inCall = true := by rw [hp]; rfl
    exact ends .carrierLost hc (by rw [hp]; rfl) (exec_carrierHoldExpiry_due hc due) (by simp)

end Sys2Proof.Machine
end

/-! # The parts of a sign-on operation

The credential tests, the mismatch, the admission checks and what the Sign-On Unit makes of a result, each said once for the three
obligations on VERIFY and ADMIT. -/
section
namespace Sys2Proof.Machine

/-! ## Watches that do not cover an account -/

/-- No watch in use covers an account (R102). -/
def Uncovered (s : State) (n : Nat) : Prop :=
  ∀ w : WatchNo, (s.watches.get w).inUse = true → n < (s.watches.get w).low ∨ (s.watches.get w).high < n

theorem examineWatches_uncovered {s : State} {n : Nat} (h : Uncovered s n) (k : WatchKind) (l : LineNo) (held : Bool) :
    examineWatches s k n l held = s := by
  have unmatched : ∀ w : WatchNo, (s.watches.get w).matchesEvent k n = false := fun w => by
    cases inUse : (s.watches.get w).inUse with
    | false => simp [Watch.matchesEvent, Watch.covers, inUse]
    | true =>
      rcases h w inUse with low | high
      · simp [Watch.matchesEvent, Watch.covers, Nat.not_le.2 low]
      · simp [Watch.matchesEvent, Watch.covers, Nat.not_le.2 high]
  exact List.foldl_fixed' (fun w => by simp [unmatched w]) allWatches

theorem watchResult_uncovered {s : State} {op : SignOnOp} (h : Uncovered s op.account) (r : SignOnResult) :
    watchResult s op r = s := by
  unfold watchResult
  split
  · exact examineWatches_uncovered h _ _ _
  · rfl

theorem watchResult_admit {s : State} {op : SignOnOp} (h : op.kind = .admitOp) (r : SignOnResult) : watchResult s op r = s := by
  rw [watchResult, h]

/-! ## What the Sign-On Unit makes of a current result -/

theorem isCurrent_verify {s : State} {op : SignOnOp} {password : Nat} {marker : Bool} (hk : op.kind = .verify password marker)
    (hp : (s.line op.line).phase = .signon .checking) (ha : (s.line op.line).attempt = op.attempt) : isCurrent s op = true := by
  simp [isCurrent, hk, hp, ha]

theorem isCurrent_admit {s : State} {op : SignOnOp} (hk : op.kind = .admitOp) :
    isCurrent s op = true ↔ (s.line op.line).phase = .signon .admitting ∧ (s.line op.line).attempt = op.attempt := by
  simp [isCurrent, hk, and_comm]

/-- A current result with no watch to hit is taken for itself. -/
theorem takeResult_current {s : State} {op : SignOnOp} {r : SignOnResult} (hc : isCurrent s op = true)
    (hw : watchResult s op r = s) : takeResult s op r =
      match r with
      | .failed n => attemptFailed noSecond s op.line n
      | .credentialsOk => enterHeld s op.line
      | .admission e grace => admitLine s op.line e grace := by
  cases r <;> simp only [takeResult, hc, if_true, hw]

/-- A current failure is a failed attempt (R95). -/
theorem takeResult_fails {s : State} {op : SignOnOp} {n : Nat} (hc : isCurrent s op = true)
    (hw : watchResult s op (.failed n) = s) : AttemptFailed n s (takeResult s op (.failed n)) op.line := by
  obtain ⟨st, hp⟩ := isCurrent_phase hc
  rw [takeResult_current hc hw]
  exact attemptFailed_spec noSecond n hp

/-- A current admission takes its line to SELECTING (R94, R148). -/
theorem admitLine_entry {s : State} {e : EntryNo} {x : OatEntry} (hx : s.entry e = some x) (l : LineNo) (grace : Nat) :
    admitLine s l e grace = requestMessage (s.modLine l (fun r =>
      { r with phase := .admitted .selecting, entryRef := some e, grace := grace, residue := 0, portFaults := 0, port := none,
               stageTimer := some s.lc.params.selectionLimit })) l 4
      ((List.range 6).filter (fun i => x.acct.permitted.getLsbD i)).length := by
  rw [admitLine, enterSelecting, modLine_modLine]
  simp only [hx]
  rfl

/-! ## The credential tests (R87) -/

theorem testCredentials_refused {a : Account} {password : Nat} (h : a.password = 0 ∨ a.status ≠ .live) :
    testCredentials a password = .refused := by
  rcases h with h | h
  · simp [testCredentials, h]
  · simp [testCredentials, h]

theorem testCredentials_mismatch {a : Account} {password : Nat} (h0 : a.password ≠ 0) (hl : a.status = .live)
    (hp : a.password ≠ password) : testCredentials a password = .mismatch := by
  simp [testCredentials, h0, hl, hp]

theorem testCredentials_good {a : Account} {password : Nat} (h0 : a.password ≠ 0) (hl : a.status = .live)
    (hp : a.password = password) : testCredentials a password = .good := by
  subst hp
  simp [testCredentials, h0, hl]

/-! ## The mismatch (R88) -/

theorem satSucc_count {n : Nat} (h : n ≤ 15) : satSucc 15 n = min 15 (n + 1) := by
  unfold satSucc
  split <;> omega

theorem afterMismatch_eq (threshold : Nat) {a : Account} (h : a.failedCount ≤ 15) :
    afterMismatch threshold a =
      { a with failedCount := min 15 (a.failedCount + 1),
               status := if threshold ≠ 0 ∧ threshold ≤ min 15 (a.failedCount + 1) then .locked else a.status } := by
  rw [afterMismatch, satSucc_count h]

theorem locks_iff (threshold : Nat) {a : Account} (h : a.failedCount ≤ 15) (hl : a.status = .live) :
    locks threshold a = true ↔ threshold ≠ 0 ∧ threshold ≤ min 15 (a.failedCount + 1) := by
  rw [locks, decide_eq_true_eq, afterMismatch_eq threshold h]
  dsimp only
  by_cases lock : threshold ≠ 0 ∧ threshold ≤ min 15 (a.failedCount + 1)
  · exact iff_of_true (if_pos lock) lock
  · rw [if_neg lock, hl]
    exact iff_of_false nofun lock

/-- A mismatch changes nothing exactly where the count stands at 15 and nothing locks. -/
theorem afterMismatch_same (threshold : Nat) {a : Account} (h : a.failedCount ≤ 15) (hl : a.status = .live) :
    afterMismatch threshold a = a ↔
      a.failedCount = 15 ∧ ¬(threshold ≠ 0 ∧ threshold ≤ min 15 (a.failedCount + 1)) := by
  rw [afterMismatch_eq threshold h]
  constructor
  · intro same
    have count : min 15 (a.failedCount + 1) = a.failedCount := congrArg Account.failedCount same
    have status := congrArg Account.status same
    refine ⟨by omega, fun lock => ?_⟩
    dsimp only at status
    rw [if_pos lock, hl] at status
    nomatch status
  · rintro ⟨full, stays⟩
    rw [if_neg stays, full]
    simp [← full]

/-- The ACCOUNT item of a mismatch, where it locks. -/
theorem raiseLocked_eq (s : State) (n : Nat) {a : Account} (h : a.failedCount ≤ 15) (hl : a.status = .live) :
    raiseLocked s n a = { s with
      attn := if s.lc.params.lockoutThreshold ≠ 0 ∧ s.lc.params.lockoutThreshold ≤ min 15 (a.failedCount + 1) then
        s.attn.raiseAccount n 1 else s.attn } := by
  unfold raiseLocked
  by_cases lock : s.lc.params.lockoutThreshold ≠ 0 ∧ s.lc.params.lockoutThreshold ≤ min 15 (a.failedCount + 1)
  · rw [if_pos ((locks_iff _ h hl).2 lock), if_pos lock]; rfl
  · rw [if_neg (mt (locks_iff _ h hl).1 lock), if_neg lock]

/-! ## The admission checks (R90) -/

theorem accountChecks_spent {s : State} {a : Account} (h : a.allotment = 0) : accountChecks s a = some 4 := by
  simp [accountChecks, h]

theorem accountChecks_hours {s : State} {a : Account} (h : a.allotment ≠ 0)
    (hb : ¬(s.policy a.cls).allowedBands.getLsbD s.cal.view.band.val = true) : accountChecks s a = some 2 := by
  simp only [accountChecks, h, if_false, ClassPolicy.allows, hb]
  rfl

theorem accountChecks_none {s : State} {a : Account} (h : a.allotment ≠ 0)
    (hb : (s.policy a.cls).allowedBands.getLsbD s.cal.view.band.val = true) : accountChecks s a = none := by
  simp only [accountChecks, h, if_false, ClassPolicy.allows, hb, if_true]

/-- The FREE entry that an admission takes is the first. -/
theorem freeEntry_first {s : State} {e : EntryNo} (he : s.entry e = none) (hk : ∀ k, k < e → s.entry k ≠ none) :
    s.freeEntry = some e := by
  refine List.find?_eq_some_iff_getElem.2 ⟨by simp [he], e.val, by simp [allEntries], by simp [allEntries], fun j hj => ?_⟩
  have taken := hk ⟨j, by omega⟩ (Fin.lt_def.2 hj)
  simpa [allEntries, ← Option.ne_none_iff_isSome] using taken

theorem freeEntry_none {s : State} (h : ∀ e, s.entry e ≠ none) : s.freeEntry = none :=
  List.find?_eq_none.2 fun e _ => by simpa using h e

theorem closedChecks_some {s : State} {a : Account} {n : Nat} (h : accountChecks s a = some n) : closedChecks s a = some n := by
  rw [closedChecks, h]

theorem closedChecks_full {s : State} {a : Account} (h : accountChecks s a = none) (hf : s.freeEntry = none) :
    closedChecks s a = some 5 := by
  simp only [closedChecks, h, hf, if_true]

/-- An admission of an account that is not open fails where a check does. -/
theorem admitClosed_failed {s : State} {a : Account} {n : Nat} (h : closedChecks s a = some n) (o : WriteOutcome) (l : LineNo)
    (number slot : Nat) : admitClosed s o l number slot a = (s, .failed n) := by
  simp only [admitClosed, h]

/-- An admission of an account that is not open, its checks passed: the write and the new entry. -/
theorem admitClosed_passed {s : State} {a : Account} {e : EntryNo} (h : accountChecks s a = none)
    (hf : s.freeEntry = some e) (o : WriteOutcome) (l : LineNo) (number slot : Nat) :
    admitClosed s o l number slot a =
      if writeMatches o then
        (createEntry (s.writeSlot o slot (encodeSlot .inUse number (admittedAccount s l a))) e number slot
          (admittedAccount s l a), .admission e (admissionGrace s a))
      else (storeFault (s.writeSlot o slot (encodeSlot .inUse number (admittedAccount s l a))) (some number), .failed 5) := by
  have passed : closedChecks s a = none := by simp [closedChecks, h, hf]
  simp only [admitClosed, passed, hf]

theorem slotIndex_of_lt {n : Nat} (h : n < 8192) : slotIndex n = ⟨n, h⟩ := by
  simp [slotIndex, slotNo?, h]

theorem writeSlot_good (s : State) (slot : Nat) (bytes : List Byte) :
    s.writeSlot .good slot bytes = { s with store := storeSlot s.store slot bytes } := rfl

theorem writeSlot_left (s : State) (slot : Nat) (old bytes : List Byte) :
    s.writeSlot (.left old) slot bytes = { s with store := storeSlot s.store slot old } := rfl

/-- A matched admission write of an account that is not open: the slot, the entry and the result. -/
theorem admitClosed_good {s : State} {a : Account} {e : EntryNo} (h : accountChecks s a = none) (hf : s.freeEntry = some e)
    (l : LineNo) (number : Nat) {slot : Nat} (hs : slot < 8192) {m : List Host.Cell}
    (hm : storeSlot s.store slot (encodeSlot .inUse number (admittedAccount s l a)) = m) :
    admitClosed s .good l number slot a =
      (({ s with store := m } : State).setEntry e (some ⟨.opened, number, ⟨slot, hs⟩, 1, admittedAccount s l a, false, false⟩),
        .admission e (admissionGrace s a)) := by
  subst hm
  rw [admitClosed_passed h hf, if_pos (show writeMatches .good = true from rfl), writeSlot_good, createEntry, slotIndex_of_lt hs]

/-- An admission write of an account that is not open whose read-back does not match (R4, R30). -/
theorem admitClosed_left {s : State} {a : Account} {e : EntryNo} (h : accountChecks s a = none) (hf : s.freeEntry = some e)
    (l : LineNo) (number : Nat) {slot : Nat} {bytes : List Byte} {m : List Host.Cell} (hm : storeSlot s.store slot bytes = m) :
    admitClosed s (.left bytes) l number slot a = (storeFault { s with store := m } (some number), .failed 5) := by
  subst hm
  rw [admitClosed_passed h hf, if_neg (show ¬writeMatches (.left bytes) = true from nofun), writeSlot_left]

/-- A sign-on operation on an account that is not open, from its completion to what is made of its result. -/
theorem exec_complete_signOn {s : State} {op : SignOnOp} (hp : s.ctl.inProgress = some (.signOn op))
    (hn : ∀ e x, s.entry e = some x → x.account ≠ op.account) (writes : List WriteOutcome) {t : State} {r : SignOnResult}
    (h : signOnClosed { s with ctl := { s.ctl with inProgress := none } } (firstOutcome writes) op = (t, r)) :
    exec (.storeOperationComplete writes) s = .next (takeResult t op r) := by
  have closed : State.openAccount { s with ctl := { s.ctl with inProgress := none } } op.account = none := openAccount_none hn
  rw [exec_complete hp]
  show Host.Outcome.next (finishSignOn _ _ _) = _
  rw [finishSignOn, performSignOn, closed]
  dsimp only
  rw [h]

end Sys2Proof.Machine
end

/-! # Sign-on operations on an account that is not open (O44, O47) -/
section
namespace Sys2Proof.Machine

/-! ## A mismatch on an account found in the store (R13, R88) -/

theorem verifyClosed_refused {s : State} {op : SignOnOp} {password slot : Nat} {a : Account}
    (h : a.password = 0 ∨ a.status ≠ .live) (o : WriteOutcome) (marker : Bool) :
    verifyClosed s o op password marker slot a = (s, .failed 1) := by
  simp only [verifyClosed, testCredentials_refused h]

theorem verifyClosed_mismatch {s : State} {op : SignOnOp} {password slot : Nat} {a : Account} (h0 : a.password ≠ 0)
    (hl : a.status = .live) (hp : a.password ≠ password) (o : WriteOutcome) (marker : Bool) :
    verifyClosed s o op password marker slot a = (writeMismatch s o op.account slot a, .failed 1) := by
  simp only [verifyClosed, testCredentials_mismatch h0 hl hp]

theorem verifyClosed_held {s : State} {op : SignOnOp} {password slot : Nat} {a : Account}
    (good : a.password ≠ 0 ∧ a.status = .live ∧ a.password = password) (o : WriteOutcome) :
    verifyClosed s o op password true slot a = (s, .credentialsOk) := by
  obtain ⟨h0, hl, hp⟩ := good
  simp only [verifyClosed, testCredentials_good h0 hl hp, if_true]

theorem verifyClosed_good {s : State} {op : SignOnOp} {password slot : Nat} {a : Account}
    (good : a.password ≠ 0 ∧ a.status = .live ∧ a.password = password) (o : WriteOutcome) :
    verifyClosed s o op password false slot a = admitClosed s o op.line op.account slot a := by
  obtain ⟨h0, hl, hp⟩ := good
  simp only [verifyClosed, testCredentials_good h0 hl hp, Bool.false_eq_true, if_false]

/-- A mismatch that changes nothing writes nothing (log entry 32). -/
theorem writeMismatch_same {s : State} {a : Account} (h : afterMismatch s.lc.params.lockoutThreshold a = a) (o : WriteOutcome)
    (n slot : Nat) : writeMismatch s o n slot a = s := by
  simp only [writeMismatch, h, if_true]

/-- A mismatch that counts or locks, its write matched. -/
theorem writeMismatch_good {s : State} {a : Account} (h : afterMismatch s.lc.params.lockoutThreshold a ≠ a)
    (hc : a.failedCount ≤ 15) (hl : a.status = .live) (n slot : Nat) :
    writeMismatch s .good n slot a = { s with
      store := storeSlot s.store slot (encodeSlot .inUse n (afterMismatch s.lc.params.lockoutThreshold a))
      attn := if s.lc.params.lockoutThreshold ≠ 0 ∧ s.lc.params.lockoutThreshold ≤ min 15 (a.failedCount + 1) then
        s.attn.raiseAccount n 1 else s.attn } := by
  simp only [writeMismatch, h, if_false]
  rw [if_pos (show writeMatches .good = true from rfl), raiseLocked_eq _ n hc hl, writeSlot_good]

/-! ## The lookup's three ends (R87, R92) -/

theorem signOnClosed_damaged {s : State} {op : SignOnOp} (h : s.lookup op.account = .damaged) (o : WriteOutcome) :
    signOnClosed s o op = (storeFault s (some op.account), .failed 5) := by
  simp only [signOnClosed, h]

theorem signOnClosed_verify_notFound {s : State} {op : SignOnOp} {place : Option Nat} {password : Nat} {marker : Bool}
    (h : s.lookup op.account = .notFound place) (hk : op.kind = .verify password marker) (o : WriteOutcome) :
    signOnClosed s o op = (s, .failed 1) := by
  simp only [signOnClosed, h, hk]

theorem signOnClosed_admit_notFound {s : State} {op : SignOnOp} {place : Option Nat}
    (h : s.lookup op.account = .notFound place) (hk : op.kind = .admitOp) (o : WriteOutcome) :
    signOnClosed s o op = (s, .failed 5) := by
  simp only [signOnClosed, h, hk]

theorem signOnClosed_verify_found {s : State} {op : SignOnOp} {slot password : Nat} {a : Account} {marker : Bool}
    (h : s.lookup op.account = .found slot a) (hk : op.kind = .verify password marker) (o : WriteOutcome) :
    signOnClosed s o op = verifyClosed s o op password marker slot a := by
  simp only [signOnClosed, h, hk]

theorem signOnClosed_admit_found {s : State} {op : SignOnOp} {slot : Nat} {a : Account}
    (h : s.lookup op.account = .found slot a) (hk : op.kind = .admitOp) (o : WriteOutcome) :
    signOnClosed s o op = admitClosed s o op.line op.account slot a := by
  simp only [signOnClosed, h, hk]

/-! ## An admission of an account that is not open, current or stale -/

/-- A current admission: the new entry, the line in SELECTING and message 4 (R30, R94). -/
theorem takeResult_admits {s : State} {op : SignOnOp} {m : List Host.Cell} {e : EntryNo} {x : OatEntry} {grace : Nat}
    (hc : isCurrent (({ s with store := m } : State).setEntry e (some x)) op = true)
    (hw : ∀ r, watchResult (({ s with store := m } : State).setEntry e (some x)) op r =
      ({ s with store := m } : State).setEntry e (some x)) :
    takeResult (({ s with store := m } : State).setEntry e (some x)) op (.admission e grace) =
      requestMessage { (s.setEntry e (some x)).modLine op.line (fun r =>
        { r with phase := .admitted .selecting, entryRef := some e, grace := grace, residue := 0, portFaults := 0,
                 port := none, stageTimer := some s.lc.params.selectionLimit }) with store := m } op.line 4
        ((List.range 6).filter (fun i => x.acct.permitted.getLsbD i)).length := by
  have entered : State.entry (({ s with store := m } : State).setEntry e (some x)) e = some x := by simp
  rw [takeResult_current hc (hw _)]
  exact admitLine_entry entered op.line grace

/-- The last session leaves an entry that is neither queued nor being written back (R32). -/
theorem leaveEntry_last {s : State} {e : EntryNo} {x : OatEntry} (hx : s.entry e = some x) (h1 : x.count ≤ 1)
    (idle : s.writingBack e = false) (unlisted : e ∉ s.oat.writeBackList) :
    leaveEntry s e = { s with
      oat := { entries := s.oat.entries.set e (some { x with state := .closing, count := 0 })
               writeBackList := s.oat.writeBackList ++ [e] } } := by
  have unqueued : State.queued (s.setEntry e (some { x with count := 0, state := .closing })) e = false := by
    simpa [State.queued] using unlisted
  simp only [leaveEntry, hx, h1, if_true, idle, queueEntry, unqueued, Bool.false_eq_true, if_false]
  simp [State.modEntry, State.setEntry, State.entry, Vector.get_eq_getElem]

/-- A stale admission of an account that is not open is undone: its entry is left CLOSING, and queued (R32, R101). -/
theorem takeResult_stale_admission {s : State} {op : SignOnOp} {m : List Host.Cell} {e : EntryNo} {x : OatEntry} {grace : Nat}
    (hp : s.ctl.inProgress = none) (h1 : x.count = 1) (hq : e ∉ s.oat.writeBackList)
    (hc : isCurrent (({ s with store := m } : State).setEntry e (some x)) op = false) :
    takeResult (({ s with store := m } : State).setEntry e (some x)) op (.admission e grace) =
      { s with
        store := m
        oat := { entries := s.oat.entries.set e (some { x with state := .closing, count := 0 })
                 writeBackList := s.oat.writeBackList ++ [e] } } := by
  have entered : State.entry (({ s with store := m } : State).setEntry e (some x)) e = some x := by simp
  have idle : State.writingBack (({ s with store := m } : State).setEntry e (some x)) e = false := by
    simp only [State.writingBack, setEntry_ctl, hp]
  have leaves : takeResult (({ s with store := m } : State).setEntry e (some x)) op (.admission e grace) =
      leaveEntry (({ s with store := m } : State).setEntry e (some x)) e := by
    simp only [takeResult, hc, Bool.false_eq_true, if_false]
  rw [leaves, leaveEntry_last entered h1.le idle hq]
  simp [State.setEntry, Vector.set_set]

/-- Settles O44, test by test. -/
theorem verifyOfClosedAccount : Obligations.VerifyOfClosedAccount := by
  unfold Obligations.VerifyOfClosedAccount
  intro l b password n marker s hp phase attempt closed uncovered done fails
  have ends : ∀ {t : State} {r : SignOnResult}, signOnClosed done .good ⟨l, b, .verify password marker, n⟩ = (t, r) →
      exec (.storeOperationComplete [.good]) s = .next (takeResult t ⟨l, b, .verify password marker, n⟩ r) :=
    exec_complete_signOn hp closed [.good]
  have current : ∀ t : State, t.lc = s.lc → isCurrent t ⟨l, b, .verify password marker, n⟩ = true := fun t ht => by
    have line : t.line l = s.line l := congrArg (fun c : LineCtl => c.line l) ht
    exact isCurrent_verify rfl (by rw [line]; exact phase) (by rw [line]; exact attempt)
  have unwatched : ∀ t : State, t.watches = s.watches → ∀ r, watchResult t ⟨l, b, .verify password marker, n⟩ r = t :=
    fun t ht r => watchResult_uncovered (by rw [Uncovered, ht]; exact uncovered) r
  have failed : ∀ {reason : Nat} {t : State}, signOnClosed done .good ⟨l, b, .verify password marker, n⟩ = (t, .failed reason) →
      t.lc = s.lc → t.watches = s.watches → fails reason t := fun run lc watches =>
    ⟨_, ends run, takeResult_fails (current _ lc) (unwatched _ watches _)⟩
  refine ⟨fun place found => failed (signOnClosed_verify_notFound (s := done) (op := ⟨l, b, .verify password marker, n⟩) found rfl .good) rfl rfl,
    fun found => failed (signOnClosed_damaged (s := done) (op := ⟨l, b, .verify password marker, n⟩) found .good) rfl rfl, ?_⟩
  intro slot a found policy allowed good count locks raised
  obtain ⟨_, _, inRange⟩ := lookup_found_inRange found
  have counted : a.failedCount ≤ 15 := inRange.2.2.1
  have verify : ∀ {x : State × SignOnResult}, verifyClosed done .good ⟨l, b, .verify password marker, n⟩ password marker slot a = x →
      signOnClosed done .good ⟨l, b, .verify password marker, n⟩ = x :=
    (signOnClosed_verify_found (s := done) (op := ⟨l, b, .verify password marker, n⟩) found rfl .good).trans
  refine ⟨fun refused => failed (verify (verifyClosed_refused refused .good marker)) rfl rfl, fun h0 hl hpw full stays => ?_,
    fun h0 hl hpw changes => ?_, fun h held => ?_, fun h unheld => ?_⟩
  · have mismatch := verifyClosed_mismatch (s := done) (op := ⟨l, b, .verify password marker, n⟩) (slot := slot) h0 hl hpw .good marker
    rw [writeMismatch_same (s := done) ((afterMismatch_same _ counted hl).2 ⟨full, stays⟩)] at mismatch
    exact failed (verify mismatch) rfl rfl
  · have changed : afterMismatch s.lc.params.lockoutThreshold a ≠ a := fun same => by
      obtain ⟨full, stays⟩ := (afterMismatch_same _ counted hl).1 same
      exact changes.elim (by omega) stays
    have mismatch := verifyClosed_mismatch (s := done) (op := ⟨l, b, .verify password marker, n⟩) (slot := slot) h0 hl hpw .good marker
    rw [writeMismatch_good (s := done) changed counted hl, afterMismatch_eq _ counted] at mismatch
    exact failed (verify mismatch) rfl rfl
  · subst held
    rw [ends (verify (verifyClosed_held h .good)), takeResult_current (current done rfl) (unwatched done rfl _)]
    rfl
  · subst unheld
    have admits : ∀ {x : State × SignOnResult}, admitClosed done .good l n slot a = x →
        signOnClosed done .good ⟨l, b, .verify password false, n⟩ = x := (verify (verifyClosed_good h .good)).trans
    refine ⟨fun spent => ?_, fun funds barred => ?_, fun funds open_ full => ?_, fun e funds open_ free first inStore => ?_⟩
    · exact failed (admits (admitClosed_failed (s := done) (closedChecks_some (accountChecks_spent spent)) _ _ _ _)) rfl rfl
    · exact failed (admits (admitClosed_failed (s := done) (closedChecks_some (accountChecks_hours funds barred)) _ _ _ _)) rfl rfl
    · exact failed (admits (admitClosed_failed (s := done) (closedChecks_full (accountChecks_none funds open_) (freeEntry_none full)) _ _ _ _)) rfl rfl
    · intro admitted entry entered
      generalize written : storeSlot s.store slot (encodeSlot .inUse n admitted) = m
      rw [ends (admits (admitClosed_good (s := done) (accountChecks_none funds open_) (freeEntry_first free first) l n inStore
        written))]
      exact congrArg _ (takeResult_admits (s := done) (op := ⟨l, b, .verify password false, n⟩) (current _ rfl) (unwatched _ rfl))

/-- Settles O47, check by check. -/
theorem admitOfClosedAccount : Obligations.AdmitOfClosedAccount := by
  unfold Obligations.AdmitOfClosedAccount
  intro l b n s hp closed done faulted current fails
  have ends : ∀ (writes : List WriteOutcome) {t : State} {r : SignOnResult},
      signOnClosed done (firstOutcome writes) ⟨l, b, .admitOp, n⟩ = (t, r) →
      exec (.storeOperationComplete writes) s = .next (takeResult t ⟨l, b, .admitOp, n⟩ r) :=
    exec_complete_signOn hp closed
  have told : ∀ t : State, t.lc = s.lc → (isCurrent t ⟨l, b, .admitOp, n⟩ = true ↔ current) := fun t ht => by
    have line : t.line l = s.line l := congrArg (fun c : LineCtl => c.line l) ht
    rw [isCurrent_admit rfl]
    dsimp only
    rw [line]
  have failed : ∀ {reason : Nat} (writes : List WriteOutcome) {t : State},
      signOnClosed done (firstOutcome writes) ⟨l, b, .admitOp, n⟩ = (t, .failed reason) → t.lc = s.lc → current →
      fails reason writes t := fun writes _ run lc hc =>
    ⟨_, ends writes run, takeResult_fails ((told _ lc).2 hc) (watchResult_admit rfl _)⟩
  refine ⟨fun hc ⟨place, found⟩ => failed [] (signOnClosed_admit_notFound (s := done) (op := ⟨l, b, .admitOp, n⟩) found rfl _) rfl hc,
    fun hc found => failed [] (signOnClosed_damaged (s := done) (op := ⟨l, b, .admitOp, n⟩) found _) rfl hc, ?_⟩
  intro slot a found policy allowed
  have admits : ∀ (o : WriteOutcome) {x : State × SignOnResult}, admitClosed done o l n slot a = x →
      signOnClosed done o ⟨l, b, .admitOp, n⟩ = x := fun o =>
    (signOnClosed_admit_found (s := done) (op := ⟨l, b, .admitOp, n⟩) found rfl o).trans
  refine ⟨fun hc spent => ?_, fun hc funds barred => ?_, fun hc funds open_ full => ?_, ?_⟩
  · exact failed [] (admits _ (admitClosed_failed (s := done) (closedChecks_some (accountChecks_spent spent)) _ _ _ _)) rfl hc
  · exact failed [] (admits _ (admitClosed_failed (s := done) (closedChecks_some (accountChecks_hours funds barred)) _ _ _ _)) rfl hc
  · exact failed [] (admits _ (admitClosed_failed (s := done) (closedChecks_full (accountChecks_none funds open_) (freeEntry_none full)) _ _ _ _)) rfl hc
  · intro e funds open_ free first inStore admitted image entry
    have checks : accountChecks done a = none := accountChecks_none funds open_
    have passed : ∀ {m}, storeSlot s.store slot image = m → _ :=
      admitClosed_good (s := done) checks (freeEntry_first free first) l n inStore
    refine ⟨fun hc => ?_, fun bytes hc _ => ?_, fun stale unlisted => ?_⟩
    · generalize written : storeSlot s.store slot image = m
      rw [ends [.good] (admits _ (passed written))]
      exact congrArg _ (takeResult_admits (s := done) (op := ⟨l, b, .admitOp, n⟩) ((told _ rfl).2 hc) (watchResult_admit rfl))
    · generalize written : storeSlot s.store slot bytes = m
      exact failed [.left bytes] (admits _ (admitClosed_left (s := done) checks (freeEntry_first free first) l n written)) rfl hc
    · generalize written : storeSlot s.store slot image = m
      rw [ends [.good] (admits _ (passed written))]
      exact congrArg _ (takeResult_stale_admission (s := done) (op := ⟨l, b, .admitOp, n⟩) rfl rfl unlisted
        (Bool.eq_false_iff.2 (mt (told _ rfl).1 stale)))

end Sys2Proof.Machine
end

/-! # A VERIFY on an open account (O45) -/
section
namespace Sys2Proof.Machine

/-! ## The tests on the entry's copies (R31, R87 to R91) -/

theorem verifyOpen_refused {s : State} {op : SignOnOp} {password : Nat} {x : OatEntry}
    (h : x.acct.password = 0 ∨ x.acct.status ≠ .live) (marker : Bool) (e : EntryNo) :
    verifyOpen s op password marker e x = (s, .failed 1) := by
  simp only [verifyOpen, testCredentials_refused h]

/-- A mismatch counts in the entry, sets dirty and may lock. -/
theorem verifyOpen_mismatch {s : State} {op : SignOnOp} {password : Nat} {e : EntryNo} {x : OatEntry} (hx : s.entry e = some x)
    (h0 : x.acct.password ≠ 0) (hl : x.acct.status = .live) (hp : x.acct.password ≠ password) (hc : x.acct.failedCount ≤ 15)
    (marker : Bool) :
    verifyOpen s op password marker e x =
      ({ s.setEntry e (some { x with acct := afterMismatch s.lc.params.lockoutThreshold x.acct, dirty := true }) with
          attn := if s.lc.params.lockoutThreshold ≠ 0 ∧ s.lc.params.lockoutThreshold ≤ min 15 (x.acct.failedCount + 1) then
            s.attn.raiseAccount op.account 1 else s.attn }, .failed 1) := by
  simp only [verifyOpen, testCredentials_mismatch h0 hl hp]
  rw [raiseLocked_eq _ _ hc hl, State.modEntry, hx]
  rfl

theorem verifyOpen_held {s : State} {op : SignOnOp} {password : Nat} {x : OatEntry}
    (good : x.acct.password ≠ 0 ∧ x.acct.status = .live ∧ x.acct.password = password) (e : EntryNo) :
    verifyOpen s op password true e x = (s, .credentialsOk) := by
  obtain ⟨h0, hl, hp⟩ := good
  simp only [verifyOpen, testCredentials_good h0 hl hp, if_true]

theorem verifyOpen_good {s : State} {op : SignOnOp} {password : Nat} {x : OatEntry}
    (good : x.acct.password ≠ 0 ∧ x.acct.status = .live ∧ x.acct.password = password) (e : EntryNo) :
    verifyOpen s op password false e x = admitOpen s op.line e x := by
  obtain ⟨h0, hl, hp⟩ := good
  simp only [verifyOpen, testCredentials_good h0 hl hp, Bool.false_eq_true, if_false]

/-! ## The admission checks on the entry (R90) -/

theorem openChecks_retired {s : State} {x : OatEntry} (h : x.retirePending = true) : openChecks s x = some 5 := by
  simp only [openChecks, h, if_true]

theorem openChecks_account {s : State} {x : OatEntry} {n : Nat} (hr : x.retirePending = false)
    (h : accountChecks s x.acct = some n) : openChecks s x = some n := by
  simp only [openChecks, hr, h, Bool.false_eq_true, if_false]

theorem openChecks_limit {s : State} {x : OatEntry} (hr : x.retirePending = false) (h : accountChecks s x.acct = none)
    (hl : x.acct.sessionLimit ≤ x.count) : openChecks s x = some 3 := by
  simp only [openChecks, hr, h, hl, Bool.false_eq_true, if_false, if_true]

theorem openChecks_none {s : State} {x : OatEntry} (hr : x.retirePending = false) (h : accountChecks s x.acct = none)
    (hl : x.count < x.acct.sessionLimit) : openChecks s x = none := by
  simp only [openChecks, hr, h, Nat.not_le.2 hl, Bool.false_eq_true, if_false]

theorem admitOpen_failed {s : State} {x : OatEntry} {n : Nat} (h : openChecks s x = some n) (l : LineNo) (e : EntryNo) :
    admitOpen s l e x = (s, .failed n) := by
  simp only [admitOpen, h]

/-- A session joins the entry (R31). -/
theorem admitOpen_joins {s : State} {e : EntryNo} {x : OatEntry} (hx : s.entry e = some x) (h : openChecks s x = none)
    (l : LineNo) : admitOpen s l e x =
      (s.setEntry e (some { x with state := .opened, count := x.count + 1, acct := admittedAccount s l x.acct, dirty := true }),
        .admission e (admissionGrace s x.acct)) := by
  simp only [admitOpen, h, joinEntry, State.modEntry, hx, Option.map_some]

/-- A sign-on operation on an open account, chosen by the rotation: it is complete at the choice (log entry 11). -/
theorem exec_choice_signOn {s : State} {op : SignOnOp} {rest : List SignOnOp} {e : EntryNo} {x : OatEntry}
    (hp : s.ctl.inProgress = none) (hr : s.ctl.rotation = .signOn) (hq : s.ctl.signOnQueue = op :: rest)
    (ho : s.openAccount op.account = some (e, x)) {t : State} {r : SignOnResult}
    (h : signOnOpen { s with ctl := { s.ctl with rotation := .writeBack, signOnQueue := rest } } op e x = (t, r)) :
    exec .rotationChoice s = .next (takeResult t op r) := by
  have opened : State.openAccount { s with ctl := { s.ctl with rotation := .writeBack, signOnQueue := rest } } op.account =
      some (e, x) := ho
  rw [exec_rotationChoice, rotationChoice_signOn hp hr hq, startSignOn_open (by rw [opened]; nofun), finishSignOn, performSignOn,
    opened]
  dsimp only
  rw [h]

/-- Settles O45, test by test. -/
theorem verifyOfOpenAccount : Obligations.VerifyOfOpenAccount := by
  unfold Obligations.VerifyOfOpenAccount
  intro l b password n marker rest e x s hp turn queue hx hn only phase attempt counted uncovered a policy chosen fails allowed
    good count locks raised joined
  have ends : ∀ {t : State} {r : SignOnResult}, verifyOpen chosen ⟨l, b, .verify password marker, n⟩ password marker e x = (t, r) →
      exec .rotationChoice s = .next (takeResult t ⟨l, b, .verify password marker, n⟩ r) :=
    exec_choice_signOn hp turn queue (openAccount_eq_some hx hn only)
  have current : ∀ t : State, t.lc = s.lc → isCurrent t ⟨l, b, .verify password marker, n⟩ = true := fun t ht => by
    have line : t.line l = s.line l := congrArg (fun c : LineCtl => c.line l) ht
    exact isCurrent_verify rfl (by rw [line]; exact phase) (by rw [line]; exact attempt)
  have unwatched : ∀ t : State, t.watches = s.watches → ∀ r, watchResult t ⟨l, b, .verify password marker, n⟩ r = t :=
    fun t ht r => watchResult_uncovered (by rw [Uncovered, ht]; exact uncovered) r
  have failed : ∀ {reason : Nat} {t : State},
      verifyOpen chosen ⟨l, b, .verify password marker, n⟩ password marker e x = (t, .failed reason) →
      t.lc = s.lc → t.watches = s.watches → fails reason t := fun run lc watches =>
    ⟨_, ends run, takeResult_fails (current _ lc) (unwatched _ watches _)⟩
  refine ⟨fun refused => failed (verifyOpen_refused refused marker e) rfl rfl, fun h0 hl hpw => ?_, fun h held => ?_,
    fun h unheld => ?_⟩
  · have mismatch := verifyOpen_mismatch (s := chosen) (op := ⟨l, b, .verify password marker, n⟩) hx h0 hl hpw counted marker
    rw [afterMismatch_eq _ counted] at mismatch
    exact failed mismatch rfl rfl
  · subst held
    rw [ends (verifyOpen_held h e), takeResult_current (current chosen rfl) (unwatched chosen rfl _)]
    rfl
  · subst unheld
    have admits : ∀ {y : State × SignOnResult}, admitOpen chosen l e x = y →
        verifyOpen chosen ⟨l, b, .verify password false, n⟩ password false e x = y := 
      (verifyOpen_good (s := chosen) (op := ⟨l, b, .verify password false, n⟩) h e).trans
    have refusal : ∀ {reason : Nat}, openChecks chosen x = some reason → fails reason chosen := fun check =>
      failed (admits (admitOpen_failed check l e)) rfl rfl
    refine ⟨fun retired => refusal (openChecks_retired retired),
      fun kept spent => refusal (openChecks_account kept (accountChecks_spent spent)),
      fun kept funds barred => refusal (openChecks_account kept (accountChecks_hours funds barred)),
      fun kept funds open_ limit => refusal (openChecks_limit kept (accountChecks_none funds open_) limit),
      fun kept funds open_ limit => ?_⟩
    have entered : State.entry (chosen.setEntry e (some joined)) e = some joined := by simp
    rw [ends (admits (admitOpen_joins (s := chosen) hx (openChecks_none kept (accountChecks_none funds open_) limit) l))]
    refine congrArg _ ((takeResult_current (current (chosen.setEntry e (some joined)) rfl)
      (unwatched (chosen.setEntry e (some joined)) rfl _)).trans ?_)
    exact admitLine_entry entered l policy.grace

end Sys2Proof.Machine
end

/-! # The Meter and the ends of calls do not look at the supervisor port

The operations of the Meter and of settlement give the same result whatever stands in the supervisor port. With this, what a request
does to the machine can be said apart from its response. -/
section
namespace Sys2Proof.Machine

/-- The machine with another supervisor port. -/
def State.withSup (s : State) (p : SupPort) : State := { s with sup := p }

section
variable (s : State) (p : SupPort)

@[simp] theorem withSup_line (l : LineNo) : (s.withSup p).line l = s.line l := rfl
@[simp] theorem withSup_port (k : PortNo) : (s.withSup p).port k = s.port k := rfl
@[simp] theorem withSup_group (g : GroupNo) : (s.withSup p).group g = s.group g := rfl
@[simp] theorem withSup_entry (e : EntryNo) : (s.withSup p).entry e = s.entry e := rfl
@[simp] theorem withSup_queued (e : EntryNo) : (s.withSup p).queued e = s.queued e := rfl
@[simp] theorem withSup_writingBack (e : EntryNo) : (s.withSup p).writingBack e = s.writingBack e := rfl

/-- A fold of steps that do not look at the supervisor port. -/
theorem withSup_foldl {α : Type} {f : State → α → State} (h : ∀ s p a, f (s.withSup p) a = (f s a).withSup p) (xs : List α) :
    xs.foldl f (s.withSup p) = (xs.foldl f s).withSup p := by
  induction xs generalizing s with
  | nil => rfl
  | cons x xs ih => rw [List.foldl_cons, h, ih]; rfl

/-! ## Entries and watches -/

theorem withSup_queueEntry (e : EntryNo) : queueEntry (s.withSup p) e = (queueEntry s e).withSup p := by
  cases h : s.queued e with
  | true => simp only [queueEntry, withSup_queued, h, if_true]
  | false => simp only [queueEntry, withSup_queued, h, Bool.false_eq_true, if_false]; rfl

theorem withSup_leaveEntry (e : EntryNo) : leaveEntry (s.withSup p) e = (leaveEntry s e).withSup p := by
  cases hx : s.entry e with
  | none => simp only [leaveEntry, withSup_entry, hx]
  | some x =>
    by_cases last : x.count ≤ 1
    · cases busy : s.writingBack e with
      | true => simp only [leaveEntry, withSup_entry, withSup_writingBack, hx, last, busy, if_true]; rfl
      | false =>
        simp only [leaveEntry, withSup_entry, withSup_writingBack, hx, last, busy, if_true, Bool.false_eq_true, if_false]
        exact withSup_queueEntry (s.setEntry e (some { x with count := 0, state := .closing })) p e
    · simp only [leaveEntry, withSup_entry, hx, last, if_false]; rfl

theorem withSup_examineWatches (k : WatchKind) (n : Nat) (l : LineNo) (held : Bool) :
    examineWatches (s.withSup p) k n l held = (examineWatches s k n l held).withSup p :=
  withSup_foldl s p (fun s p w => by
    have watch : (s.withSup p).watches.get w = s.watches.get w := rfl
    cases hit : (s.watches.get w).matchesEvent k n with
    | false => simp only [watch, hit, Bool.false_eq_true, if_false]
    | true =>
      cases quiet : (held && decide ((s.watches.get w).action = .hold)) with
      | true => simp only [watch, hit, quiet, if_true]; rfl
      | false => simp only [watch, hit, quiet, if_true, Bool.false_eq_true, if_false]; rfl) allWatches

/-! ## Settlement -/

theorem withSup_serveQueue (k : PortNo) : serveQueue (s.withSup p) k = (serveQueue s k).withSup p := by
  cases hg : (s.port k).group with
  | none => simp only [serveQueue, withSup_port, hg]
  | some g =>
    by_cases free : (s.port k).role = .ordinary ∧ (s.port k).state = .free
    · cases hq : (s.group g).queue with
      | nil => simp only [serveQueue, withSup_port, withSup_group, hg, free, and_self, if_true, hq]
      | cons q rest => simp only [serveQueue, withSup_port, withSup_group, hg, free, and_self, if_true, hq]; rfl
    · simp only [serveQueue, withSup_port, hg, free, if_false]

theorem withSup_portByReady (k : PortNo) : portByReady (s.withSup p) k = (portByReady s k).withSup p := by
  cases ready : (s.port k).hostReady with
  | true =>
    simp only [portByReady, withSup_port, ready, if_true]
    exact withSup_serveQueue (s.modPort k (fun x => { x with state := .free })) p k
  | false => simp only [portByReady, withSup_port, ready, Bool.false_eq_true, if_false]; rfl

theorem withSup_releasePort (k : PortNo) (l : LineNo) (out : Bool) :
    releasePort (s.withSup p) k l out = (releasePort s k l out).withSup p := by
  cases out with
  | true => rfl
  | false => exact withSup_portByReady ((hangUp s k).modLine l (fun r => { r with port := none })) p k

theorem withSup_settleClaims (l : LineNo) (out : Bool) :
    settleClaims (s.withSup p) l out = (settleClaims s l out).withSup p := by
  have released : ∀ q, releasePort ((s.withSup p).modLine l (fun r => { r with phase := .closing })) q l out =
      (releasePort (s.modLine l (fun r => { r with phase := .closing })) q l out).withSup p := fun q =>
    withSup_releasePort (s.modLine l (fun r => { r with phase := .closing })) p q l out
  simp only [settleClaims, withSup_line]
  cases (s.line l).port with
  | none => dsimp only; split <;> rfl
  | some q => dsimp only; rw [released q]; split <;> rfl

/-- The closing of the meter between second events, where the Meter takes no action. -/
theorem withSup_closeMeter (l : LineNo) (e : EntryNo) (st : AdmittedStage) :
    closeMeter (fun s _ _ => s) (s.withSup p) l e st none = (closeMeter (fun s _ _ => s) s l e st none).withSup p := by
  by_cases owed : Config.roundUp ≤ (s.line l).residue
  · cases category : (s.line l).lastCategory with
    | none => simp only [closeMeter, withSup_line, owed, if_true, category]; rfl
    | some c => simp only [closeMeter, withSup_line, owed, if_true, category]; rfl
  · simp only [closeMeter, withSup_line, owed, if_false]; rfl

theorem withSup_settleSession (l : LineNo) (st : AdmittedStage) :
    settleSession (fun s _ _ => s) (s.withSup p) l st none = (settleSession (fun s _ _ => s) s l st none).withSup p := by
  have left : ∀ e, leaveEntry ((closeMeter (fun s _ _ => s) (s.withSup p) l e st none).modLine l (fun r =>
      { r with entryRef := none })) e = State.withSup (leaveEntry ((closeMeter (fun s _ _ => s) s l e st none).modLine l (fun r =>
      { r with entryRef := none })) e) p := fun e => by
    rw [withSup_closeMeter s p l e st]
    exact withSup_leaveEntry ((closeMeter (fun s _ _ => s) s l e st none).modLine l (fun r => { r with entryRef := none })) p e
  simp only [settleSession, withSup_line]
  cases (s.line l).entryRef with
  | none =>
    cases (s.line l).account with
    | none => rfl
    | some n => exact withSup_examineWatches s p _ n l false
  | some e =>
    dsimp only
    rw [left e]
    cases (s.line l).account with
    | none => rfl
    | some n => exact withSup_examineWatches _ p _ n l false

theorem withSup_settle (l : LineNo) (cause : EndCause) (out : Bool) :
    settle (fun s _ _ => s) (s.withSup p) l cause out none = (settle (fun s _ _ => s) s l cause out none).withSup p := by
  have work : settleWork (fun s _ _ => s) (s.withSup p) l out none = (settleWork (fun s _ _ => s) s l out none).withSup p := by
    simp only [settleWork, withSup_line]
    rw [withSup_settleClaims s p l out]
    cases (s.line l).phase with
    | admitted st => exact withSup_settleSession _ p l st
    | _ => rfl
  show dropCounts (writeSummary (settleWork (fun s _ _ => s) (s.withSup p) l out none) l cause _) l = _
  rw [work]
  rfl

theorem withSup_enterClosing (l : LineNo) (credits : Nat) :
    enterClosing (s.withSup p) l credits = (enterClosing s l credits).withSup p := by
  cases carrier : (s.line l).carrier with
  | true => simp only [enterClosing, withSup_line, carrier, if_true]; rfl
  | false => simp only [enterClosing, withSup_line, carrier, Bool.false_eq_true, if_false]; rfl

theorem withSup_endNow (l : LineNo) (cause : EndCause) (out : Bool) :
    endCallWith (fun s _ _ => s) (s.withSup p) l cause out none =
      (endCallWith (fun s _ _ => s) s l cause out none).withSup p := by
  cases inCall : (s.line l).phase.inCall with
  | true =>
    simp only [endCallWith, withSup_line, inCall, if_true]
    rw [withSup_settle s p l cause out]
    exact withSup_enterClosing (settle (fun s _ _ => s) s l cause out none) p l _
  | false => simp only [endCallWith, withSup_line, inCall, Bool.false_eq_true, if_false]

/-! ## The Meter's actions -/

theorem withSup_warnLow (e : EntryNo) : warnLow (s.withSup p) e = (warnLow s e).withSup p :=
  withSup_foldl s p (fun s p l => by
    cases warned : (s.line l).lowWarned with
    | true => simp only [withSup_line, warned, if_true]
    | false => simp only [withSup_line, warned, Bool.false_eq_true, if_false]; rfl) (s.sessions e)

theorem withSup_cancelExhaustion (e : EntryNo) : cancelExhaustion (s.withSup p) e = (cancelExhaustion s e).withSup p :=
  withSup_foldl s p (fun _ _ _ => rfl) (s.sessions e)

theorem withSup_beginExhaustion {endNow : State → LineNo → State} (h : ∀ s p l, endNow (s.withSup p) l = (endNow s l).withSup p)
    (e : EntryNo) : beginExhaustion endNow (s.withSup p) e = (beginExhaustion endNow s e).withSup p :=
  withSup_foldl s p (fun s p l => by
    have policy : (s.withSup p).policy ((s.withSup p).lineClass l) = s.policy (s.lineClass l) := rfl
    cases counting : (s.line l).exhaustion with
    | some _ => simp only [withSup_line, counting]
    | none =>
      by_cases none_ : (s.policy (s.lineClass l)).exhaustionGrace = 0
      · simp only [withSup_line, counting, policy, none_, if_true]
        exact h (requestMessage (s.modLine l (fun r => { r with exhaustion := some 0 })) l 11 0) p l
      · simp only [withSup_line, counting, policy, none_, if_false]
        rfl) (s.sessions e)

/-- The Meter's action between second events does not look at the supervisor port. -/
theorem withSup_meterAction (e : EntryNo) (old : CreditState) :
    meterAction noSecond (s.withSup p) e old = (meterAction noSecond s e old).withSup p := by
  have begins := withSup_beginExhaustion s p (endNow := fun s l => endCallWith (fun s _ _ => s) s l .exhausted false none)
    (fun s p l => withSup_endNow s p l .exhausted false) e
  simp only [meterAction, creditAction, withSup_entry]
  cases s.entry e with
  | none => rfl
  | some x =>
    dsimp only
    cases old <;> cases creditState x.acct
    case normal.low => exact withSup_warnLow s p e
    case normal.exhausted => exact begins
    case low.exhausted => exact begins
    case exhausted.normal => exact withSup_cancelExhaustion s p e
    case exhausted.low => exact (congrArg (fun t => warnLow t e) (withSup_cancelExhaustion s p e)).trans (withSup_warnLow _ p e)
    all_goals rfl

end

end Sys2Proof.Machine
end

/-! # The requests on an open account (O49) -/
section
namespace Sys2Proof.Machine

/-- A state as a completed request leaves it: the response is offered on a port that accepted it (R199, R201). -/
def State.answering (s : State) (p : SupPort) (clamped : Bool) (result : List Byte) : State :=
  s.withSup (p.answered (okCode clamped) clamped result)

/-- The state after the supervisor class has had its turn, but for the supervisor port (R11). -/
def State.turned (s : State) : State := { s with ctl := { s.ctl with rotation := .signOn, waiting := none } }

theorem requested_eq (s : State) : s.requested = s.turned.withSup s.sup.accepted := rfl

theorem respond_withSup (s : State) (p : SupPort) (clamped : Bool) (result : List Byte) :
    respond (s.withSup p.accepted) .ok clamped result = s.answering p clamped result := by
  rw [respond_ok]
  rfl

/-- The state after an edit of the copies of an entry and the Meter's action (R45, R133). -/
def State.edited (s : State) (e : EntryNo) (x : OatEntry) (a : Account) : State :=
  meterAction noSecond (s.setEntry e (some { x with acct := a, dirty := true })) e (creditState x.acct)

/-- An edit of an open account that writes. -/
theorem editOpen_writes {d : Edit} (h : d.writes = true) (s : State) (p : SupPort) (e : EntryNo) (x : OatEntry) :
    editOpen (s.withSup p.accepted) e x d = (s.edited e x d.acct).answering p d.clamped d.result := by
  have meter := withSup_meterAction (s.setEntry e (some { x with acct := d.acct, dirty := true })) p.accepted e (creditState x.acct)
  simp only [editOpen, h, if_true]
  refine (congrArg (fun t => respond t .ok d.clamped d.result) meter).trans ?_
  exact respond_withSup _ p d.clamped d.result

section
variable {s : State} {n : Nat} {e : EntryNo} {x : OatEntry}

/-- A request that edits an account finds it open. -/
theorem editAccount_open (ho : s.openAccount n = some (e, x)) (o : WriteOutcome) (clamped : Bool) (f : Account → Edit) :
    editAccount s o n clamped f = editOpen s e x (f x.acct) := by
  simp only [editAccount, ho]

theorem readAndClear_open (ho : s.openAccount n = some (e, x)) (o : WriteOutcome) :
    readAndClear s o n = respond (s.setEntry e (some { x with acct := clearTotals x.acct, dirty := true })) .ok false
      (totalsBytes x.acct) := by
  simp only [readAndClear, ho]

theorem retire_open (ho : s.openAccount n = some (e, x)) (o : WriteOutcome) :
    retire s o n = respond (retireOpen s e x) .ok false [1] := by
  simp only [retire, ho]

theorem retireOpen_again (h : x.retirePending = true) : retireOpen s e x = s := by
  simp only [retireOpen, h, if_true]

theorem retireOpen_marks (h : x.retirePending = false) (hs : x.state ≠ .stuck) :
    retireOpen s e x = s.setEntry e (some { x with retirePending := true }) := by
  simp only [retireOpen, h, hs, Bool.false_eq_true, if_false]

/-- RETIRE queues a STUCK entry, which becomes CLOSING (R44). -/
theorem retireOpen_stuck (h : x.retirePending = false) (hs : x.state = .stuck) (hq : e ∉ s.oat.writeBackList) :
    retireOpen s e x =
      let queued := s.setEntry e (some { x with retirePending := true, state := .closing })
      { queued with oat := { queued.oat with writeBackList := s.oat.writeBackList ++ [e] } } := by
  have unqueued : ∀ y, State.queued (s.setEntry e y) e = false := fun y => by simpa [State.queued] using hq
  simp only [retireOpen, h, hs, if_true, queueEntry, unqueued, Bool.false_eq_true, if_false]
  simp [State.modEntry, State.setEntry, State.entry, Vector.get_eq_getElem]

theorem discardOpen_refused (ho : s.openAccount n = some (e, x)) (hs : x.state ≠ .stuck) :
    discardOpen s n = respond s .wrongState false [] := by
  simp only [discardOpen, ho, hs, if_false]

/-- DISCARD_OPEN frees a STUCK entry (R43). -/
theorem discardOpen_frees (ho : s.openAccount n = some (e, x)) (hs : x.state = .stuck) :
    discardOpen s n = respond (freeEntry s e) .ok false [] := by
  simp only [discardOpen, ho, hs, if_true]

/-- An entry outside the write-back list is freed by itself (R36). -/
theorem freeEntry_unlisted (hq : e ∉ s.oat.writeBackList) : freeEntry s e = s.setEntry e none := by
  have kept : s.oat.writeBackList.filter (fun k => decide (k ≠ e)) = s.oat.writeBackList :=
    List.filter_eq_self.2 fun k hk => decide_eq_true fun same => hq (same ▸ hk)
  rw [freeEntry, setEntry_list, kept]
  rfl

/-- The kinds of requests on the account of a number that complete at once where it is open (R15; log entry 11). -/
theorem request_atOnce (hs : Ready s) (ho : s.openAccount n = some (e, x)) {i : Instr} {r : StoreReq} (h : Passes s i r)
    (hr : requestNeedsStore s.requested r = recordNeedsStore s.requested n) :
    execAll [i, .rotationChoice] s = .next (performRequest s.requested [] r) := by
  have opened : s.requested.openAccount n = some (e, x) := ho
  refine execAll_atOnce hs h (hr.trans ?_) []
  exact Bool.eq_false_iff.2 (mt recordNeedsStore_iff.1 (by rw [opened]; nofun))

/-- An edit of an open account, from its frame to its response. -/
theorem edit_open (hs : Ready s) (ho : s.openAccount n = some (e, x)) {i : Instr} {r : StoreReq} (h : Passes s i r)
    (hr : requestNeedsStore s.requested r = recordNeedsStore s.requested n) {clamped : Bool} {f : Account → Edit}
    (hf : performRequest s.requested [] r = editAccount s.requested (firstOutcome []) n clamped f)
    (hw : (f x.acct).writes = true) :
    execAll [i, .rotationChoice] s =
      .next ((s.turned.edited e x (f x.acct).acct).answering s.sup (f x.acct).clamped (f x.acct).result) := by
  have opened : s.requested.openAccount n = some (e, x) := ho
  rw [request_atOnce hs ho h hr, hf, editAccount_open opened, requested_eq, editOpen_writes hw]

end

/-- Settles O49, request by request. -/
theorem requestsOnOpenAccount : Obligations.RequestsOnOpenAccount := by
  unfold Obligations.RequestsOnOpenAccount
  intro n e x s hb ha hp turn h1 h2 hx hn ceiling only turned runs answered changed a balance
  have hs : Ready s := ⟨hb, hp, turn⟩
  have ho : s.openAccount n = some (e, x) := openAccount_eq_some hx hn only
  have hr : s.requested.openAccount n = some (e, x) := ho
  have edits : ∀ {i : Instr} {r : StoreReq} {clamped : Bool} {f : Account → Edit} {b : Account} {c : Bool} {result : List Byte},
      Passes s i r → requestNeedsStore s.requested r = recordNeedsStore s.requested n →
      performRequest s.requested [] r = editAccount s.requested (firstOutcome []) n clamped f →
      f a = { acct := b, clamped := c, result := result } → runs i (answered (changed b) c result) := by
    intro i r clamped f b c result passes needs performs edit
    have done := edit_open hs ho passes needs performs (by rw [show f x.acct = _ from edit])
    rw [show f x.acct = _ from edit] at done
    exact done
  have retires : execAll [.retire n, .rotationChoice] s = .next (performRequest s.requested [] (.retire n)) :=
    request_atOnce hs ho (passes_of ha h1 h2 rfl rfl rfl rfl rfl) rfl
  have discards : execAll [.discardOpen n, .rotationChoice] s = .next (performRequest s.requested [] (.discard n)) :=
    execAll_atOnce hs (passes_of ha h1 h2 rfl rfl rfl rfl rfl) rfl []
  refine ⟨?_, fun amount some => ?_, fun amount => ?_, ?_, fun chars fits => ?_, fun f => ?_, ?_, fun again => ?_, fun first live => ?_,
    fun first stuck unlisted => ?_, fun live => ?_, fun stuck unlisted => ?_⟩
  · have passes : Passes s (.grant n 0) (.grant n 0) := passes_of ha h1 h2 rfl rfl rfl rfl rfl
    refine (request_atOnce hs ho passes rfl).trans (congrArg _ ?_)
    refine (editAccount_open hr _ _ _).trans ?_
    rw [editGrant_zero ceiling]
    exact respond_withSup s.turned s.sup false _
  · refine edits (r := .grant n amount) (passes_of ha h1 h2 rfl rfl rfl rfl rfl) rfl rfl ?_
    show editGrant amount a = _
    have writes : (editGrant amount a).writes = true := decide_eq_true some
    rw [← editGrant_acct, ← editGrant_clamped, ← writes]
    rfl
  · exact edits (r := .revoke n amount) (f := editRevoke amount) (passes_of ha h1 h2 rfl rfl rfl rfl rfl) rfl rfl rfl
  · exact edits (r := .forgive n) (f := editForgive) (passes_of ha h1 h2 rfl rfl rfl rfl rfl) rfl rfl rfl
  · exact edits (f := editPassword chars) (passes_setPassword ha h1 h2 fits) rfl rfl rfl
  · exact edits (passes_change ha h1 h2 f) rfl rfl (editChange_frame f a)
  · refine (request_atOnce hs ho (r := .readAndClear n) (passes_of ha h1 h2 rfl rfl rfl rfl rfl) rfl).trans (congrArg _ ?_)
    refine (readAndClear_open hr _).trans ?_
    rw [totalsBytes_eq]
    exact respond_withSup (s.turned.setEntry e _) s.sup false _
  · refine retires.trans (congrArg _ ((retire_open hr _).trans ?_))
    rw [retireOpen_again again]
    exact respond_withSup s.turned s.sup false _
  · refine retires.trans (congrArg _ ((retire_open hr _).trans ?_))
    rw [retireOpen_marks first live]
    exact respond_withSup (s.turned.setEntry e _) s.sup false _
  · refine retires.trans (congrArg _ ((retire_open hr _).trans ?_))
    rw [retireOpen_stuck (s := s.requested) first stuck unlisted, respond_ok]
    rfl
  · refine discards.trans (congrArg _ ((discardOpen_refused hr live).trans ?_))
    rw [respond_code _ (c := .wrongState) nofun]
    rfl
  · refine discards.trans (congrArg _ ((discardOpen_frees hr stuck).trans ?_))
    rw [freeEntry_unlisted (s := s.requested) unlisted]
    exact respond_withSup (s.turned.setEntry e none) s.sup false _

end Sys2Proof.Machine
end

/-! # One call ended by RESTART (R196)

With no queue to serve, the settlement of a call for RESTART touches its own line, the port that line names, queue places, entries,
watches and items; of another line at most messages and the signs of a low or exhausted balance. -/
section
namespace Sys2Proof.Machine

/-! ## What the Meter says to other lines -/

/-- A line's record after messages and the Meter's signs; only a session's has any. -/
def Murmur (r r' : LineRec) : Prop :=
  r' = { r with current := r'.current, pending := r'.pending, txBusy := r'.txBusy, exhaustion := r'.exhaustion,
                lowWarned := r'.lowWarned } ∧
    (r.phase.isAdmitted = false → r' = r)

theorem Murmur.refl (r : LineRec) : Murmur r r := ⟨rfl, fun _ => rfl⟩

theorem Murmur.phase {r r' : LineRec} (h : Murmur r r') : r'.phase = r.phase := by rw [h.1]

theorem Murmur.trans {r r' r'' : LineRec} (h : Murmur r r') (k : Murmur r' r'') : Murmur r r'' :=
  ⟨k.1.trans (by rw [h.1]), fun hr => (k.2 (by rw [h.phase, hr])).trans (h.2 hr)⟩

theorem murmur_of_admitted {r r' : LineRec} (ha : r.phase.isAdmitted = true)
    (h : r' = { r with current := r'.current, pending := r'.pending, txBusy := r'.txBusy, exhaustion := r'.exhaustion,
                       lowWarned := r'.lowWarned }) : Murmur r r' :=
  ⟨h, fun hr => by rw [ha] at hr; cases hr⟩

/-- The Line Controller alone differs, and of it the records of sessions, in messages and the Meter's signs, and the bus. -/
def Murmurs (s t : State) : Prop := (∀ k, Murmur (s.line k) (t.line k)) ∧ t = { s with lc := t.lc }

theorem Murmurs.refl (s : State) : Murmurs s s := ⟨fun _ => .refl _, rfl⟩

theorem Murmurs.trans {a b c : State} (h : Murmurs a b) (k : Murmurs b c) : Murmurs a c :=
  ⟨fun l => (h.1 l).trans (k.1 l), by rw [k.2, h.2]⟩

theorem Murmurs.pa {s t : State} (h : Murmurs s t) : t.pa = s.pa := by rw [h.2]

theorem murmurs_modLine {s : State} {l : LineNo} {f : LineRec → LineRec} (h : Murmur (s.line l) (f (s.line l))) :
    Murmurs s (s.modLine l f) := by
  refine ⟨fun k => ?_, rfl⟩
  rw [modLine_line]
  split
  · subst_vars; exact h
  · exact .refl _

theorem murmurs_requestMessage {s : State} {l : LineNo} (ha : (s.line l).phase.isAdmitted = true) (n : MsgNo) (i : Nat) :
    Murmurs s (requestMessage s l n i) := by
  refine ⟨fun k => ?_, rfl⟩
  by_cases hk : k = l
  · subst hk
    obtain ⟨current, pending, busy, e⟩ := request_line k s.lc n i
    refine murmur_of_admitted ha ?_
    rw [show (requestMessage s k n i).line k = _ from e]
    rfl
  · rw [show (requestMessage s l n i).line k = s.line k from (speaksOnly_request l s.lc n i).others k hk]
    exact .refl _

/-- Steps for sessions, one after another. -/
theorem murmurs_sessions {f : State → LineNo → State}
    (h : ∀ s l, (s.line l).phase.isAdmitted = true → Murmurs s (f s l)) (s : State) (e : EntryNo) :
    Murmurs s ((s.sessions e).foldl f s) := by
  have admitted : ∀ l ∈ s.sessions e, (s.line l).phase.isAdmitted = true := fun l hl => by
    simp only [State.sessions, List.mem_filter, Bool.and_eq_true] at hl
    exact hl.2.1
  generalize s.sessions e = ls at admitted
  induction ls generalizing s with
  | nil => exact .refl s
  | cons l ls ih =>
    have first := h s l (admitted l List.mem_cons_self)
    exact first.trans (ih _ fun k hk => by rw [(first.1 k).phase]; exact admitted k (List.mem_cons_of_mem l hk))

theorem murmurs_warnLow (s : State) (e : EntryNo) : Murmurs s (warnLow s e) := by
  refine murmurs_sessions (fun s l ha => ?_) s e
  split
  · exact .refl s
  · have told := murmurs_requestMessage ha 10 (s.lineAllotment l)
    exact told.trans (murmurs_modLine (murmur_of_admitted (by rw [(told.1 l).phase, ha]) rfl))

theorem murmurs_cancelExhaustion (s : State) (e : EntryNo) : Murmurs s (cancelExhaustion s e) :=
  murmurs_sessions (fun _ _ ha => murmurs_modLine (murmur_of_admitted ha rfl)) s e

theorem murmurs_beginExhaustion (s : State) (e : EntryNo) : Murmurs s (beginExhaustion (fun s _ => s) s e) := by
  refine murmurs_sessions (fun s l ha => ?_) s e
  dsimp only
  split
  · exact .refl s
  · have counts : Murmurs s (s.modLine l (fun r =>
        { r with exhaustion := some (s.policy (s.lineClass l)).exhaustionGrace })) :=
      murmurs_modLine (murmur_of_admitted ha rfl)
    have told := counts.trans (murmurs_requestMessage (by rw [(counts.1 l).phase, ha]) 11
      (s.policy (s.lineClass l)).exhaustionGrace)
    split <;> exact told

/-- The Meter's action while RESTART settles (R133, R196). -/
theorem murmurs_restartAction (s : State) (e : EntryNo) (old : CreditState) : Murmurs s (restartAction s e old) := by
  unfold restartAction creditAction
  cases s.entry e with
  | none => exact .refl s
  | some x =>
    dsimp only
    cases old <;> cases creditState x.acct
    case normal.low => exact murmurs_warnLow s e
    case normal.exhausted => exact murmurs_beginExhaustion s e
    case low.exhausted => exact murmurs_beginExhaustion s e
    case exhausted.normal => exact murmurs_cancelExhaustion s e
    case exhausted.low => exact (murmurs_cancelExhaustion s e).trans (murmurs_warnLow _ e)
    all_goals exact .refl s

/-! ## The closing of a session -/

/-- A state has a record for one line, other lines murmured at most, and the ports and groups of another state. -/
structure Leaves (s t : State) (l : LineNo) (r : LineRec) : Prop where
  own : t.line l = r
  others : ∀ k, k ≠ l → Murmur (s.line k) (t.line k)
  pa : t.pa = s.pa

theorem leaves_modLine (s : State) (l : LineNo) (f : LineRec → LineRec) : Leaves s (s.modLine l f) l (f (s.line l)) :=
  ⟨by simp, fun k hk => by rw [modLine_line, if_neg hk]; exact .refl _, rfl⟩

theorem Leaves.trans {a b c : State} {l : LineNo} {r r' : LineRec} (h : Leaves a b l r) (k : Leaves b c l r') : Leaves a c l r' :=
  ⟨k.own, fun j hj => (h.others j hj).trans (k.others j hj), k.pa.trans h.pa⟩

/-- What leaves lines, ports and groups. -/
theorem Leaves.of_parts {s t u : State} {l : LineNo} {r : LineRec} (h : Leaves s t l r) (hlc : u.lc = t.lc) (hpa : u.pa = t.pa) :
    Leaves s u l r := by
  have line : ∀ k, u.line k = t.line k := fun k => by simp [State.line, hlc]
  exact ⟨(line l).trans h.own, fun k hk => by rw [line]; exact h.others k hk, hpa.trans h.pa⟩

/-- The Meter acts, with the line itself no session. -/
theorem Leaves.murmurs {s t u : State} {l : LineNo} {r : LineRec} (h : Leaves s t l r) (ha : r.phase.isAdmitted = false)
    (k : Murmurs t u) : Leaves s u l r :=
  ⟨((k.1 l).2 (by rw [h.own]; exact ha)).trans h.own, fun j hj => (h.others j hj).trans (k.1 j), k.pa.trans h.pa⟩

/-- The credits charged to a session with the closing of its meter (R132). -/
def LineRec.closingCharge (r : LineRec) : Nat :=
  if 30000 ≤ r.residue ∧ r.lastCategory ≠ none then satSucc max24 r.charged else r.charged

theorem closingCharge_eq (r : LineRec) : r.closingCharge =
    r.charged + if 30000 ≤ r.residue ∧ r.lastCategory ≠ none ∧ r.charged < 16777215 then 1 else 0 := by
  unfold LineRec.closingCharge satSucc max24
  by_cases h : 30000 ≤ r.residue ∧ r.lastCategory ≠ none
  · rw [if_pos h]
    by_cases hc : r.charged < 16777215
    · rw [if_pos hc, if_pos ⟨h.1, h.2, hc⟩]
    · rw [if_neg hc, if_neg fun all => hc all.2.2]; rfl
  · rw [if_neg h, if_neg fun all => h ⟨all.1, all.2.1⟩]; rfl

/-- The closing of a meter that owes nothing. -/
theorem closeMeter_idle (act : State → EntryNo → CreditState → State) {s : State} {l : LineNo}
    (h : ¬(30000 ≤ (s.line l).residue ∧ (s.line l).lastCategory ≠ none)) (e : EntryNo) (st : AdmittedStage) :
    closeMeter act s l e st none = s.modLine l (fun r => { r with residue := 0 }) := by
  by_cases owed : Config.roundUp ≤ (s.line l).residue
  · have category : (s.line l).lastCategory = none := by_contra fun some => h ⟨owed, some⟩
    simp only [closeMeter, owed, if_true, category]
  · simp only [closeMeter, owed, if_false]

/-- The closing of a meter that owes a credit. -/
theorem closeMeter_owing (act : State → EntryNo → CreditState → State) {s : State} {l : LineNo} {c : Category}
    (h : 30000 ≤ (s.line l).residue) (hc : (s.line l).lastCategory = some c) (e : EntryNo) (st : AdmittedStage) :
    closeMeter act s l e st none = (act (postCredit s e l c) e (s.creditOf e)).modLine l (fun r => { r with residue := 0 }) := by
  have owed : Config.roundUp ≤ (s.line l).residue := h
  simp only [closeMeter, owed, if_true, hc]

/-- The closing of the meter of a line that has left its stage. -/
theorem leaves_closeMeter {s : State} {l : LineNo} (ha : (s.line l).phase.isAdmitted = false) (e : EntryNo) (st : AdmittedStage) :
    Leaves s (closeMeter restartAction s l e st none) l
      { s.line l with residue := 0, charged := (s.line l).closingCharge } := by
  by_cases owing : 30000 ≤ (s.line l).residue ∧ (s.line l).lastCategory ≠ none
  · obtain ⟨c, category⟩ := Option.ne_none_iff_exists'.1 owing.2
    have counted := leaves_modLine (s.modEntry e (fun x => { x with acct := x.acct.debit c, dirty := true })) l
      (fun r => { r with charged := satSucc max24 r.charged })
    have posted : Leaves s (postCredit s e l c) l { s.line l with charged := satSucc max24 (s.line l).charged } :=
      ⟨counted.own, counted.others, counted.pa⟩
    have acted := posted.murmurs ha (murmurs_restartAction (postCredit s e l c) e (s.creditOf e))
    have closed := acted.trans (leaves_modLine (restartAction (postCredit s e l c) e (s.creditOf e)) l
      (fun r => { r with residue := 0 }))
    rw [acted.own] at closed
    rw [closeMeter_owing _ owing.1 category, LineRec.closingCharge, if_pos owing]
    exact closed
  · rw [closeMeter_idle _ owing, LineRec.closingCharge, if_neg owing]
    exact leaves_modLine s l (fun r => { r with residue := 0 })

theorem leaveEntry_parts (s : State) (e : EntryNo) : ∃ oat, leaveEntry s e = { s with oat := oat } := by
  unfold leaveEntry
  split
  · exact ⟨s.oat, rfl⟩
  · dsimp only
    split
    · split
      · exact ⟨_, rfl⟩
      · exact ⟨_, queueEntry_oat _ e⟩
    · exact ⟨_, rfl⟩

/-- A session that ends leaves its entry, and the watches are asked where its account is known. -/
theorem settleSession_of_ref (act : State → EntryNo → CreditState → State) {s : State} {l : LineNo} {e : EntryNo}
    (he : (s.line l).entryRef = some e) (st : AdmittedStage) (ended : Option View) :
    let left := leaveEntry ((closeMeter act s l e st ended).modLine l (fun r => { r with entryRef := none })) e
    settleSession act s l st ended = left ∨ ∃ n, settleSession act s l st ended = examineWatches left .sessionEnd n l false := by
  cases ha : (s.line l).account with
  | none => exact .inl (by simp only [settleSession, he, ha])
  | some n => exact .inr ⟨n, by simp only [settleSession, he, ha]⟩

/-- Parts 3 to 6 of the settlement of a session (R188 to R190). -/
theorem leaves_settleSession {s : State} {l : LineNo} {e : EntryNo} (ha : (s.line l).phase.isAdmitted = false)
    (he : (s.line l).entryRef = some e) (st : AdmittedStage) :
    Leaves s (settleSession restartAction s l st none) l
      { s.line l with residue := 0, charged := (s.line l).closingCharge, entryRef := none } := by
  have metered := leaves_closeMeter ha e st
  have freed := metered.trans (leaves_modLine (closeMeter restartAction s l e st none) l (fun r => { r with entryRef := none }))
  rw [metered.own] at freed
  obtain ⟨oat, left⟩ := leaveEntry_parts ((closeMeter restartAction s l e st none).modLine l (fun r =>
    { r with entryRef := none })) e
  have out : Leaves s (leaveEntry ((closeMeter restartAction s l e st none).modLine l (fun r => { r with entryRef := none })) e) l
      { s.line l with residue := 0, charged := (s.line l).closingCharge, entryRef := none } :=
    freed.of_parts (by rw [left]) (by rw [left])
  rcases settleSession_of_ref restartAction he st none with e | ⟨n, e⟩
  · rw [e]
    exact out
  · rw [e]
    obtain ⟨hlc, hpa⟩ := examineWatches_lc_pa (leaveEntry ((closeMeter restartAction s l _ st none).modLine l (fun r =>
      { r with entryRef := none })) _) .sessionEnd n l false
    exact out.of_parts hlc hpa

end Sys2Proof.Machine
end

/-! # What RESTART leaves of one call, of its port and of its queue place (R196) -/
section
namespace Sys2Proof.Machine

/-! ## The port and the queue place -/

/-- A port given up, with nobody waiting for it (R161). -/
def PortRec.freed (x : PortRec) : PortRec :=
  { x with state := if x.hostReady then .free else .notReady, line := none, callTimer := none }

/-- The port that a line names has no queue to serve. -/
def NobodyWaits (s : State) (l : LineNo) : Prop :=
  ∀ p, (s.line l).port = some p → ∀ g, (s.port p).group = some g → (s.group g).queue = []

theorem serveQueue_nobody {s : State} {p : PortNo} (h : ∀ g, (s.port p).group = some g → (s.group g).queue = []) :
    serveQueue s p = s := by
  cases hg : (s.port p).group with
  | none => simp only [serveQueue, hg]
  | some g => simp only [serveQueue, hg, h g hg, ite_self]

/-- A port released with nobody waiting for it. -/
theorem releasePort_nobody {s : State} {p : PortNo} (h : ∀ g, (s.port p).group = some g → (s.group g).queue = []) (l : LineNo) :
    (∀ k, (releasePort s p l false).line k = if k = l then { s.line l with port := none } else s.line k) ∧
      (∀ q, (releasePort s p l false).port q = if q = p then (s.port p).freed else s.port q) ∧
      ∀ g, (releasePort s p l false).group g = s.group g := by
  have served : ∀ u : State, (u.port p).group = (s.port p).group → (∀ g, u.group g = s.group g) → serveQueue u p = u :=
    fun u hp hg => serveQueue_nobody fun g hgp => by rw [hg]; exact h g (hp ▸ hgp)
  have ready : (((hangUp s p).modLine l (fun r => { r with port := none })).port p).hostReady = (s.port p).hostReady := by
    simp [hangUp]
  cases hr : (s.port p).hostReady with
  | true =>
    have freed : releasePort s p l false = ((hangUp s p).modLine l (fun r => { r with port := none })).modPort p
        (fun x => { x with state := .free }) := by
      simp only [releasePort, portByReady, Bool.false_eq_true, if_false, ready, hr, if_true]
      exact served _ (by simp [hangUp]) fun g => by simp [hangUp]
    rw [freed]
    refine ⟨fun k => by simp, fun q => ?_, fun g => by simp [hangUp]⟩
    by_cases hq : q = p
    · subst hq; simp [hangUp, PortRec.freed, hr]
    · simp [hangUp, hq]
  | false =>
    have freed : releasePort s p l false = ((hangUp s p).modLine l (fun r => { r with port := none })).modPort p
        (fun x => { x with state := .notReady }) := by
      simp only [releasePort, portByReady, Bool.false_eq_true, if_false, ready, hr]
    rw [freed]
    refine ⟨fun k => by simp, fun q => ?_, fun g => by simp [hangUp]⟩
    by_cases hq : q = p
    · subst hq; simp [hangUp, PortRec.freed, hr]
    · simp [hangUp, hq]

/-- What giving up its claims leaves, with nobody waiting for its port: the line in CLOSING, its port freed, and queue places. -/
structure GivesUp (s t : State) (l : LineNo) : Prop where
  own : t.line l = { s.line l with phase := .closing, port := none }
  others : ∀ k, k ≠ l → t.line k = s.line k
  port : ∀ p, t.port p = if (s.line l).port = some p then (s.port p).freed else s.port p
  group : ∀ g, t.group g = { s.group g with queue := (t.group g).queue }

theorem givesUp_settleClaims {s : State} {l : LineNo} (h : NobodyWaits s l) : GivesUp s (settleClaims s l false) l := by
  have unqueued : ∀ {t : State} (g : GroupNo), GivesUp s t l → GivesUp s (removePlace t g l) l := fun {t} g k => by
    refine ⟨k.own, k.others, k.port, fun j => ?_⟩
    rw [removePlace, modGroup_group]
    split
    · subst_vars
      rw [k.group]
    · exact k.group j
  have gone : GivesUp s (match (s.line l).port with
      | none => s.modLine l (fun r => { r with phase := .closing })
      | some p => releasePort (s.modLine l (fun r => { r with phase := .closing })) p l false) l := by
    cases hp : (s.line l).port with
    | none =>
      refine ⟨?_, fun k hk => by simp [hk], fun p => (if_neg (by rw [hp]; nofun)).symm, fun _ => rfl⟩
      rw [modLine_line, if_pos rfl, hp]
    | some p =>
      obtain ⟨lines, ports, groups⟩ := releasePort_nobody (s := s.modLine l (fun r => { r with phase := .closing })) (h p hp) l
      refine ⟨by rw [lines, if_pos rfl, modLine_line, if_pos rfl], fun k hk => by rw [lines, if_neg hk]; simp [hk], fun q => ?_,
        fun g => by rw [groups]; rfl⟩
      rw [ports, hp]
      simp only [Option.some.injEq, eq_comm (a := p)]
      split
      · subst_vars; rfl
      · rfl
  unfold settleClaims
  dsimp only
  split
  · exact unqueued _ gone
  · exact gone

/-! ## The whole settlement of a line -/

/-- What is left of the record of a line whose call RESTART has ended (R191, R196). -/
structure EndedBy (minute : Nat) (r r' : LineRec) : Prop where
  phase : r'.phase = .closing
  port : r'.port = none
  entryRef : r'.entryRef = none
  summary : r'.summary = some
    { account := r.account, cause := .restart,
      admittedSeconds := if r.phase.isAdmitted then r.admittedSeconds else 0,
      connectedSeconds := if r.phase.isAdmitted then r.connectedSeconds else 0,
      credits := if r.phase.isAdmitted then r.closingCharge else 0, minute := minute }
  carrier : r'.carrier = r.carrier
  overrun : r'.overrun = r.overrun
  echoSuppressed : r'.echoSuppressed = r.echoSuppressed
  attempt : r'.attempt = r.attempt

/-- What the settlement of one call for RESTART leaves. -/
structure Settles (s t : State) (l : LineNo) : Prop where
  own : EndedBy s.cal.view.minute (s.line l) (t.line l)
  others : ∀ k, k ≠ l → Murmur (s.line k) (t.line k)
  port : ∀ p, t.port p = if (s.line l).port = some p then (s.port p).freed else s.port p
  bus : ∀ p, (s.line l).port = some p → PortCmd.hangUp p ∈ t.pa.bus
  group : ∀ g, t.group g = { s.group g with queue := (t.group g).queue }
  withdrawn : ∀ op ∈ t.ctl.signOnQueue, op.line ≠ l
  keeps : EndKeeps s t

theorem restartAction_keeps (s : State) (e : EntryNo) (old : CreditState) : EndKeeps s (restartAction s e old) :=
  endKeeps_creditAction (fun s _ => .refl s) s e old

/-- The record that settlement has made of its line ahead of the closing summary (R186 to R190). -/
def LineRec.worked (r : LineRec) : LineRec :=
  if r.phase.isAdmitted then
    { r with phase := .closing, port := none, residue := 0, charged := r.closingCharge, entryRef := none }
  else { r with phase := .closing, port := none }

/-- The work of settlement for RESTART, with nobody waiting for the line's port. -/
structure Worked (s t : State) (l : LineNo) : Prop where
  own : t.line l = (s.line l).worked
  others : ∀ k, k ≠ l → Murmur (s.line k) (t.line k)
  port : ∀ p, t.port p = if (s.line l).port = some p then (s.port p).freed else s.port p
  group : ∀ g, t.group g = { s.group g with queue := (t.group g).queue }

theorem worked_settleWork {s : State} {l : LineNo} (h : NobodyWaits s l)
    (ref : (s.line l).entryRef.isSome = (s.line l).phase.isAdmitted) :
    Worked s (settleWork restartAction s l false none) l := by
  have claims := givesUp_settleClaims h
  by_cases ha : (s.line l).phase.isAdmitted = true
  · obtain ⟨st, hst⟩ : ∃ st, (s.line l).phase = .admitted st := by
      cases hp : (s.line l).phase with
      | admitted st => exact ⟨st, rfl⟩
      | _ => rw [hp] at ha; cases ha
    obtain ⟨e, he⟩ := Option.isSome_iff_exists.1 (ref.trans ha)
    have session := leaves_settleSession (s := settleClaims s l false) (l := l) (e := e) (by rw [claims.own]; rfl)
      (by rw [claims.own]; exact he) st
    have work : settleWork restartAction s l false none = settleSession restartAction (settleClaims s l false) l st none := by
      simp only [settleWork, hst]
    rw [work]
    refine ⟨?_, fun k hk => ?_, fun p => ?_, fun g => ?_⟩
    · rw [session.own, claims.own, LineRec.worked, if_pos ha]
      rfl
    · rw [← claims.others k hk]
      exact session.others k hk
    · rw [show State.port (settleSession _ _ _ _ _) p = (settleClaims s l false).port p by simp [State.port, session.pa]]
      exact claims.port p
    · rw [show State.group (settleSession _ _ _ _ _) g = (settleClaims s l false).group g by simp [State.group, session.pa]]
      exact claims.group g
  · have work : settleWork restartAction s l false none = settleClaims s l false := by
      unfold settleWork
      split
      · rename_i hp
        rw [hp] at ha
        exact absurd rfl ha
      · rfl
    rw [work]
    exact ⟨by rw [claims.own, LineRec.worked, if_neg ha], fun k hk => by rw [claims.others k hk]; exact .refl _, claims.port,
      claims.group⟩

/-- A call in its settlement for RESTART. -/
theorem settles_settle {s : State} {l : LineNo} (h : NobodyWaits s l)
    (ref : (s.line l).entryRef.isSome = (s.line l).phase.isAdmitted) :
    Settles s (settle restartAction s l .restart false none) l := by
  have work := worked_settleWork h ref
  have kept := endKeeps_settleWork restartAction_keeps s l false none
  obtain ⟨_, _, _, _, _, _, _, _, _, _, _, _, _, _, _, _, _, withdrawn, _⟩ := settle_left restartAction_keeps s l .restart false none
  have line : (settle restartAction s l .restart false none).line l = _ := settle_line restartAction s l .restart false none
  rw [show (writeSummary (settleWork restartAction s l false none) l .restart (s.line l).phase.isAdmitted).line l = _ from
    (modLine_line _ l l _).trans (if_pos rfl), work.own, kept.cal] at line
  refine ⟨?_, fun k hk => ?_, fun p => ?_, fun p hp => hangUp_mem_settle restartAction_keeps hp _ _ _, fun g => ?_, withdrawn,
    endKeeps_settle restartAction_keeps s l _ _ _⟩
  · rw [line]
    by_cases ha : (s.line l).phase.isAdmitted = true
    · rw [LineRec.worked, if_pos ha]
      exact ⟨rfl, rfl, rfl, rfl, rfl, rfl, rfl, rfl⟩
    · rw [LineRec.worked, if_neg ha]
      exact ⟨rfl, rfl, rfl, by simp [ha], rfl, rfl, rfl, rfl⟩
  · have same : (settle restartAction s l .restart false none).line k = (settleWork restartAction s l false none).line k := by
      simp [settle, dropCounts, emptySlots, writeSummary, withdraw, dropHold, State.line, State.modLine, State.onLines,
        State.onAttention, hk]
    rw [same]
    exact work.others k hk
  · exact work.port p
  · exact work.group g

end Sys2Proof.Machine
end

/-! # Every call ended by RESTART (R196)

`Clearing` says where RESTART stands between two settlements: a line is as it was, but for what the Meter told its session, or its
call is ended; a port is as it was, or freed; and of a group the queue alone has changed. -/
section
namespace Sys2Proof.Machine

/-- A line's record while RESTART ends the calls: out of call as it was, still in call, or ended. -/
def LineCleared (minute : Nat) (r r' : LineRec) : Prop :=
  r.phase.inCall = false ∧ r' = r ∨ r.phase.inCall = true ∧ (Murmur r r' ∨ EndedBy minute r r')

/-- See the head of this part. -/
structure Clearing (s t : State) : Prop where
  line : ∀ l, LineCleared s.cal.view.minute (s.line l) (t.line l)
  unfreed : ∀ p k, (s.port p).line = some k → (t.line k).phase.inCall = true → t.port p = s.port p
  port : ∀ p, t.port p = s.port p ∨ (s.port p).line ≠ none ∧ t.port p = (s.port p).freed ∧ PortCmd.hangUp p ∈ t.pa.bus
  group : ∀ g, t.group g = { s.group g with queue := (t.group g).queue }
  queue : ∀ op ∈ t.ctl.signOnQueue, (t.line op.line).phase.inCall = true
  keeps : EndKeeps s t

theorem not_admitted_of_not_inCall {p : Phase} (h : p.inCall = false) : p.isAdmitted = false := by
  cases p with
  | admitted st => cases h
  | _ => rfl

/-- What the Meter told a session does not show in what is left when it has ended. -/
theorem EndedBy.of_murmur {minute : Nat} {r r' r'' : LineRec} (h : Murmur r r') (k : EndedBy minute r' r'') :
    EndedBy minute r r'' := by
  obtain ⟨e, _⟩ := h
  rw [e] at k
  exact ⟨k.phase, k.port, k.entryRef, k.summary, k.carrier, k.overrun, k.echoSuppressed, k.attempt⟩

theorem EndedBy.not_inCall {minute : Nat} {r r' : LineRec} (h : EndedBy minute r r') : r'.phase.inCall = false := by
  rw [h.phase]; rfl

theorem EndedBy.murmur {minute : Nat} {r r' r'' : LineRec} (h : EndedBy minute r r') (k : Murmur r' r'') :
    EndedBy minute r r'' := by
  rw [k.2 (not_admitted_of_not_inCall h.not_inCall)]
  exact h

theorem LineCleared.murmur {minute : Nat} {r r' r'' : LineRec} (h : LineCleared minute r r') (k : Murmur r' r'') :
    LineCleared minute r r'' := by
  rcases h with ⟨hr, rfl⟩ | ⟨hr, h | h⟩
  · exact .inl ⟨hr, k.2 (not_admitted_of_not_inCall hr)⟩
  · exact .inr ⟨hr, .inl (h.trans k)⟩
  · exact .inr ⟨hr, .inr (h.murmur k)⟩

/-- A line still in call is as it was, but for what the Meter told its session. -/
theorem LineCleared.inCall {minute : Nat} {r r' : LineRec} (h : LineCleared minute r r') (hc : r'.phase.inCall = true) :
    r.phase.inCall = true ∧ Murmur r r' := by
  rcases h with ⟨hr, rfl⟩ | ⟨hr, h | h⟩
  · rw [hr] at hc; cases hc
  · exact ⟨hr, h⟩
  · rw [h.not_inCall] at hc; cases hc

/-- A line out of call is as it was, or its call is ended. -/
theorem LineCleared.not_inCall {minute : Nat} {r r' : LineRec} (h : LineCleared minute r r') (hc : r'.phase.inCall = false) :
    r.phase.inCall = false ∧ r' = r ∨ r.phase.inCall = true ∧ EndedBy minute r r' := by
  rcases h with h | ⟨hr, h | h⟩
  · exact .inl h
  · rw [h.phase, hr] at hc; cases hc
  · exact .inr ⟨hr, h⟩

section
variable {s t : State}

theorem Clearing.refl (hq : SignOnQueueLawful s) : Clearing s s where
  line l := by
    cases hc : (s.line l).phase.inCall with
    | false => exact .inl ⟨hc, rfl⟩
    | true => exact .inr ⟨hc, .inl (.refl _)⟩
  unfreed _ _ _ _ := rfl
  port _ := .inl rfl
  group _ := rfl
  queue op ho := by rw [(hq.2 op ho).2]; rfl
  keeps := .refl s

/-- A port that a line in call names is as it was, and named the line. -/
theorem Clearing.named (hl : LinksLawful s) (h : Clearing s t) {l : LineNo} {p : PortNo} (hc : (t.line l).phase.inCall = true)
    (hp : (t.line l).port = some p) : (s.port p).line = some l ∧ t.port p = s.port p := by
  obtain ⟨ports, _⟩ := hl
  have was : (s.line l).port = some p := by
    obtain ⟨_, e, _⟩ := (h.line l).inCall hc
    rwa [e] at hp
  have back := (ports p l).1.2 was
  exact ⟨back, h.unfreed p l back hc⟩

/-- The settlement of one call keeps RESTART on its way. -/
theorem Clearing.settles (hl : LinksLawful s) (h : Clearing s t) {l : LineNo} {u : State} (hc : (t.line l).phase.inCall = true)
    (k : Settles t u l) : Clearing s u where
  line j := by
    by_cases hj : j = l
    · subst hj
      obtain ⟨hr, told⟩ := (h.line j).inCall hc
      have ended := k.own
      rw [h.keeps.cal] at ended
      exact .inr ⟨hr, .inr (.of_murmur told ended)⟩
    · exact (h.line j).murmur (k.others j hj)
  unfreed p j hp hj := by
    have other : j ≠ l := by
      rintro rfl
      rw [k.own.not_inCall] at hj
      cases hj
    rw [(k.others j other).phase] at hj
    have kept := h.unfreed p j hp hj
    rw [k.port, if_neg, kept]
    intro mine
    have back := (h.named hl hc mine).1
    rw [hp] at back
    exact other (Option.some.inj back)
  port p := by
    rw [k.port]
    split
    · rename_i mine
      obtain ⟨back, kept⟩ := h.named hl hc mine
      exact .inr ⟨by rw [back]; nofun, by rw [kept], k.bus p mine⟩
    · exact (h.port p).imp_right fun ⟨line, freed, bus⟩ => ⟨line, freed, k.keeps.hangUp p bus⟩
  group g := by rw [k.group g, h.group g]
  queue op ho := by
    rw [(k.others op.line (k.withdrawn op ho)).phase]
    exact h.queue op (k.keeps.queue op ho)
  keeps := h.keeps.trans k.keeps

/-- With the queues of other groups' lines settled first, nobody waits for a port that is given up (R196). -/
theorem nobodyWaits (law : IdleLaw t) {l : LineNo}
    (h : (t.line l).phase = .admitted .waiting ∨ ∀ k, (t.line k).phase ≠ .admitted .waiting) : NobodyWaits t l := by
  intro p hp g _
  rcases h with waiting | nobody
  · have holds := law.links.holds l (by rw [show (t.line l).key.port = some p from hp]; rfl)
    rw [key_waiting_holdsPort (key_waiting_iff.2 waiting)] at holds
    cases holds
  · refine List.eq_nil_iff_forall_not_mem.2 fun q hq => ?_
    have placed : q.line ∈ t.places g := List.mem_map.2 ⟨q, hq, rfl⟩
    exact nobody q.line (key_waiting_iff.1 (law.links.placed placed).1)

theorem Clearing.settleForRestart (hl : LinksLawful s) (h : Clearing s t) (law : IdleLaw t) {l : LineNo}
    (nobody : (t.line l).phase.inCall = true →
      (t.line l).phase = .admitted .waiting ∨ ∀ k, (t.line k).phase ≠ .admitted .waiting) :
    Clearing s (settleForRestart t l) := by
  unfold Machine.settleForRestart
  split
  · rename_i hc
    exact h.settles hl hc (settles_settle (nobodyWaits law (nobody hc)) (law.refs l List.not_mem_nil))
  · exact h

/-! ## The three groups of R196 -/

/-- The lines in WAITING, settled first. -/
theorem Clearing.settleWaiting (hl : LinksLawful s) (ls : List LineNo) (waiting : ∀ l ∈ ls, (s.line l).phase = .admitted .waiting)
    (h : Clearing s t) (law : IdleLaw t) : Clearing s (ls.foldl Machine.settleForRestart t) := by
  induction ls generalizing t with
  | nil => exact h
  | cons l ls ih =>
    refine ih (fun k hk => waiting k (List.mem_cons_of_mem l hk)) (h.settleForRestart hl law fun hc => .inl ?_)
      (settleForRestart_closed law l).1
    rw [((h.line l).inCall hc).2.phase]
    exact waiting l List.mem_cons_self

/-- No line that was in WAITING is still in call. -/
def WaitersSettled (s t : State) : Prop := ∀ l, (s.line l).phase = .admitted .waiting → (t.line l).phase.inCall = false

theorem Clearing.none_waiting (h : Clearing s t) (hw : WaitersSettled s t) (k : LineNo) : (t.line k).phase ≠ .admitted .waiting := by
  intro waits
  have hc : (t.line k).phase.inCall = true := by rw [waits]; rfl
  have still := hw k (((h.line k).inCall hc).2.phase ▸ waits)
  rw [hc] at still
  cases still

/-- The lines that follow the waiting ones. -/
theorem Clearing.settleOthers (hl : LinksLawful s) (ls : List LineNo) (h : Clearing s t) (law : IdleLaw t)
    (hw : WaitersSettled s t) :
    Clearing s (ls.foldl Machine.settleForRestart t) ∧ WaitersSettled s (ls.foldl Machine.settleForRestart t) := by
  induction ls generalizing t with
  | nil => exact ⟨h, hw⟩
  | cons l ls ih =>
    obtain ⟨lawful, _, kept⟩ := settleForRestart_closed law l
    exact ih (h.settleForRestart hl law fun _ => .inr (h.none_waiting hw)) lawful fun k hk => kept k (hw k hk)

/-- Every call ended, in the order of R196. -/
theorem clearing_endCalls (hl : LinksLawful s) (hq : SignOnQueueLawful s) (law : IdleLaw s) : Clearing s (endCallsForRestart s) := by
  have waiting : ∀ l ∈ s.linesWaiting, (s.line l).phase = .admitted .waiting := fun l hm =>
    of_decide_eq_true (List.mem_filter.1 hm).2
  have first := (Clearing.refl hq).settleWaiting hl s.linesWaiting waiting law
  obtain ⟨law1, done, _⟩ := settleAll_closed s.linesWaiting law
  have settled : WaitersSettled s (s.linesWaiting.foldl Machine.settleForRestart s) := fun l hp =>
    done l (List.mem_filter.2 ⟨List.mem_finRange l, decide_eq_true hp⟩)
  obtain ⟨second, settled2⟩ := first.settleOthers hl (s.linesWaiting.foldl Machine.settleForRestart s).linesWithPorts law1 settled
  obtain ⟨law2, _, _⟩ := settleAll_closed (s.linesWaiting.foldl Machine.settleForRestart s).linesWithPorts law1
  exact (second.settleOthers hl allLines law2 settled2).1

end

end Sys2Proof.Machine
end

/-! # What RESTART has done when its write-backs begin (R47, R196, R197, R206) -/
section
namespace Sys2Proof.Machine

/-! ## The release of the lines (R77, R197) -/

/-- The record of a line after its release. -/
def LineRec.released (r : LineRec) : LineRec := if r.phase = .down then r else restartLine r

theorem released_down {r : LineRec} (h : r.phase = .down) : r.released = r := if_pos h

theorem released_up {r : LineRec} (h : r.phase ≠ .down) : r.released = restartLine r := if_neg h

theorem released_released (r : LineRec) : r.released.released = r.released := by
  by_cases h : r.phase = .down
  · rw [released_down h, released_down h]
  · rw [released_up h]
    exact released_up (r := restartLine r) nofun

theorem releaseForRestart_line (c : LineCtl) (l k : LineNo) :
    (releaseForRestart c l).line k = if k = l then (c.line l).released else c.line k := by
  cases hp : (c.line l).phase <;> simp only [releaseForRestart, hp, LineRec.released, ctl_modLine_line, issue_line] <;> simp
  intro hk
  rw [hk]

theorem releaseForRestart_bus (c : LineCtl) (l : LineNo) :
    (releaseForRestart c l).bus = if (c.line l).phase = .closing then c.bus ++ [.release l] else c.bus := by
  cases hp : (c.line l).phase <;> simp [releaseForRestart, hp]

theorem releaseLines_line (ls : List LineNo) (c : LineCtl) (k : LineNo) :
    (ls.foldl releaseForRestart c).line k = if k ∈ ls then (c.line k).released else c.line k := by
  induction ls generalizing c with
  | nil => simp
  | cons l ls ih =>
    rw [List.foldl_cons, ih, releaseForRestart_line]
    by_cases hk : k = l
    · subst hk
      simp [released_released]
    · simp [hk]

/-- A RELEASE stays on the bus while further lines are released. -/
theorem releaseLines_bus_mono (ls : List LineNo) {c : LineCtl} {x : LineCmd} (h : x ∈ c.bus) :
    x ∈ (ls.foldl releaseForRestart c).bus := by
  induction ls generalizing c with
  | nil => exact h
  | cons l ls ih =>
    refine ih ?_
    rw [releaseForRestart_bus]
    split
    · exact List.mem_append_left _ h
    · exact h

/-- Every line in CLOSING is sent RELEASE (R77). -/
theorem releaseLines_bus (ls : List LineNo) {c : LineCtl} {k : LineNo} (hk : k ∈ ls) (hp : (c.line k).phase = .closing) :
    LineCmd.release k ∈ (ls.foldl releaseForRestart c).bus := by
  induction ls generalizing c with
  | nil => cases hk
  | cons l ls ih =>
    by_cases same : k = l
    · subst same
      refine releaseLines_bus_mono ls ?_
      rw [releaseForRestart_bus, if_pos hp]
      exact List.mem_append_right _ (List.mem_singleton_self _)
    · exact ih ((List.mem_cons.1 hk).resolve_left same) (by rw [releaseForRestart_line, if_neg same]; exact hp)

theorem onLines_release_line (ls : List LineNo) (t : State) {l : LineNo} (h : l ∈ ls) :
    (t.onLines (fun c => ls.foldl releaseForRestart c)).line l = (t.line l).released :=
  (releaseLines_line ls t.lc l).trans (if_pos h)

theorem onLines_release_bus (ls : List LineNo) (t : State) {l : LineNo} (h : l ∈ ls) (hp : (t.line l).phase = .closing) :
    LineCmd.release l ∈ (t.onLines (fun c => ls.foldl releaseForRestart c)).lc.bus :=
  releaseLines_bus ls h hp

/-! ## What every move keeps of the entries -/

/-- What identifies an entry, and its retire pending mark. -/
def OatEntry.mark (x : OatEntry) : SlotNo × Bool := (x.slot, x.retirePending)

/-- Each entry is there or not as before, with its slot and its retire pending mark, and the write-back list has grown at its end. -/
structure MarksKept (s t : State) : Prop where
  entry : ∀ e, (t.entry e).map OatEntry.mark = (s.entry e).map OatEntry.mark
  list : s.oat.writeBackList <+: t.oat.writeBackList

theorem MarksKept.of_oat {s t : State} (h : t.oat = s.oat) : MarksKept s t :=
  ⟨fun e => by rw [entry_of_oat h], by rw [h]⟩

theorem marksKept_setEntry {s : State} {e : EntryNo} {x y : OatEntry} (hx : s.entry e = some x) (h : y.mark = x.mark) :
    MarksKept s (s.setEntry e (some y)) := by
  refine ⟨fun k => ?_, List.prefix_rfl⟩
  rw [setEntry_entry]
  split
  · subst_vars
    rw [hx, Option.map_some, Option.map_some, h]
  · rfl

theorem marksKept_queueEntry (s : State) (e : EntryNo) : MarksKept s (queueEntry s e) := by
  refine ⟨fun k => ?_, ?_⟩
  · rw [queueEntry_entry]
    split
    · rename_i h
      obtain ⟨rfl, _⟩ := h
      rw [Option.map_map]
      rfl
    · rfl
  · rw [queueEntry_list]
    split
    · exact List.prefix_rfl
    · exact List.prefix_append _ _

theorem MarksKept.trans {a b c : State} (h : MarksKept a b) (k : MarksKept b c) : MarksKept a c :=
  ⟨fun e => (k.entry e).trans (h.entry e), h.list.trans k.list⟩

theorem marksKept_leaveEntry (s : State) (e : EntryNo) : MarksKept s (leaveEntry s e) := by
  unfold leaveEntry
  split
  · exact .of_oat rfl
  · rename_i x hx
    dsimp only
    split
    · split
      · exact marksKept_setEntry hx rfl
      · exact (marksKept_setEntry (y := { x with count := 0, state := .closing }) hx rfl).trans (marksKept_queueEntry _ e)
    · exact marksKept_setEntry hx rfl

/-- Every move of lines, sessions and the Meter keeps the entries apart and marked. -/
theorem marksKept_lifts : Lifts MarksKept where
  refl _ := .of_oat rfl
  trans := MarksKept.trans
  calm h := .of_oat h.oat
  edit hx h := marksKept_setEntry hx (by rw [h.rest]; rfl)
  queue := marksKept_queueEntry
  leave := marksKept_leaveEntry

/-! ## The state in which the write-backs begin -/

/-- No further call is accepted (R206). -/
def State.shut (s : State) : State := s.onLines (fun c => { c with params := { c.params with acceptingCalls := false } })

theorem beginRestart_eq (s : State) :
    beginRestart s = flushEntries ((endCallsForRestart s.shut).onLines (fun c => allLines.foldl releaseForRestart c)) := rfl

/-- See the head of this part. -/
structure Begun (s t : State) : Prop where
  marks : MarksKept s t
  listed : ∀ e, t.entry e ≠ none → e ∈ t.oat.writeBackList
  line : ∀ l, (s.line l).phase.inCall = false ∧ t.line l = (s.line l).released ∨
    (s.line l).phase.inCall = true ∧ ∃ r, EndedBy s.cal.view.minute (s.line l) r ∧ t.line l = restartLine r
  release : ∀ l, (s.line l).phase.inCall = true ∨ (s.line l).phase = .closing → LineCmd.release l ∈ t.lc.bus
  port : ∀ p, t.port p = if (s.port p).line = none then s.port p else (s.port p).freed
  hangUp : ∀ p, (s.port p).line ≠ none → PortCmd.hangUp p ∈ t.pa.bus
  group : ∀ g, t.group g = { s.group g with queue := [] }
  store : t.store = s.store
  cal : t.cal = s.cal
  pending : t.pending = s.pending
  sup : t.sup = s.sup
  params : t.lc.params = { s.lc.params with acceptingCalls := false }
  messages : t.lc.messages = s.lc.messages
  ctl : t.ctl = { s.ctl with signOnQueue := [] }

/-- With no line in call, no port is named, no queue holds a place and no sign-on operation waits. -/
structure AllOver (s t : State) : Prop where
  cleared : Clearing s t
  law : IdleLaw t
  ended : NoneInCall t

section
variable {s t : State}

theorem AllOver.port (h : AllOver s t) (p : PortNo) :
    t.port p = (if (s.port p).line = none then s.port p else (s.port p).freed) ∧
      ((s.port p).line ≠ none → PortCmd.hangUp p ∈ t.pa.bus) := by
  rcases h.cleared.port p with same | ⟨line, freed, bus⟩
  · have unnamed : (s.port p).line = none := by
      by_contra named
      obtain ⟨l, hl⟩ := Option.ne_none_iff_exists'.1 named
      have holds := (h.law.links.named (by rw [same]; exact hl)).2
      have quiet := h.ended l
      rw [key_admitted_inCall (key_holdsPort_admitted holds)] at quiet
      cases quiet
    rw [if_pos unnamed]
    exact ⟨same, fun k => absurd unnamed k⟩
  · rw [if_neg line]
    exact ⟨freed, fun _ => bus⟩

theorem AllOver.group (h : AllOver s t) (g : GroupNo) : t.group g = { s.group g with queue := [] } := by
  have empty : (t.group g).queue = [] := List.eq_nil_iff_forall_not_mem.2 fun q hq => by
    have waits := (h.law.links.placed (g := g) (l := q.line) (List.mem_map.2 ⟨q, hq, rfl⟩)).1
    have quiet := h.ended q.line
    rw [key_admitted_inCall (key_waiting_admitted waits)] at quiet
    cases quiet
  rw [h.cleared.group g, empty]

theorem AllOver.ctl (h : AllOver s t) : t.ctl = { s.ctl with signOnQueue := [] } := by
  have empty : t.ctl.signOnQueue = [] := List.eq_nil_iff_forall_not_mem.2 fun op ho => by
    have live := h.cleared.queue op ho
    rw [show (t.line op.line).phase.inCall = false from h.ended op.line] at live
    cases live
  rw [h.cleared.keeps.ctl, empty]

/-- With no session, every entry stands in the write-back list after the flush (R47). -/
theorem listed_flushEntries (law : IdleLaw t) (ended : NoneInCall t) (e : EntryNo) (he : (flushEntries t).entry e ≠ none) :
    e ∈ (flushEntries t).oat.writeBackList := by
  have moved := moves_flushEntries t
  obtain ⟨flushed, _⟩ := moves_law moved law
  obtain ⟨list, entry, oat, rest⟩ := flushEntries_spec t
  have lines : ∀ l, (flushEntries t).line l = t.line l := fun l => by rw [rest]; rfl
  obtain ⟨x, hx⟩ := Option.ne_none_iff_exists'.1 he
  have refs := refs_nil_of_none flushed (fun l => by rw [lines]; exact not_admitted_of_none ended l) e
  have unheld : x.count = 0 := by rw [flushed.counts e x hx, refs]; rfl
  obtain ⟨_, _, opened, closing, _, _⟩ := flushed.entries e x hx
  cases state : x.state with
  | opened => have := opened.1 state; omega
  | closing => exact (closing state).resolve_right id
  | stuck =>
    by_contra unlisted
    have old : ∃ y, t.entry e = some y := by
      cases hy : t.entry e with
      | some y => exact ⟨y, rfl⟩
      | none =>
        rw [entry, hy, Option.map_none, ite_self] at hx
        cases hx
    obtain ⟨y, hy⟩ := old
    have unflushed : t.flushes e ≠ true := fun flushes => unlisted (by
      rw [list]
      exact List.mem_append_right _ (List.mem_filter.2 ⟨List.mem_finRange e, flushes⟩))
    rw [entry, if_neg unflushed, hy] at hx
    obtain rfl := Option.some.inj hx
    refine unflushed (flushes_iff.2 ⟨fun queued => unlisted ?_, y, hy, .inr state⟩)
    rw [list]
    exact List.mem_append_left _ queued

/-- RESTART has ended every call, released every line and queued every entry. -/
theorem begun_beginRestart (hl : LinksLawful s) (hq : SignOnQueueLawful s) (law : IdleLaw s) : Begun s (beginRestart s) := by
  have shutLaw : IdleLaw s.shut := law.of_parts rfl rfl rfl rfl rfl
  obtain ⟨ended, quiet⟩ := law_endCallsForRestart shutLaw
  have all : AllOver s.shut (endCallsForRestart s.shut) := ⟨clearing_endCalls hl hq shutLaw, ended, quiet⟩
  have moved : MarksKept s.shut (endCallsForRestart s.shut) := marksKept_lifts.moves (moves_endCallsForRestart _)
  rw [beginRestart_eq]
  generalize endCallsForRestart s.shut = t at ended quiet all moved ⊢
  obtain ⟨released, nobody⟩ := moves_releaseLines allLines quiet
  obtain ⟨relLaw, _⟩ := moves_law released ended
  have line : ∀ l, (t.onLines (fun c => allLines.foldl releaseForRestart c)).line l = (t.line l).released := fun l =>
    onLines_release_line allLines t (List.mem_finRange l)
  have sent : ∀ l, (t.line l).phase = .closing →
      LineCmd.release l ∈ (t.onLines (fun c => allLines.foldl releaseForRestart c)).lc.bus := fun l hp =>
    onLines_release_bus allLines t (List.mem_finRange l) hp
  have calm := calm_releaseLines allLines t
  have marks : MarksKept s (flushEntries (t.onLines fun c => allLines.foldl releaseForRestart c)) :=
    (MarksKept.of_oat (s := s) (t := s.shut) rfl).trans (moved.trans
      ((marksKept_lifts.moves released).trans (marksKept_lifts.moves (moves_flushEntries _))))
  have listed := listed_flushEntries relLaw nobody
  have ctl : (t.onLines (fun c => allLines.foldl releaseForRestart c)).ctl = t.ctl := onLines_ctl t _
  have lc : (t.onLines (fun c => allLines.foldl releaseForRestart c)).pa = t.pa := onLines_pa t _
  obtain ⟨_, _, oat, rest⟩ := flushEntries_spec (t.onLines (fun c => allLines.foldl releaseForRestart c))
  generalize t.onLines (fun c => allLines.foldl releaseForRestart c) = u at *
  have keeps := all.cleared.keeps
  have port : ∀ p, (flushEntries u).port p = t.port p := fun p => by rw [rest]; simp [State.port, lc]
  have group : ∀ g, (flushEntries u).group g = t.group g := fun g => by rw [rest]; simp [State.group, lc]
  have lines : ∀ l, (flushEntries u).line l = (t.line l).released := fun l => by rw [rest]; exact line l
  refine ⟨marks, listed, fun l => ?_, fun l hc => ?_, fun p => ?_, fun p hp => ?_, fun g => ?_, ?_, ?_, ?_, ?_, ?_, ?_, ?_⟩
  · rw [lines]
    refine ((all.cleared.line l).not_inCall (quiet l)).imp (fun ⟨hc, same⟩ => ⟨hc, by rw [same]; rfl⟩) fun ⟨hc, done⟩ =>
      ⟨hc, t.line l, done, released_up (by rw [done.phase]; nofun)⟩
  · have closing : (t.line l).phase = .closing := by
      rcases (all.cleared.line l).not_inCall (quiet l) with ⟨out, same⟩ | ⟨_, done⟩
      · rw [same]
        exact hc.resolve_left fun live => by rw [show (s.line l).phase.inCall = false from out] at live; cases live
      · exact done.phase
    rw [rest]
    exact sent l closing
  · rw [port]
    exact (all.port p).1
  · rw [rest]
    show _ ∈ u.pa.bus
    rw [lc]
    exact (all.port p).2 hp
  · rw [group]
    exact all.group g
  · rw [rest]; exact calm.store.trans keeps.store
  · rw [rest]; exact calm.cal.trans keeps.cal
  · rw [rest]; exact calm.pending.trans keeps.pending
  · rw [rest]; exact calm.sup.trans keeps.sup
  · rw [rest]; exact calm.params.trans keeps.params
  · rw [rest]; exact calm.messages.trans keeps.messages
  · rw [rest]
    show u.ctl = _
    rw [ctl, all.ctl]
    rfl

end

end Sys2Proof.Machine
end

/-! # O53: RESTART from its frame to its response (R26, R47, R77, R196, R197, R206) -/
section
namespace Sys2Proof.Machine

/-! ## The run of the three commands -/

section
variable {s t : State}

/-- With nothing to write back the outcomes of writes do not matter. -/
theorem finishRestart_nil (h : t.oat.writeBackList = []) (writes : List WriteOutcome) (n : Nat) :
    finishRestart t [] n = finishRestart t writes n := by
  unfold finishRestart
  rw [h]
  rfl

/-- An operation that has begun completes in the state in which it began. -/
theorem execAll_inProgress (idle : s.ctl.inProgress = none) (op : Operation) (writes : List WriteOutcome) :
    execAll [.storeOperationComplete writes] (s.inProgress op) = .next (completeOperation s op writes) := by
  rw [execAll_cons (exec_complete (s := s.inProgress op) rfl writes)]
  show Host.Outcome.next (completeOperation { s with ctl := { s.ctl with inProgress := none } } op writes) = _
  rw [← idle]

theorem requested_linesInCall (s : State) : s.requested.linesInCall = s.linesInCall := List.filter_congr fun _ _ => rfl

/-- RESTART with no operation in progress, once accepted and begun. -/
theorem execAll_restart (hs : Ready s) (idle : (beginRestart s.requested).ctl.inProgress = none)
    (done : ∀ writes n, (finishRestart (beginRestart s.requested) writes n).ctl.inProgress = none) (writes : List WriteOutcome) :
    execAll [.restart, .rotationChoice, .storeOperationComplete writes] s =
      .next (finishRestart (beginRestart s.requested) writes s.linesInCall.length) := by
  rw [execAll_begun (r := .restart) hs rfl rfl rfl]
  show execAll [.storeOperationComplete writes] (startRestart s.requested) = _
  unfold startRestart
  dsimp only
  split
  · rename_i nothing
    rw [execAll_complete_idle (done _ _), finishRestart_nil nothing writes, requested_linesInCall]
  · rw [execAll_inProgress idle, ← requested_linesInCall]
    rfl

/-! ## The write-backs and the response -/

/-- What the completion of RESTART leaves, by the retire pending marks of its write-backs in their order (R47, R206). -/
structure Finished (marks : List Bool) (writes : List WriteOutcome) (n : Nat) (t u : State) : Prop where
  free : (∀ e, t.entry e ≠ none → e ∈ t.oat.writeBackList) → ∀ e, u.entry e = none
  rest : u = { t with
    store := u.store, oat := u.oat, attn := emptyAttention,
    sup := t.sup.offered (if (restartMatches marks writes).count false = 0 then 0 else 8) false
      [BitVec.ofNat 8 n, BitVec.ofNat 8 ((restartMatches marks writes).count true),
        BitVec.ofNat 8 ((restartMatches marks writes).count false)],
    ctl := { t.ctl with
      uncertain := t.ctl.uncertain || decide ((restartMatches marks writes).count false ≠ 0),
      inUse := u.ctl.inUse, vacated := u.ctl.vacated } }
  list : u.oat.writeBackList = []
  counts : (marks.zip (restartMatches marks writes)).count (true, true) ≤ t.ctl.inUse →
    t.ctl.vacated + (marks.zip (restartMatches marks writes)).count (true, true) ≤ t.ctl.capacity →
      u.ctl.inUse = t.ctl.inUse - (marks.zip (restartMatches marks writes)).count (true, true) ∧
        u.ctl.vacated = t.ctl.vacated + (marks.zip (restartMatches marks writes)).count (true, true)
  outside : storeWf t.store = true → ∀ a,
    (∀ e x, t.entry e = some x → ¬(x.slot.val * 40 ≤ a ∧ a < x.slot.val * 40 + 40)) →
      storeRead u.store a = storeRead t.store a

theorem Finished.inProgress {marks : List Bool} {writes : List WriteOutcome} {n : Nat} {u : State}
    (h : Finished marks writes n t u) : u.ctl.inProgress = t.ctl.inProgress := by rw [h.rest]

/-- OK where nothing was lost, STORE_FAULT where a write did not match (R47). -/
theorem respond_restart (s : State) (lost : Nat) (result : List Byte) :
    respond s (if lost = 0 then .ok else .storeFault) false result =
      { s with sup := s.sup.offered (if lost = 0 then 0 else 8) false result } := by
  by_cases h : lost = 0
  · rw [if_pos h, if_pos h, respond_ok]
    rfl
  · rw [if_neg h, if_neg h, respond_code _ (c := .storeFault) nofun]
    rfl

theorem beBytes_one (n : Nat) : beBytes 1 n = [BitVec.ofNat 8 n] := by simp [beBytes]

theorem finished_finishRestart (once : t.oat.writeBackList.Nodup) (writes : List WriteOutcome) (n : Nat) :
    Finished (t.retireMarks t.oat.writeBackList) writes n t (finishRestart t writes n) := by
  obtain ⟨entry, written, lost, rest, counts, _, outside⟩ :=
    flush_spec once { state := t, writes := writes, written := 0, lost := 0 }
  unfold finishRestart
  generalize t.oat.writeBackList.foldl flushOne { state := t, writes := writes, written := 0, lost := 0 } = g at *
  rw [Nat.zero_add] at written lost
  dsimp only
  rw [respond_restart, written, lost, beBytes_one, beBytes_one, beBytes_one]
  refine ⟨fun listed e => ?_, ?_, rfl, counts, fun wf a ha => outside wf a fun e _ => ha e⟩
  · refine (entry e).trans ?_
    split
    · rfl
    · rename_i unlisted
      exact by_contra fun used => unlisted (listed e used)
  · rw [rest]
    rfl

end

/-! ## What RESTART has left of a line, and the order of its write-backs -/

section
variable {s t : State}

theorem Begun.down (h : Begun s t) {l : LineNo} (hp : (s.line l).phase = .down) : t.line l = s.line l := by
  rcases h.line l with ⟨_, e⟩ | ⟨hc, _⟩
  · rw [e, released_down hp]
  · rw [hp] at hc
    cases hc

theorem Begun.up (h : Begun s t) {l : LineNo} (hp : (s.line l).phase ≠ .down) :
    ∃ r, t.line l = restartLine r ∧ r.carrier = (s.line l).carrier ∧ r.overrun = (s.line l).overrun ∧
      r.echoSuppressed = (s.line l).echoSuppressed ∧ r.attempt = (s.line l).attempt := by
  rcases h.line l with ⟨_, e⟩ | ⟨_, r, ended, e⟩
  · exact ⟨s.line l, e.trans (released_up hp), rfl, rfl, rfl, rfl⟩
  · exact ⟨r, e, ended.carrier, ended.overrun, ended.echoSuppressed, ended.attempt⟩

theorem Begun.inCall (h : Begun s t) {l : LineNo} (hc : (s.line l).phase.inCall = true) :
    ∃ r, EndedBy s.cal.view.minute (s.line l) r ∧ t.line l = restartLine r := by
  rcases h.line l with ⟨out, _⟩ | ⟨_, ended⟩
  · rw [hc] at out
    cases out
  · exact ended

theorem Begun.summary_outOfCall (h : Begun s t) {l : LineNo} (hc : (s.line l).phase.inCall = false) :
    (t.line l).summary = (s.line l).summary := by
  rcases h.line l with ⟨_, e⟩ | ⟨live, _⟩
  · rw [e, LineRec.released]
    split <;> rfl
  · rw [hc] at live
    cases live

theorem MarksKept.isSome (h : MarksKept s t) (e : EntryNo) : (t.entry e).isSome = (s.entry e).isSome := by
  rw [← Option.isSome_map (f := OatEntry.mark), h.entry, Option.isSome_map]

theorem MarksKept.retires (h : MarksKept s t) (e : EntryNo) : t.retires e = s.retires e := by
  have marks : ∀ u : State, u.retires e = ((u.entry e).map OatEntry.mark).any Prod.snd := fun u => by
    rw [State.retires, Option.any_map]
    rfl
  rw [marks, marks, h.entry]

theorem MarksKept.slot (h : MarksKept s t) {e : EntryNo} {x : OatEntry} (hx : t.entry e = some x) :
    ∃ y, s.entry e = some y ∧ y.slot = x.slot := by
  have same := h.entry e
  rw [hx] at same
  obtain ⟨y, hy, mark⟩ := Option.map_eq_some_iff.1 same.symm
  exact ⟨y, hy, congrArg Prod.fst mark⟩

/-- The entries in the order of their write-backs. -/
def restartOrder (s t : State) : List EntryNo := t.oat.writeBackList.filter (fun e => (s.entry e).isSome)

theorem retireMarks_restart (h : MarksKept s t) : t.retireMarks t.oat.writeBackList = (restartOrder s t).map s.retires := by
  rw [State.retireMarks, restartOrder, funext h.isSome, funext h.retires]

theorem mem_restartOrder (h : Begun s t) (e : EntryNo) : e ∈ restartOrder s t ↔ s.entry e ≠ none := by
  rw [restartOrder, List.mem_filter, Option.isSome_iff_ne_none]
  refine and_iff_right_of_imp fun he => h.listed e ?_
  rwa [← Option.isSome_iff_ne_none, h.marks.isSome, Option.isSome_iff_ne_none]

theorem restartOrder_prefix (h : MarksKept s t) :
    s.oat.writeBackList.filter (fun e => (s.entry e).isSome) <+: restartOrder s t := h.list.filter _

/-- A line after RESTART, as the statement gives it. -/
theorem Begun.lineClause (h : Begun s t) (l : LineNo) :
    let was := s.line l
    let now := t.line l
    let credit := if 30000 ≤ was.residue ∧ was.lastCategory ≠ none ∧ was.charged < 16777215 then 1 else 0
    let admitted := was.phase.isAdmitted
    (was.phase = .down → now = was) ∧
    (was.phase ≠ .down → now.phase = .idle ∧ now.outOfService = false ∧ now.stageTimer = none ∧ now.current = none ∧
      now.pending = none ∧ now.carrier = was.carrier ∧ now.overrun = was.overrun ∧
      now.echoSuppressed = was.echoSuppressed ∧ now.attempt = was.attempt) ∧
    (was.phase.inCall = true → now.port = none ∧ now.entryRef = none ∧ now.summary = some
      { account := was.account, cause := .restart,
        admittedSeconds := if admitted then was.admittedSeconds else 0,
        connectedSeconds := if admitted then was.connectedSeconds else 0,
        credits := if admitted then was.charged + credit else 0, minute := s.cal.view.minute }) ∧
    (was.phase.inCall = false → now.summary = was.summary) ∧
    (was.phase.inCall = true ∨ was.phase = .closing → LineCmd.release l ∈ t.lc.bus) := by
  refine ⟨h.down, fun hp => ?_, fun hc => ?_, h.summary_outOfCall, h.release l⟩
  · obtain ⟨r, e, carrier, overrun, echo, attempt⟩ := h.up hp
    rw [e]
    exact ⟨rfl, rfl, rfl, rfl, rfl, carrier, overrun, echo, attempt⟩
  · obtain ⟨r, ended, e⟩ := h.inCall hc
    rw [e, ← closingCharge_eq]
    exact ⟨ended.port, ended.entryRef, ended.summary⟩

end

/-- A state that meets the laws is as RESTART needs it to begin. -/
theorem begun_restart {s : State} (hl : LinksLawful s) (hsess : SessionsLawful s) (hq : SignOnQueueLawful s)
    (hp : s.ctl.inProgress = none) : Begun s.requested (beginRestart s.requested) :=
  begun_beginRestart (s := s.requested) hl hq (((sessions_of_lawful hl hsess).idle hp).of_parts rfl rfl rfl rfl rfl)

/-- Settles O53: every call is settled with nobody left to take a port, so of each line, port and group the settlements touch only
their own; the write-backs then follow their outcomes in the order of the list. -/
theorem restartClears : Obligations.RestartClears := by
  unfold Obligations.RestartClears
  intro writes s hl hsess hq hb hp ht hwf honce
  have begun := begun_restart hl hsess hq hp
  have once : (beginRestart s.requested).oat.writeBackList.Nodup :=
    (works_beginRestart (wr := True) (W := True) s.requested).kept.list honce
  have finished : ∀ writes n, Finished _ writes n (beginRestart s.requested) (finishRestart (beginRestart s.requested) writes n) :=
    finished_finishRestart once
  have idle : (beginRestart s.requested).ctl.inProgress = none := by rw [begun.ctl]; exact hp
  have runs := execAll_restart (s := s) ⟨hb, hp, ht⟩ idle (fun writes n => (finished writes n).inProgress.trans idle) writes
  obtain ⟨free, rest, list, counts, outside⟩ := finished writes s.linesInCall.length
  rw [retireMarks_restart begun.marks] at rest counts
  generalize beginRestart s.requested = t at *
  generalize finishRestart t writes s.linesInCall.length = u at *
  refine ⟨u, restartOrder s.requested t, runs, once.filter _, mem_restartOrder begun,
    restartOrder_prefix (s := s.requested) begun.marks, ?_, ?_, ?_, ?_,
    free begun.listed, list, ?_, ?_, ?_, ?_, ?_, ?_, ?_, ?_, ?_, ?_⟩
  · rw [rest]
    show t.sup.offered _ _ _ = _
    rw [begun.sup]
    rfl
  · rw [rest]
    show ({ t.ctl with uncertain := _, inUse := _, vacated := _ } : StoreCtl) = _
    rw [begun.ctl]
    rfl
  · rw [begun.ctl] at counts
    exact counts
  · intro a ha
    refine (outside (by rw [begun.store]; exact hwf) a fun e x hx => ?_).trans (by rw [begun.store]; rfl)
    obtain ⟨y, hy, slot⟩ := begun.marks.slot hx
    rw [← slot]
    exact ha e y hy
  · rw [rest]; rfl
  · rw [rest]; rfl
  · rw [rest]; exact begun.params
  · rw [rest]; exact begun.messages
  · rw [rest]; exact begun.cal
  · rw [rest]; exact begun.pending
  · rw [rest]; exact begun.lineClause
  · rw [rest]; exact begun.port
  · rw [rest]; exact begun.hangUp
  · rw [rest]; exact begun.group

end Sys2Proof.Machine
end

/-! # An ADMIT on an open account (O46) -/
section
namespace Sys2Proof.Machine

/-! ## A session leaves an entry -/

/-- The last session leaves an entry that is not being written back: the entry is CLOSING and in the list, once (R32, R36). -/
theorem leaveEntry_emptied {s : State} {e : EntryNo} {x : OatEntry} (hx : s.entry e = some x) (h1 : x.count ≤ 1)
    (idle : s.writingBack e = false) :
    leaveEntry s e = { s with
      oat := { entries := s.oat.entries.set e (some { x with state := .closing, count := 0 })
               writeBackList := if e ∈ s.oat.writeBackList then s.oat.writeBackList else s.oat.writeBackList ++ [e] } } := by
  by_cases listed : e ∈ s.oat.writeBackList
  · have queued : State.queued (s.setEntry e (some { x with count := 0, state := .closing })) e = true := by
      simpa [State.queued] using listed
    simp only [leaveEntry, hx, h1, if_true, idle, queueEntry, queued, Bool.false_eq_true, if_false, listed]
    rfl
  · rw [leaveEntry_last hx h1 idle listed, if_neg listed]

/-- A session leaves an entry that has others (R32). -/
theorem leaveEntry_others {s : State} {e : EntryNo} {x : OatEntry} (hx : s.entry e = some x) (h2 : 2 ≤ x.count) :
    leaveEntry s e = s.setEntry e (some { x with count := x.count - 1 }) := by
  simp only [leaveEntry, hx, Nat.not_le.2 h2, if_false]

theorem setEntry_setEntry (s : State) (e : EntryNo) (x y : Option OatEntry) :
    (s.setEntry e x).setEntry e y = s.setEntry e y := by
  simp [State.setEntry, Vector.set_set]

/-- A stale admission is undone: its session leaves the entry (R101). -/
theorem takeResult_stale {s : State} {op : SignOnOp} (hc : isCurrent s op = false) (e : EntryNo) (grace : Nat) :
    takeResult s op (.admission e grace) = leaveEntry s e := by
  simp only [takeResult, hc, Bool.false_eq_true, if_false]

/-- Settles O46, check by check. -/
theorem admitOfOpenAccount : Obligations.AdmitOfOpenAccount := by
  unfold Obligations.AdmitOfOpenAccount
  intro l b n rest e x s hp turn queue hx hn only policy chosen joined current fails allowed
  have ends : ∀ {t : State} {r : SignOnResult}, admitOpen chosen l e x = (t, r) →
      exec .rotationChoice s = .next (takeResult t ⟨l, b, .admitOp, n⟩ r) :=
    exec_choice_signOn hp turn queue (openAccount_eq_some hx hn only)
  have told : ∀ t : State, t.lc = s.lc → (isCurrent t ⟨l, b, .admitOp, n⟩ = true ↔ current) := fun t ht => by
    have line : t.line l = s.line l := congrArg (fun c : LineCtl => c.line l) ht
    rw [isCurrent_admit rfl]
    dsimp only
    rw [line]
  have refusal : ∀ {reason : Nat}, current → openChecks chosen x = some reason → fails reason := fun hc check =>
    ⟨_, ends (admitOpen_failed check l e), takeResult_fails ((told chosen rfl).2 hc) (watchResult_admit rfl _)⟩
  have entered : State.entry (chosen.setEntry e (some joined)) e = some joined := by simp
  have joins : x.retirePending = false → x.acct.allotment ≠ 0 → allowed → x.count < x.acct.sessionLimit →
      exec .rotationChoice s =
        .next (takeResult (chosen.setEntry e (some joined)) ⟨l, b, .admitOp, n⟩ (.admission e policy.grace)) :=
    fun kept funds open_ limit =>
      ends (admitOpen_joins (s := chosen) hx (openChecks_none kept (accountChecks_none funds open_) limit) l)
  have undone : ¬current → takeResult (chosen.setEntry e (some joined)) ⟨l, b, .admitOp, n⟩ (.admission e policy.grace) =
      leaveEntry (chosen.setEntry e (some joined)) e := fun stale =>
    takeResult_stale (Bool.eq_false_iff.2 (mt (told (chosen.setEntry e (some joined)) rfl).1 stale)) e _
  refine ⟨fun hc => ⟨fun retired => refusal hc (openChecks_retired retired),
      fun kept spent => refusal hc (openChecks_account kept (accountChecks_spent spent)),
      fun kept funds barred => refusal hc (openChecks_account kept (accountChecks_hours funds barred)),
      fun kept funds open_ limit => refusal hc (openChecks_limit kept (accountChecks_none funds open_) limit),
      fun kept funds open_ limit => ?_⟩, fun stale kept funds open_ some_ limit => ?_,
    fun stale kept funds open_ none_ limit => ?_⟩
  · rw [joins kept funds open_ limit]
    refine congrArg _ ((takeResult_current ((told (chosen.setEntry e (some joined)) rfl).2 hc) (watchResult_admit rfl _)).trans ?_)
    exact admitLine_entry entered l policy.grace
  · rw [joins kept funds open_ limit, undone stale, leaveEntry_others entered (Nat.succ_le_succ some_), setEntry_setEntry]
    rfl
  · have idle : State.writingBack (chosen.setEntry e (some joined)) e = false := by
      simp only [State.writingBack, setEntry_ctl, chosen, hp]
    have first : joined.count ≤ 1 := Nat.succ_le_succ none_.le
    rw [joins kept funds open_ (none_ ▸ limit), undone stale, leaveEntry_emptied entered first idle]
    simp only [State.setEntry, Vector.set_set, chosen]
    congr 3

end Sys2Proof.Machine
end

/-! # What a session gives up with its port (R161, R186)

A line that leaves its stage gives its port up: the port calls nobody, or it is handed to the head of its group's queue at once. -/
section
namespace Sys2Proof.Machine

/-- A line's record but for its phase, its port and its stage timer, which settlement takes. -/
def ClaimsGone (r r' : LineRec) : Prop :=
  r' = { r with phase := r'.phase, port := r'.port, stageTimer := r'.stageTimer }

/-- The port that line `l` named has been sent HANG_UP and calls nobody. -/
structure Freed (s t : State) (p : PortNo) (l : LineNo) (state : PortState) : Prop where
  own : ClaimsGone (s.line l) (t.line l)
  others : ∀ k, k ≠ l → t.line k = s.line k
  port : t.port p = { s.port p with state := state, line := none, callTimer := none }
  ports : ∀ q, q ≠ p → t.port q = s.port q
  group : ∀ g, t.group g = s.group g
  bus : t.pa.bus = s.pa.bus ++ [.hangUp p]

/-- The port that line `l` named has been sent HANG_UP and calls the line at the head of its group's queue. -/
structure Handed (s t : State) (p : PortNo) (l : LineNo) (g : GroupNo) (place : Place) (rest : List Place) : Prop where
  own : ClaimsGone (s.line l) (t.line l)
  others : ∀ k, k ≠ l → k ≠ place.line → t.line k = s.line k
  head : place.line ≠ l →
    t.line place.line = { s.line place.line with phase := .admitted .calling, port := some p, stageTimer := none }
  port : t.port p = { s.port p with state := .calling, line := some place.line, callTimer := some s.lc.params.callLimit }
  ports : ∀ q, q ≠ p → t.port q = s.port q
  group : t.group g = { s.group g with queue := rest }
  groups : ∀ k, k ≠ g → t.group k = s.group k
  bus : place.line ≠ l → ∀ k y n, (s.line place.line).entryRef = some k → s.entry k = some y →
    (s.line place.line).account = some n → t.pa.bus = s.pa.bus ++ [.hangUp p, .call p place.line n y.acct.cls]

/-- The state of a port that is given up and calls nobody (R161, R163). -/
def PortRec.givenUp (x : PortRec) (out : Bool) : PortState :=
  if out then .outOfService else if x.hostReady then .free else .notReady

/-- A port that is given up. -/
def State.closed (s : State) (p : PortNo) (l : LineNo) : State :=
  (hangUp (s.modLine l (fun r => { r with phase := .closing })) p).modLine l (fun r => { r with port := none })

theorem closed_freed (s : State) (p : PortNo) (l : LineNo) (state : PortState) :
    Freed s ((s.closed p l).modPort p (fun x => { x with state := state })) p l state where
  own := by simp [State.closed, ClaimsGone]
  others := fun k hk => by simp [State.closed, hk]
  port := by simp [State.closed, hangUp]
  ports := fun q hq => by simp [State.closed, hangUp, hq]
  group := fun g => by simp [State.closed, hangUp]
  bus := by simp [State.closed, hangUp]

theorem closed_handed (s : State) (p : PortNo) (l : LineNo) {g : GroupNo} (place : Place) (rest : List Place) :
    Handed s (callPort (((s.closed p l).modPort p (fun x => { x with state := .free })).modGroup g (fun x =>
      { x with queue := rest })) p place.line) p l g place rest where
  own := by
    by_cases own : l = place.line
    · simp [State.closed, callPort, offerPort, ClaimsGone, own]
    · simp [State.closed, callPort, offerPort, ClaimsGone, own]
  others := fun k hk hp => by simp [State.closed, callPort, offerPort, hk, hp]
  head := fun hp => by simp [State.closed, callPort, offerPort, hp]
  port := by simp [State.closed, hangUp, callPort, offerPort]
  ports := fun q hq => by simp [State.closed, hangUp, callPort, offerPort, hq]
  group := by simp [State.closed, hangUp, callPort, offerPort]
  groups := fun k hk => by simp [State.closed, hangUp, callPort, offerPort, hk]
  bus := fun hp k y n he hx ha => by
    simp [State.closed, hangUp, callPort, offerPort, State.lineClass, State.lineEntry, hp, he, hx, ha]

/-- A FREE port serves its queue, or there is nobody it could serve (R157). -/
theorem serveQueue_free {s : State} {p : PortNo} (free : (s.port p).state = .free) :
    ((∃ g place rest, (s.port p).role = .ordinary ∧ (s.port p).group = some g ∧ (s.group g).queue = place :: rest ∧
        serveQueue s p = callPort (s.modGroup g (fun x => { x with queue := rest })) p place.line) ∨
      ((s.port p).role = .spare ∨ ∀ g, (s.port p).group = some g → (s.group g).queue = []) ∧ serveQueue s p = s) := by
  cases hg : (s.port p).group with
  | none => exact .inr ⟨.inr nofun, by simp only [serveQueue, hg]⟩
  | some g =>
    cases hr : (s.port p).role with
    | spare => exact .inr ⟨.inl rfl, by simp [serveQueue, hg, hr]⟩
    | ordinary =>
      cases hq : (s.group g).queue with
      | nil =>
        refine .inr ⟨.inr fun k hk => ?_, by simp only [serveQueue, hg, hq, ite_self]⟩
        cases hk
        exact hq
      | cons place rest =>
        exact .inl ⟨g, place, rest, rfl, rfl, hq, by simp only [serveQueue, hg, hr, free, hq, and_self, if_true]⟩

theorem releasePort_closing (s : State) (p : PortNo) (l : LineNo) (out : Bool) :
    releasePort (s.modLine l (fun r => { r with phase := .closing })) p l out =
      if out then (s.closed p l).modPort p (fun x => { x with state := .outOfService }) else portByReady (s.closed p l) p := rfl

/-- A port that a line gives up is handed on, or calls nobody (R157, R161, R163). -/
theorem releasePort_cases (s : State) (p : PortNo) (l : LineNo) (out : Bool) :
    let t := releasePort (s.modLine l (fun r => { r with phase := .closing })) p l out
    (Freed s t p l ((s.port p).givenUp out) ∧
      (out = true ∨ (s.port p).hostReady = false ∨ (s.port p).role = .spare ∨
        ∀ g, (s.port p).group = some g → (s.group g).queue = [])) ∨
    ∃ g place rest, out = false ∧ (s.port p).hostReady = true ∧ (s.port p).role = .ordinary ∧ (s.port p).group = some g ∧
      (s.group g).queue = place :: rest ∧ Handed s t p l g place rest := by
  dsimp only
  rw [releasePort_closing]
  cases out with
  | true => exact .inl ⟨closed_freed s p l _, .inl rfl⟩
  | false =>
    have ready : ((s.closed p l).port p).hostReady = (s.port p).hostReady := by simp [State.closed, hangUp]
    simp only [Bool.false_eq_true, if_false, portByReady, ready, PortRec.givenUp]
    cases hr : (s.port p).hostReady with
    | false => exact .inl ⟨closed_freed s p l _, .inr (.inl rfl)⟩
    | true =>
      simp only [if_true]
      have port : ((s.closed p l).modPort p (fun x => { x with state := .free })).port p =
          { s.port p with state := .free, line := none, callTimer := none } := (closed_freed s p l .free).port
      have group : ∀ g, ((s.closed p l).modPort p (fun x => { x with state := .free })).group g = s.group g :=
        (closed_freed s p l .free).group
      rcases serveQueue_free (s := (s.closed p l).modPort p (fun x => { x with state := .free })) (by rw [port]) with
        ⟨g, place, rest, role, hg, hq, served⟩ | ⟨nobody, served⟩
      · rw [port] at role hg
        rw [group] at hq
        rw [served]
        exact .inr ⟨g, place, rest, trivial, trivial, role, hg, hq, closed_handed s p l place rest⟩
      · rw [port] at nobody
        simp only [group] at nobody
        rw [served]
        exact .inl ⟨closed_freed s p l _, .inr (.inr nobody)⟩

/-- Parts 1 and 2 of the settlement of a line with no queue place are the release of its port (R186). -/
theorem settleClaims_release {s : State} {l : LineNo} (hw : (s.line l).phase ≠ .admitted .waiting) (out : Bool) :
    settleClaims s l out = match (s.line l).port with
      | none => s.modLine l (fun r => { r with phase := .closing })
      | some p => releasePort (s.modLine l (fun r => { r with phase := .closing })) p l out := by
  unfold settleClaims
  dsimp only
  split
  · exact absurd (by assumption) hw
  · rfl

theorem settleClaims_own {s : State} {l : LineNo} (hw : (s.line l).phase ≠ .admitted .waiting) (out : Bool) :
    ClaimsGone (s.line l) ((settleClaims s l out).line l) := by
  rw [settleClaims_release hw]
  cases (s.line l).port with
  | none => simp [ClaimsGone]
  | some p =>
    rcases releasePort_cases s p l out with ⟨freed, _⟩ | ⟨g, place, rest, _, _, _, _, _, handed⟩
    · exact freed.own
    · exact handed.own

end Sys2Proof.Machine
end

/-! # The session of a NORMAL account ends

Nothing is told to any other line: besides the claims on port and queue, the end changes its own line, the entry, watches and items. -/
section
namespace Sys2Proof.Machine

/-! ## Writes that leave or replace what was there -/

theorem setEntry_self {s : State} {e : EntryNo} {x : Option OatEntry} (h : s.entry e = x) : s.setEntry e x = s := by
  subst h
  simp [State.setEntry, State.entry, Vector.get_eq_getElem]

theorem modLine_congr {s : State} {l : LineNo} {f g : LineRec → LineRec} (h : f (s.line l) = g (s.line l)) :
    s.modLine l f = s.modLine l g := by
  have same : f (s.lc.line l) = g (s.lc.line l) := h
  simp only [State.modLine, State.onLines, LineCtl.modLine, same]

theorem modLine_self {s : State} {l : LineNo} {f : LineRec → LineRec} (h : f (s.line l) = s.line l) : s.modLine l f = s := by
  rw [modLine_congr (g := id) h]
  simp [State.modLine, State.onLines, LineCtl.modLine, LineCtl.setLine, LineCtl.line, Vector.get_eq_getElem]

theorem satSucc_eq_min {ceiling n : Nat} (h : n ≤ ceiling) : satSucc ceiling n = min ceiling (n + 1) := by
  unfold satSucc
  split <;> omega

/-! ## The Meter has nothing to do -/

/-- Without a change of credit state the Meter takes no action (R133). -/
theorem meterAction_unchanged {s : State} {e : EntryNo} {old : CreditState} (co : EndedSecond) (h : s.creditOf e = old) :
    meterAction co s e old = s := by
  subst h
  unfold meterAction creditAction State.creditOf
  cases s.entry e with
  | none => rfl
  | some x =>
    dsimp only
    cases creditState x.acct <;> rfl

theorem creditOf_some {s : State} {e : EntryNo} {x : OatEntry} (h : s.entry e = some x) : s.creditOf e = creditState x.acct := by
  rw [State.creditOf, h]

theorem creditState_normal {a : Account} : creditState a = .normal ↔ a.lowThreshold < a.allotment := by
  unfold creditState
  split
  · simp_all
  · split
    · simp_all
    · simp_all

theorem debit_spec (a : Account) (c : Category) : (a.debit c).cls = a.cls ∧ (a.debit c).lowThreshold = a.lowThreshold ∧
    (a.debit c).allotment = a.allotment - 1 := by
  unfold Account.debit
  dsimp only
  split
  · cases c <;> exact ⟨rfl, rfl, rfl⟩
  · have spent : a.allotment = a.allotment - 1 := by omega
    cases c <;> exact ⟨rfl, rfl, spent⟩

/-! ## The closing of the meter (R132) -/

/-- The category in which the closing of a line's meter posts a credit, if it posts one. -/
def LineRec.owes (r : LineRec) : Option Category := if 30000 ≤ r.residue then r.lastCategory else none

/-- An entry to which a credit is posted in a category, if in any. -/
def OatEntry.posted (x : OatEntry) (c : Option Category) : OatEntry :=
  match c with
  | none => x
  | some c => { x with acct := x.acct.debit c, dirty := true }

theorem owes_some {r : LineRec} {c : Category} : r.owes = some c ↔ 30000 ≤ r.residue ∧ r.lastCategory = some c := by
  unfold LineRec.owes
  split <;> simp_all

theorem owes_none {r : LineRec} : r.owes = none ↔ ¬(30000 ≤ r.residue ∧ r.lastCategory ≠ none) := by
  unfold LineRec.owes
  split <;> simp_all

/-- A credit that the closing of the meter may post leaves the account NORMAL. -/
def StaysNormal (x : OatEntry) (r : LineRec) : Prop :=
  x.acct.lowThreshold < x.acct.allotment ∧ (30000 ≤ r.residue → x.acct.lowThreshold + 1 < x.acct.allotment)

/-- The closing of the meter of a session whose account stays NORMAL. -/
theorem closeMeter_normal {s : State} {l : LineNo} {e : EntryNo} {x : OatEntry} (hx : s.entry e = some x)
    (hn : StaysNormal x (s.line l)) (co : EndedSecond) (st : AdmittedStage) :
    closeMeter (meterAction co) s l e st none = (s.setEntry e (some (x.posted (s.line l).owes))).modLine l (fun r =>
      { r with residue := 0, charged := r.closingCharge }) := by
  obtain ⟨normal, spare⟩ := hn
  cases owed : (s.line l).owes with
  | none =>
    have idle := owes_none.1 owed
    have charge : (s.line l).closingCharge = (s.line l).charged := if_neg idle
    rw [closeMeter_idle _ idle, OatEntry.posted, setEntry_self hx]
    exact modLine_congr (by rw [charge])
  | some c =>
    obtain ⟨due, category⟩ := owes_some.1 owed
    have charge : (s.line l).closingCharge = satSucc max24 (s.line l).charged := if_pos ⟨due, by rw [category]; nofun⟩
    have posts : postCredit s e l c = (s.setEntry e (some (x.posted (some c)))).modLine l (fun r =>
        { r with charged := satSucc max24 r.charged }) := by
      rw [postCredit, State.modEntry, hx]
      rfl
    have quiet : State.creditOf (postCredit s e l c) e = s.creditOf e := by
      have entry : State.entry (postCredit s e l c) e = some (x.posted (some c)) := by rw [posts]; simp
      obtain ⟨-, threshold, allotment⟩ := debit_spec x.acct c
      have after : (x.acct.debit c).lowThreshold < (x.acct.debit c).allotment := by
        have := spare due
        omega
      rw [creditOf_some entry, creditOf_some hx, creditState_normal.2 normal]
      exact creditState_normal.2 after
    rw [closeMeter_owing _ due category, meterAction_unchanged co quiet, posts, modLine_modLine]
    exact modLine_congr (by simp [charge])

/-! ## The session leaves its entry (R189) -/

theorem leaveEntry_oat_congr {s t : State} (ho : s.oat = t.oat) (hc : s.ctl.inProgress = t.ctl.inProgress) (e : EntryNo) :
    (leaveEntry s e).oat = (leaveEntry t e).oat := by
  have entry : s.entry e = t.entry e := by rw [State.entry, ho]; rfl
  have writing : s.writingBack e = t.writingBack e := by rw [State.writingBack, hc]; rfl
  have set : ∀ y, State.oat (s.setEntry e y) = State.oat (t.setEntry e y) := fun y => by rw [State.setEntry, ho]; rfl
  have queue : ∀ u v : State, u.oat = v.oat → (queueEntry u e).oat = (queueEntry v e).oat := fun u v h => by
    have listed : u.queued e = v.queued e := by rw [State.queued, h]; rfl
    unfold queueEntry
    rw [listed]
    split
    · exact h
    · simp only [State.modEntry, State.setEntry, State.entry, h]
  unfold leaveEntry
  rw [entry, writing]
  split
  · exact ho
  · split
    · dsimp only
      split
      · exact set _
      · exact queue _ _ (set _)
    · exact set _

/-- What is left of a session's entry when the session has left it. -/
theorem leaveEntry_entry {s : State} {e : EntryNo} {x : OatEntry} (hx : s.entry e = some x) :
    (2 ≤ x.count → (leaveEntry s e).entry e = some { x with count := x.count - 1 } ∧
      (leaveEntry s e).oat.writeBackList = s.oat.writeBackList) ∧
    (x.count ≤ 1 → e ∉ s.oat.writeBackList → s.ctl.inProgress = none →
      (leaveEntry s e).entry e = some { x with count := 0, state := .closing } ∧
        (leaveEntry s e).oat.writeBackList = s.oat.writeBackList ++ [e]) := by
  refine ⟨fun h2 => ?_, fun h1 unlisted idle => ?_⟩
  · rw [leaveEntry_others hx h2]
    simp
  · have writing : s.writingBack e = false := by simp only [State.writingBack, idle]
    rw [leaveEntry_last hx h1 writing unlisted]
    simp [State.entry, vector_get_set]

theorem leaveEntry_entry_other (s : State) {e k : EntryNo} (hk : k ≠ e) : (leaveEntry s e).entry k = s.entry k := by
  unfold leaveEntry
  split
  · rfl
  · dsimp only
    split
    · split
      · rw [setEntry_entry, if_neg hk]
      · rw [queueEntry_entry, if_neg (fun h => hk h.1), setEntry_entry, if_neg hk]
    · rw [setEntry_entry, if_neg hk]

end Sys2Proof.Machine
end

/-! # What the end of a session leaves, by any cause (R184 to R193) -/
section
namespace Sys2Proof.Machine

/-! ## The session leaves its entry -/

/-- The session of line `l` has left entry `e`, a credit having been posted or not: `y` is what it left. -/
structure SessionLeft (s t : State) (l : LineNo) (e : EntryNo) (y : OatEntry) : Prop where
  residue : (t.line l).residue = 0
  charged : (t.line l).charged = (s.line l).closingCharge
  others : ∀ k, k ≠ l → t.line k = s.line k
  pa : t.pa = s.pa
  oat : t.oat = (leaveEntry (s.setEntry e (some y)) e).oat

theorem Examined.oat_eq {s t : State} (h : Examined s t) : t.oat = s.oat := by rw [h]

/-- What leaves lines, ports and entries. -/
theorem SessionLeft.of_parts {s t u : State} {l : LineNo} {e : EntryNo} {y : OatEntry} (h : SessionLeft s t l e y)
    (hlc : u.lc = t.lc) (hpa : u.pa = t.pa) (ho : u.oat = t.oat) : SessionLeft s u l e y := by
  have line : ∀ k, u.line k = t.line k := fun k => by rw [State.line, hlc]; rfl
  exact ⟨by rw [line]; exact h.residue, by rw [line]; exact h.charged, fun k hk => (line k).trans (h.others k hk),
    hpa.trans h.pa, ho.trans h.oat⟩

/-- Parts 3 to 6 of the settlement of a session whose account stays NORMAL (R188 to R190). -/
theorem settleSession_normal {s : State} {l : LineNo} {e : EntryNo} {x : OatEntry} (he : (s.line l).entryRef = some e)
    (hx : s.entry e = some x) (hn : StaysNormal x (s.line l)) (co : EndedSecond) (st : AdmittedStage) :
    SessionLeft s (settleSession (meterAction co) s l st none) l e (x.posted (s.line l).owes) := by
  set metered := (closeMeter (meterAction co) s l e st none).modLine l (fun r => { r with entryRef := none }) with hm
  have closed : metered = (s.setEntry e (some (x.posted (s.line l).owes))).modLine l (fun r =>
      { r with residue := 0, charged := r.closingCharge, entryRef := none }) := by
    rw [hm, closeMeter_normal hx hn, modLine_modLine]
  have left : SessionLeft s (leaveEntry metered e) l e (x.posted (s.line l).owes) := by
    obtain ⟨oat, parts⟩ := leaveEntry_parts metered e
    have line : ∀ k, (leaveEntry metered e).line k = metered.line k := leaveEntry_line metered e
    refine ⟨?_, ?_, fun k hk => ?_, ?_, leaveEntry_oat_congr ?_ ?_ e⟩
    · rw [line, closed]; simp
    · rw [line, closed]; simp
    · rw [line, closed]; simp [hk]
    · rw [parts, closed]; rfl
    · rw [closed]; rfl
    · rw [closed]; rfl
  rcases settleSession_of_ref (meterAction co) he st none with same | ⟨n, watched⟩
  · rw [same]
    exact left
  · rw [watched]
    obtain ⟨hlc, hpa⟩ := examineWatches_lc_pa (leaveEntry metered e) .sessionEnd n l false
    exact left.of_parts hlc hpa (examined_examineWatches (leaveEntry metered e) .sessionEnd n l false).oat_eq

/-! ## The rest of settlement, and the entry to CLOSING -/

/-- The rest of settlement, on the ports and on what it keeps of its line. -/
theorem dropCounts_summary (s : State) (l : LineNo) (cause : EndCause) (admitted : Bool) :
    let t := dropCounts (writeSummary s l cause admitted) l
    ((t.line l).residue = (s.line l).residue ∧ (t.line l).charged = (s.line l).charged) ∧ (∀ k, k ≠ l → t.line k = s.line k) ∧
      t.pa = { s.pa with bus := dropSlotCommands l s.pa.bus } ∧ t.oat = s.oat := by
  refine ⟨?_, fun k hk => ?_, rfl, rfl⟩
  · simp [dropCounts, emptySlots, writeSummary, withdraw, dropHold, State.line, State.modLine, State.onLines, State.onAttention]
  · simp [dropCounts, emptySlots, writeSummary, withdraw, dropHold, State.line, State.modLine, State.onLines, State.onAttention, hk]

/-- The entry to CLOSING leaves the residue and the charge of its line. -/
theorem enterClosing_charges (s : State) (l : LineNo) (credits : Nat) :
    ((enterClosing s l credits).line l).residue = (s.line l).residue ∧
      ((enterClosing s l credits).line l).charged = (s.line l).charged := by
  have timed : (s.modLine l (fun r => { r with stageTimer := some Config.closingLimit })).lc.line l =
      { s.line l with stageTimer := some Config.closingLimit } := (modLine_line s l l _).trans (if_pos rfl)
  have speaks : ∀ f : LineCtl → LineCtl, (∀ c, SpeaksOnly l c (f c)) →
      (((s.modLine l (fun r => { r with stageTimer := some Config.closingLimit })).onLines f).line l).residue =
        (s.line l).residue ∧
      (((s.modLine l (fun r => { r with stageTimer := some Config.closingLimit })).onLines f).line l).charged =
        (s.line l).charged := fun f hf => by
    obtain ⟨_, _, _, _, _, _, said⟩ := (hf (s.modLine l (fun r => { r with stageTimer := some Config.closingLimit })).lc).line
    rw [onLines_line, said, timed]
    exact ⟨rfl, rfl⟩
  unfold enterClosing
  dsimp only
  split
  · exact speaks _ fun c => speaksOnly_requestGoodbye l c credits
  · exact speaks _ fun c => speaksOnly_release l c

/-! ## The whole end -/

/-- The session of line `l` on entry `e`, which holds `x`, has ended: the end of its call, and what it leaves of the entry, of the
lines and of the ports. -/
structure SessionEnds (cause : EndCause) (out : Bool) (l : LineNo) (e : EntryNo) (x : OatEntry) (s t : State) : Prop where
  ended : CallEnded cause s t l
  kept : KeptAtEnd s t
  residue : (t.line l).residue = 0
  charged : (t.line l).charged = (s.line l).closingCharge
  others : ∀ k, k ≠ l → t.line k = (settleClaims s l out).line k
  pa : t.pa = { (settleClaims s l out).pa with bus := dropSlotCommands l (settleClaims s l out).pa.bus }
  oat : t.oat = (leaveEntry (s.setEntry e (some (x.posted (s.line l).owes))) e).oat

/-- The end of a session whose account stays NORMAL, outside the queue. -/
theorem endCall_sessionEnds {s : State} {l : LineNo} {st : AdmittedStage} {e : EntryNo} {x : OatEntry}
    (hp : (s.line l).phase = .admitted st) (hw : st ≠ .waiting) (he : (s.line l).entryRef = some e) (hx : s.entry e = some x)
    (hn : StaysNormal x (s.line l)) (cause : EndCause) (out : Bool) :
    SessionEnds cause out l e x s (endCall noSecond s l cause out) := by
  have inCall : (s.line l).phase.inCall = true := by rw [hp]; rfl
  obtain ⟨ended, keeps⟩ := endCall_spec noSecond s l cause out inCall
  have calm := calm_settleClaims s l out
  have own := settleClaims_own (s := s) (l := l) (by rw [hp]; exact fun h => hw (Phase.admitted.inj h)) out
  have kept : ((settleClaims s l out).line l).owes = (s.line l).owes ∧
      ((settleClaims s l out).line l).closingCharge = (s.line l).closingCharge ∧
      (StaysNormal x (s.line l) → StaysNormal x ((settleClaims s l out).line l)) := by
    rw [own]
    exact ⟨rfl, rfl, id⟩
  obtain ⟨owes, charge, stays⟩ := kept
  have entry : (settleClaims s l out).entry e = some x := by rw [State.entry, calm.oat]; exact hx
  have session := settleSession_normal ((settleClaims_entryRef s l out l).trans he) entry (stays hn) noSecond st
  rw [owes] at session
  have work : settleWork (meterAction noSecond) s l out none =
      settleSession (meterAction noSecond) (settleClaims s l out) l st none := by
    simp only [settleWork, hp]
  obtain ⟨⟨residue, charged⟩, others, pa, oat⟩ := dropCounts_summary
    (settleSession (meterAction noSecond) (settleClaims s l out) l st none) l cause (s.line l).phase.isAdmitted
  have run : ∃ credits, endCall noSecond s l cause out = enterClosing (dropCounts (writeSummary
      (settleSession (meterAction noSecond) (settleClaims s l out) l st none) l cause (s.line l).phase.isAdmitted) l) l credits := by
    rw [endCall, endCallWith, if_pos inCall, ← work]
    exact ⟨_, rfl⟩
  obtain ⟨credits, run⟩ := run
  rw [run] at ended keeps ⊢
  obtain ⟨c, alone, one⟩ := enterClosing_alone (dropCounts (writeSummary
    (settleSession (meterAction noSecond) (settleClaims s l out) l st none) l cause (s.line l).phase.isAdmitted) l) l credits
  obtain ⟨lastResidue, lastCharged⟩ := enterClosing_charges (dropCounts (writeSummary
    (settleSession (meterAction noSecond) (settleClaims s l out) l st none) l cause (s.line l).phase.isAdmitted) l) l credits
  refine ⟨ended, keeps.keptAtEnd, lastResidue.trans (residue.trans session.residue),
    lastCharged.trans (charged.trans (session.charged.trans charge)), fun k hk => ?_, ?_, ?_⟩
  · rw [alone]
    exact (one.others k hk).trans ((others k hk).trans (session.others k hk))
  · rw [alone]
    exact pa.trans (by rw [session.pa])
  · rw [alone]
    refine oat.trans (session.oat.trans (leaveEntry_oat_congr ?_ ?_ e))
    · rw [State.setEntry, calm.oat]; rfl
    · rw [setEntry_ctl, calm.ctl]; rfl

end Sys2Proof.Machine
end

/-! # O41: the commands that end a session (R57, R65, R74, R136, R141, R159, R163, R184) -/
section
namespace Sys2Proof.Machine

/-! ## What the response and the service mark leave of the end -/

section
variable {cause : EndCause} {out : Bool} {l : LineNo} {e : EntryNo} {x : OatEntry} {s t : State}

/-- The end does not look at the supervisor port. -/
theorem SessionEnds.of_withSup {p : SupPort} (h : SessionEnds cause out l e x (s.withSup p) t) :
    SessionEnds cause out l e x s t where
  ended := h.ended
  kept := h.kept
  residue := h.residue
  charged := h.charged
  others := fun k hk => (h.others k hk).trans (by rw [withSup_settleClaims]; rfl)
  pa := h.pa.trans (by rw [withSup_settleClaims]; rfl)
  oat := h.oat.trans (leaveEntry_oat_congr (s := (s.withSup p).setEntry e _) (t := s.setEntry e _) rfl rfl e)

theorem SessionEnds.respond (h : SessionEnds cause out l e x s t) (c : Code) (clamped : Bool) (result : List Byte) :
    SessionEnds cause out l e x s (respond t c clamped result) := by
  rw [respond_eq]
  exact ⟨h.ended, h.kept, h.residue, h.charged, h.others, h.pa, h.oat⟩

theorem SessionEnds.outOfService (h : SessionEnds cause out l e x s t) :
    SessionEnds cause out l e x s (t.modLine l (fun r => { r with outOfService := true })) := by
  have own : (t.modLine l (fun r => { r with outOfService := true })).line l = { t.line l with outOfService := true } := by simp
  refine ⟨?_, h.kept, ?_, ?_, fun k hk => ?_, h.pa, h.oat⟩
  · have ended := h.ended
    simp only [CallEnded, GoodbyeWaits, GoodbyeSpoken, goodbyeCredits, ReleasedAtEnd] at ended ⊢
    rw [own]
    exact ended
  · rw [own]; exact h.residue
  · rw [own]; exact h.charged
  · rw [modLine_line, if_neg hk]
    exact h.others k hk

end

/-! ## The commands -/

theorem exec_hostDisconnect_inUse {s : State} {p : PortNo} {l : LineNo} (hs : (s.port p).state = .inUse)
    (hl : (s.port p).line = some l) : exec (.hostDisconnect p) s = .next (endCall noSecond s l .hostEnded false) := by
  show Host.Outcome.next (hostDisconnect s p) = _
  simp only [hostDisconnect, hs, hl]

theorem exec_lineRxChar_quits {s : State} {l : LineNo} (hp : (s.line l).phase = .admitted .escaped) {c : Byte}
    (hc : low7 c = 81 ∨ low7 c = 113) :
    exec (.lineRxChar l.val c) s = .next (endCall noSecond s l .userQuit false) := by
  have other : ¬(low7 c = 82 ∨ low7 c = 114) := by omega
  show Host.Outcome.next (lineEvent l.val s _) = _
  simp only [lineEvent, lineNo?_val, lineRxChar, hp, admittedChar, escapedChar, other, hc, if_true, if_false]

theorem exec_idleWarningExpiry_due {s : State} {l : LineNo} (hp : (s.line l).phase = .admitted .connected)
    (due : (s.line l).idleWarning = some 0) :
    exec (.idleWarningExpiry l) s = .next (endCall noSecond s l .idle false) := by
  have at0 : expiryDue s (.idleWarning l) = true := by simp [expiryDue, timerOf, hp, due]
  show Host.Outcome.next (takeExpiry noSecond s _) = _
  rw [takeExpiry, if_pos at0]; rfl

theorem exec_exhaustionCountdownExpiry_due {s : State} {l : LineNo} (ha : (s.line l).phase.isAdmitted = true)
    (due : (s.line l).exhaustion = some 0) :
    exec (.exhaustionCountdownExpiry l) s = .next (endCall noSecond s l .exhausted false) := by
  have at0 : expiryDue s (.exhaustion l) = true := by simp [expiryDue, timerOf, ha, due]
  show Host.Outcome.next (takeExpiry noSecond s _) = _
  rw [takeExpiry, if_pos at0]; rfl

theorem exec_hoursCountdownExpiry_due {s : State} {l : LineNo} (ha : (s.line l).phase.isAdmitted = true)
    (due : (s.line l).hours = some 0) (hx : (s.line l).exhaustion ≠ some 0) :
    exec (.hoursCountdownExpiry l) s = .next (endCall noSecond s l .hours false) := by
  have at0 : expiryDue s (.hours l) = true := by simp [expiryDue, timerOf, ha, due]
  show Host.Outcome.next (takeExpiry noSecond s _) = _
  rw [takeExpiry, if_pos at0, expire, if_neg hx]

/-- A request that completes at once is carried out on the port that has accepted it (R199, R200). -/
theorem submit_withSup {s : State} (h : s.sup.busy = false) {q : QuickReq} (hf : requestLengthFits (.quick q) = true) :
    submit s (.quick q) = carryOutQuick (s.withSup s.sup.accepted) q := submit_quick h q hf

section
variable {s : State} {l : LineNo} {st : AdmittedStage} (idle : s.sup.busy = false) (hp : (s.line l).phase = .admitted st)
include idle

include hp in
theorem exec_forceEnd_admitted : exec (.forceEnd l.val) s =
    .next (respond (endCall noSecond (s.withSup s.sup.accepted) l .supervisor false) .ok false []) := by
  have phase : ((s.withSup s.sup.accepted).line l).phase = .admitted st := hp
  show Host.Outcome.next (submit s _) = _
  rw [submit_withSup idle rfl]
  show Host.Outcome.next (onLineRequest (s.withSup s.sup.accepted) _ _) = _
  simp only [onLineRequest, lineNo?_val, forceEndLine, phase]

include hp in
theorem exec_lineServiceOut_admitted : exec (.lineServiceOut l.val) s =
    .next (respond ((endCall noSecond (s.withSup s.sup.accepted) l .supervisor false).modLine l (fun r =>
      { r with outOfService := true })) .ok false []) := by
  have phase : ((s.withSup s.sup.accepted).line l).phase = .admitted st := hp
  show Host.Outcome.next (submit s _) = _
  rw [submit_withSup idle rfl]
  show Host.Outcome.next (onLineRequest (s.withSup s.sup.accepted) _ _) = _
  simp only [onLineRequest, lineNo?_val, lineOut, phase]

theorem exec_portServiceOut_inUse {p : PortNo} (hs : (s.port p).state = .inUse) (hl : (s.port p).line = some l) :
    exec (.portServiceOut p.val) s =
      .next (respond (endCall noSecond (s.withSup s.sup.accepted) l .supervisor true) .ok false []) := by
  have state : ((s.withSup s.sup.accepted).port p).state = .inUse := hs
  have line : ((s.withSup s.sup.accepted).port p).line = some l := hl
  have port : portNo? p.val = some p := by simp [portNo?]
  show Host.Outcome.next (submit s _) = _
  rw [submit_withSup idle rfl]
  show Host.Outcome.next (onPortRequest (s.withSup s.sup.accepted) _ _) = _
  simp only [onPortRequest, port, portOut, state, line]

end

/-- The response OK of a request that ended a call. -/
theorem respond_ok_sup {s t : State} (h : t.sup = s.sup.accepted) :
    (respond t .ok false []).sup = s.sup.answered 0 false [] := by
  rw [respond_eq]
  show t.sup.offered _ _ _ = _
  rw [h]
  rfl

/-- The command `i` ends the session of line `l`, which names port `p`, with a cause; `out` is set for PORT_SERVICE out. -/
def EndsSession (i : Instr) (cause : EndCause) (out : Bool) (p : PortNo) (l : LineNo) (s : State) : Prop :=
  cause = .hostEnded ∧ out = false ∧ i = .hostDisconnect p ∧ (s.port p).state = .inUse ∨
  cause = .userQuit ∧ out = false ∧ (i = .lineRxChar l.val 81 ∨ i = .lineRxChar l.val 113) ∧
    (s.line l).phase = .admitted .escaped ∨
  cause = .carrierLost ∧ out = false ∧ i = .carrierHoldExpiry l ∧ (s.line l).carrierHold = some 0 ∨
  cause = .idle ∧ out = false ∧ i = .idleWarningExpiry l ∧ (s.line l).phase = .admitted .connected ∧
    (s.line l).idleWarning = some 0 ∨
  cause = .exhausted ∧ out = false ∧ i = .exhaustionCountdownExpiry l ∧ (s.line l).exhaustion = some 0 ∨
  cause = .hours ∧ out = false ∧ i = .hoursCountdownExpiry l ∧ (s.line l).hours = some 0 ∧ (s.line l).exhaustion ≠ some 0 ∨
  cause = .supervisor ∧ s.sup.busy = false ∧
    (out = false ∧ (i = .forceEnd l.val ∨ i = .lineServiceOut l.val) ∨
      out = true ∧ i = .portServiceOut p.val ∧ (s.port p).state = .inUse)

/-- Each of the commands ends the session, and a request responds. -/
theorem EndsSession.run {i : Instr} {cause : EndCause} {out : Bool} {p : PortNo} {l : LineNo} {s : State}
    (h : EndsSession i cause out p l s) (hl : (s.port p).line = some l) {st : AdmittedStage}
    (hp : (s.line l).phase = .admitted st) {e : EntryNo} {x : OatEntry}
    (ends : ∀ sup, SessionEnds cause out l e x (s.withSup sup) (endCall noSecond (s.withSup sup) l cause out)) :
    ∃ t, exec i s = .next t ∧ SessionEnds cause out l e x s t ∧
      t.sup = if cause = .supervisor then s.sup.answered 0 false [] else s.sup := by
  have inCall : (s.line l).phase.inCall = true := by rw [hp]; rfl
  have admitted : (s.line l).phase.isAdmitted = true := by rw [hp]; rfl
  have keeps : ∀ sup, (endCall noSecond (s.withSup sup) l cause out).sup = sup := fun sup =>
    (endKeeps_endCall noSecond (s.withSup sup) l cause out).sup
  have event : exec i s = .next (endCall noSecond s l cause out) → cause ≠ .supervisor → ∃ t, exec i s = .next t ∧
      SessionEnds cause out l e x s t ∧ t.sup = if cause = .supervisor then s.sup.answered 0 false [] else s.sup :=
    fun run hc => ⟨_, run, ends s.sup, by rw [if_neg hc]; exact keeps s.sup⟩
  rcases h with ⟨rfl, rfl, rfl, hs⟩ | ⟨rfl, rfl, rfl | rfl, escaped⟩ | ⟨rfl, rfl, rfl, due⟩ | ⟨rfl, rfl, rfl, connected, due⟩ |
    ⟨rfl, rfl, rfl, due⟩ | ⟨rfl, rfl, rfl, due, first⟩ | ⟨rfl, idle, ⟨rfl, rfl | rfl⟩ | ⟨rfl, rfl, hs⟩⟩
  · exact event (exec_hostDisconnect_inUse hs hl) nofun
  · exact event (exec_lineRxChar_quits escaped (.inl (by decide))) nofun
  · exact event (exec_lineRxChar_quits escaped (.inr (by decide))) nofun
  · exact event (exec_carrierHoldExpiry_due inCall due) nofun
  · exact event (exec_idleWarningExpiry_due connected due) nofun
  · exact event (exec_exhaustionCountdownExpiry_due admitted due) nofun
  · exact event (exec_hoursCountdownExpiry_due admitted due first) nofun
  · exact ⟨_, exec_forceEnd_admitted idle hp, (ends _).of_withSup.respond _ _ _, respond_ok_sup (keeps _)⟩
  · exact ⟨_, exec_lineServiceOut_admitted idle hp, (ends _).of_withSup.outOfService.respond _ _ _, respond_ok_sup (keeps _)⟩
  · exact ⟨_, exec_portServiceOut_inUse idle hs hl, (ends _).of_withSup.respond _ _ _, respond_ok_sup (keeps _)⟩

/-! ## The credit of the closing -/

theorem debit_band {a : Account} (h : 0 < a.allotment) {b : Band} (hb : a.bandTotals.get b ≤ 16777215) :
    a.debit (.band b) = { a with
      allotment := a.allotment - 1, bandTotals := a.bandTotals.set b (min 16777215 (a.bandTotals.get b + 1)) } := by
  simp only [Account.debit, Account.countCredit, h, if_true, satSucc_eq_min hb]

theorem debit_wait {a : Account} (h : 0 < a.allotment) (hw : a.waitTotal ≤ 16777215) :
    a.debit .wait = { a with allotment := a.allotment - 1, waitTotal := min 16777215 (a.waitTotal + 1) } := by
  simp only [Account.debit, Account.countCredit, h, if_true, satSucc_eq_min hw]

theorem holdsPort_admitted {ph : Phase} (h : ph.holdsPort = true) : ∃ st, ph = .admitted st ∧ st ≠ .waiting := by
  cases ph with
  | admitted st => exact ⟨st, rfl, fun hw => by subst hw; simp [Phase.holdsPort] at h⟩
  | _ => simp [Phase.holdsPort] at h

/-- Settles O41: each command runs the end of the session, and the port is given up or handed on. -/
theorem sessionEndReleasesPort : Obligations.SessionEndReleasesPort := by
  unfold Obligations.SessionEndReleasesPort
  intro i cause out p l e x s hport hline hholds he hx hnormal hcharged hwait hbands hi a rounded paid left
  obtain ⟨st, hp, hw⟩ := holdsPort_admitted hholds
  have funds : 0 < a.allotment := Nat.lt_of_le_of_lt (Nat.zero_le _) hnormal
  have stays : StaysNormal x (s.line l) := ⟨by omega, fun _ => hnormal⟩
  obtain ⟨t, run, ends, sup⟩ := EndsSession.run (s := s) (i := i) (p := p) hi hline hp fun sup =>
    endCall_sessionEnds (s := s.withSup sup) hp hw he hx stays cause out
  have posted : x.posted (s.line l).owes = left := by
    by_cases hr : rounded
    · obtain ⟨c, hc⟩ := Option.ne_none_iff_exists'.1 hr.2
      have owes : (s.line l).owes = some c := owes_some.2 ⟨hr.1, hc⟩
      have pays : x.acct.debit c = paid := by
        simp only [paid, hr, if_true, hc]
        cases c with
        | band b => exact debit_band funds (hbands b)
        | wait => exact debit_wait funds hwait
      simp only [owes, OatEntry.posted, left, pays, hr, decide_true, Bool.or_true]
    · simp only [owes_none.2 hr, OatEntry.posted, left, paid, hr, if_false, decide_false, Bool.or_false, a]
  obtain ⟨others, last⟩ := leaveEntry_entry (s := s.setEntry e (some left)) (e := e) (x := left) (by simp)
  have oat : t.oat = (leaveEntry (s.setEntry e (some left)) e).oat := by rw [← posted]; exact ends.oat
  have entry : ∀ k, t.entry k = (leaveEntry (s.setEntry e (some left)) e).entry k := fun k => by rw [State.entry, oat]; rfl
  have port : ∀ q, t.port q = (settleClaims s l out).port q := fun q => by rw [State.port, ends.pa]; rfl
  have group : ∀ g, t.group g = (settleClaims s l out).group g := fun g => by rw [State.group, ends.pa]; rfl
  have bus : ∀ cmds, (settleClaims s l out).pa.bus = cmds → t.pa.bus = dropSlotCommands l cmds := fun cmds h => by
    rw [ends.pa, h]
  have charge : (s.line l).closingCharge =
      if rounded then min 16777215 ((s.line l).charged + 1) else (s.line l).charged := by
    rw [LineRec.closingCharge, satSucc_eq_min hcharged]
  refine ⟨t, run, ends.ended, ends.kept, sup, ⟨ends.residue, ends.charged.trans charge⟩, ⟨fun h2 => ?_, fun h1 unlisted idle => ?_,
    fun k hk => ?_⟩, ?_⟩
  · rw [entry, oat]
    exact others h2
  · rw [entry, oat]
    exact last h1 unlisted idle
  · rw [entry, leaveEntry_entry_other _ hk, setEntry_entry, if_neg hk]
  have claims : settleClaims s l out = releasePort (s.modLine l (fun r => { r with phase := .closing })) p l out := by
    rw [settleClaims_release (by rw [hp]; exact fun h => hw (Phase.admitted.inj h)), hport]
  rcases releasePort_cases s p l out with ⟨freed, why⟩ | ⟨g, place, rest, rfl, ready, role, hg, hq, handed⟩
  · rw [← claims] at freed
    have released : ∀ state, (s.port p).givenUp out = state →
        t.port p = { s.port p with state := state, line := none, callTimer := none } ∧ (∀ k, t.group k = s.group k) ∧
          t.pa.bus = dropSlotCommands l (s.pa.bus ++ [.hangUp p]) := by
      rintro state rfl
      exact ⟨(port p).trans freed.port, fun k => (group k).trans (freed.group k), bus _ freed.bus⟩
    refine ⟨fun q hq => (port q).trans (freed.ports q hq), fun k hk _ => (ends.others k hk).trans (freed.others k hk),
      fun ho => released _ (by rw [PortRec.givenUp, ho]; rfl),
      fun ho hr => released _ (by rw [PortRec.givenUp, ho, hr]; rfl),
      fun ho hr _ => released _ (by rw [PortRec.givenUp, ho, hr]; rfl), fun g place rest ho hr role hg hq => ?_⟩
    simp [ho, hr, role, hg, hq] at why
  · rw [← claims] at handed
    refine ⟨fun q hq => (port q).trans (handed.ports q hq),
      fun k hk first => (ends.others k hk).trans (handed.others k hk (first g place rest hg hq)), nofun,
      fun _ hr => ?_, fun _ _ nobody => ?_, fun g' place' rest' _ _ _ hg' hq' other => ?_⟩
    · rw [ready] at hr
      cases hr
    · rcases nobody with spare | empty
      · rw [role] at spare
        cases spare
      · rw [empty g hg] at hq
        cases hq
    · obtain rfl : g = g' := Option.some.inj (hg.symm.trans hg')
      obtain ⟨rfl, rfl⟩ := List.cons.inj (hq.symm.trans hq')
      exact ⟨(port p).trans handed.port, (ends.others _ other).trans (handed.head other), (group g).trans handed.group,
        fun k hk => (group k).trans (handed.groups k hk), fun k y n hk hy hn => bus _ (handed.bus other k y n hk hy hn)⟩

end Sys2Proof.Machine
end

/-! # The parts of a second event at which little happens (R51, R65, R122, R140, R155, R166)

Lines that rest, ports that call nobody and empty queues: no expiry is due, and each part of the event leaves them alone. -/
section
namespace Sys2Proof.Machine

/-! ## One item of a list -/

/-- A step that does something for one item of a list only. -/
theorem foldl_single {α β : Type} {f : β → α → β} {a : α} {xs : List α} {s : β} (once : xs.Nodup) (ha : a ∈ xs)
    (before : ∀ b, b ≠ a → f s b = s) (after : ∀ b, b ≠ a → f (f s a) b = f s a) : xs.foldl f s = f s a := by
  have fixed : ∀ (ys : List α) (t : β), (∀ b ∈ ys, f t b = t) → ys.foldl f t = t := fun ys t h => by
    induction ys with
    | nil => rfl
    | cons y ys ih =>
      rw [List.foldl_cons, h y List.mem_cons_self]
      exact ih fun b hb => h b (List.mem_cons_of_mem y hb)
  induction xs with
  | nil => cases ha
  | cons x xs ih =>
    obtain ⟨hx, hxs⟩ := List.nodup_cons.1 once
    rw [List.foldl_cons]
    by_cases hax : x = a
    · subst hax
      exact fixed xs _ fun b hb => after b fun h => hx (h ▸ hb)
    · rw [before x hax]
      exact ih hxs ((List.mem_cons.1 ha).resolve_left (Ne.symm hax))

theorem allLines_nodup : allLines.Nodup := List.nodup_finRange 96

theorem mem_allLines (l : LineNo) : l ∈ allLines := List.mem_finRange l

/-! ## Lines at rest, and a connected line with nothing to warn of -/

/-- A line that is in no call. -/
def Resting (r : LineRec) : Prop := r.phase = .idle ∨ r.phase = .down

theorem Resting.not_admitted {r : LineRec} (h : Resting r) : r.phase.isAdmitted = false := by
  rcases h with h | h <;> rw [h] <;> rfl

theorem Resting.not_connected {r : LineRec} (h : Resting r) : r.phase ≠ .admitted .connected := by
  rcases h with h | h <;> rw [h] <;> nofun

/-- A CONNECTED line none of whose timers runs out. -/
structure Undisturbed (r : LineRec) : Prop where
  phase : r.phase = .admitted .connected
  carrierHold : r.carrierHold = none
  exhaustion : r.exhaustion = none
  idleWarning : r.idleWarning = none
  hours : r.hours ≠ some 0

/-- Every line rests or is undisturbed, and no port is CALLING. -/
structure NothingDue (s : State) : Prop where
  lines : ∀ l, Resting (s.line l) ∨ Undisturbed (s.line l)
  ports : ∀ p, (s.port p).state ≠ .calling

section
variable {s : State}

theorem NothingDue.timerOf_ne (h : NothingDue s) (x : Expiry) : timerOf s x ≠ some 0 := by
  cases x
  case callTimer p => simp [timerOf, h.ports p]
  all_goals
    rename_i l
    rcases h.lines l with (rests | rests) | ⟨phase, hold, exhaustion, warning, hours⟩
    · simp [timerOf, stageTimerIn, rests, Phase.inCall, Phase.isAdmitted]
    · simp [timerOf, stageTimerIn, rests, Phase.inCall, Phase.isAdmitted]
    · simp [timerOf, stageTimerIn, Phase.inCall, Phase.isAdmitted, phase, hold, exhaustion, warning, hours]

theorem takeExpiry_notDue (h : NothingDue s) (co : EndedSecond) (x : Expiry) : takeExpiry co s x = s := by
  have due : expiryDue s x = false := by simpa [expiryDue] using h.timerOf_ne x
  simp only [takeExpiry, due, Bool.false_eq_true, if_false]

theorem takeExpiries_notDue (h : NothingDue s) (co : EndedSecond) (xs : List Expiry) :
    xs.foldl (takeExpiry co) s = s := List.foldl_fixed' (takeExpiry_notDue h co) xs

end

/-! ## Timers (R51) -/

theorem tickLine_resting {r : LineRec} (h : Resting r) : tickLine r = r := by
  rcases h with h | h <;>
    simp [tickLine, tickIf, h, Phase.stageTimerRuns, Phase.inCall, Phase.isAdmitted] <;> rw [← h]

/-- Of an undisturbed line the hours countdown alone runs. -/
theorem tickLine_undisturbed {r : LineRec} (h : Undisturbed r) :
    tickLine r = { r with hours := r.hours.map (fun n => n - 1) } := by
  simp [tickLine, tickIf, tick, Phase.stageTimerRuns, Phase.inCall, Phase.isAdmitted, h.phase, h.carrierHold, h.exhaustion,
    h.idleWarning]

theorem tickPort_not_calling {p : PortRec} (h : p.state ≠ .calling) : tickPort p = p := by
  simp [tickPort, tickIf, h]

theorem ports_tick {s : State} (h : ∀ p, (s.port p).state ≠ .calling) : s.pa.ports.map tickPort = s.pa.ports := by
  refine Vector.ext fun i hi => ?_
  rw [Vector.getElem_map]
  exact tickPort_not_calling (h ⟨i, hi⟩)

theorem tickTimers_resting {s : State} (lines : ∀ l, Resting (s.line l)) (ports : ∀ p, (s.port p).state ≠ .calling) :
    tickTimers s = s := by
  have same : s.lc.lines.map tickLine = s.lc.lines := by
    refine Vector.ext fun i hi => ?_
    rw [Vector.getElem_map]
    exact tickLine_resting (lines ⟨i, hi⟩)
  rw [tickTimers, same, ports_tick ports]

theorem tickTimers_session {s : State} {l : LineNo} (own : Undisturbed (s.line l)) (others : ∀ k, k ≠ l → Resting (s.line k))
    (ports : ∀ p, (s.port p).state ≠ .calling) :
    tickTimers s = s.modLine l (fun r => { r with hours := r.hours.map (fun n => n - 1) }) := by
  have lines : s.lc.lines.map tickLine =
      s.lc.lines.set l { s.line l with hours := (s.line l).hours.map (fun n => n - 1) } := by
    refine Vector.ext fun i hi => ?_
    rw [Vector.getElem_map, Vector.getElem_set]
    split
    · rename_i here
      subst here
      exact tickLine_undisturbed own
    · rename_i there
      exact tickLine_resting (others ⟨i, hi⟩ fun h => there (congrArg Fin.val h).symm)
  rw [tickTimers, lines, ports_tick ports]
  rfl

/-! ## Queues (R155, R166) -/

/-- Every queue is empty, below its threshold. -/
def QueuesEmpty (s : State) : Prop := ∀ g, (s.group g).queue = [] ∧ 1 ≤ (s.group g).congestionThreshold

theorem QueuesEmpty.of_pa {s t : State} (h : QueuesEmpty s) (k : t.pa = s.pa) : QueuesEmpty t := fun g => by
  rw [State.group, k]
  exact h g

theorem countCongestion_nobody {s : State} (h : QueuesEmpty s) : countCongestion s = s := by
  have same : s.pa.groups.map countLevel = s.pa.groups := by
    refine Vector.ext fun i hi => ?_
    obtain ⟨empty, threshold⟩ := h ⟨i, hi⟩
    rw [Vector.getElem_map, countLevel, if_neg]
    rintro ⟨_, full⟩
    rw [show s.pa.groups[i].queue = [] from empty] at full
    exact absurd (threshold.trans full) (by simp)
  rw [countCongestion, same]

/-- A minute event with nobody waiting is the quarter-hour flush (R40). -/
theorem minuteEvent_nobody {s : State} (h : QueuesEmpty s) :
    minuteEvent s = if s.cal.view.minute % 15 = 0 then flushEntries s else s := by
  have told : allGroups.foldl announceQueue s = s := List.foldl_fixed' (fun g => by rw [announceQueue, (h g).1]; rfl) allGroups
  rw [minuteEvent, told]

/-! ## Idle counting, the Meter's steps and the band edge -/

theorem countIdle_not_connected {s : State} {l : LineNo} (h : (s.line l).phase ≠ .admitted .connected) : countIdle s l = s := by
  simp only [countIdle, h, if_false]

theorem judgeHours_not_admitted {s : State} {l : LineNo} (h : (s.line l).phase.isAdmitted = false) (b : Band) :
    judgeHours b s l = s := by
  simp only [judgeHours, h, Bool.false_eq_true, if_false]

/-- A band edge finds no session to judge. -/
theorem takeBandEdge_resting {s : State} (h : ∀ l, Resting (s.line l)) : takeBandEdge s = s := by
  unfold takeBandEdge
  split
  · exact List.foldl_fixed' (fun l => judgeHours_not_admitted (h l).not_admitted _) allLines
  · rfl

theorem countIdles_resting {s : State} (h : ∀ l, Resting (s.line l)) : allLines.foldl countIdle s = s :=
  List.foldl_fixed' (fun l => countIdle_not_connected (h l).not_connected) allLines

theorem owedSteps_resting {s : State} (h : ∀ l, Resting (s.line l)) : s.owedSteps = [] :=
  List.filter_eq_nil_iff.2 fun l _ => by simp [(h l).not_admitted]

theorem owedSteps_session {s : State} {l : LineNo} (own : (s.line l).phase.isAdmitted = true)
    (others : ∀ k, k ≠ l → Resting (s.line k)) : s.owedSteps = [l] := by
  have only : ∀ k ∈ allLines, (s.line k).phase.isAdmitted = decide (k = l) := fun k _ => by
    by_cases hk : k = l
    · subst hk; simp [own]
    · simp [hk, (others k hk).not_admitted]
  rw [State.owedSteps, List.filter_congr only, List.filter_eq, List.count_eq_one_of_mem allLines_nodup (mem_allLines l)]
  rfl

/-! ## The calendar apart -/

/-- The machine with another calendar. -/
def State.withCal (s : State) (c : Calendar) : State := { s with cal := c }

section
variable (s : State) (c : Calendar)

@[simp] theorem withCal_line (l : LineNo) : (s.withCal c).line l = s.line l := rfl
@[simp] theorem withCal_group (g : GroupNo) : (s.withCal c).group g = s.group g := rfl
@[simp] theorem withCal_entry (e : EntryNo) : (s.withCal c).entry e = s.entry e := rfl
@[simp] theorem withCal_cal : (s.withCal c).cal = c := rfl
@[simp] theorem withCal_pa : (s.withCal c).pa = s.pa := rfl

theorem withCal_flushStep (e : EntryNo) : flushStep (s.withCal c) e = (flushStep s e).withCal c := by
  cases flushes : s.flushes e with
  | false =>
    rw [flushStep_rests flushes]
    exact flushStep_rests (s := s.withCal c) flushes
  | true =>
    rw [flushStep_flushes flushes, flushStep_flushes (s := s.withCal c) flushes]
    have unlisted : s.queued e = false := by simpa [State.queued] using (flushes_iff.1 flushes).1
    have unlisted' : (s.withCal c).queued e = false := unlisted
    simp only [queueEntry, unlisted, unlisted', Bool.false_eq_true, if_false]
    rfl

/-- A flush does not look at the calendar. -/
theorem withCal_flushEntries : flushEntries (s.withCal c) = (flushEntries s).withCal c := by
  rw [flushEntries_eq, flushEntries_eq]
  generalize allEntries = es
  induction es generalizing s with
  | nil => rfl
  | cons e es ih => rw [List.foldl_cons, List.foldl_cons, withCal_flushStep, ih]

theorem withCal_postCredits (e : EntryNo) (l : LineNo) (k : Category) (n : Nat) :
    postCredits (s.withCal c) e l k n = (postCredits s e l k n).withCal c := by
  induction n generalizing s with
  | zero => rfl
  | succ n ih => exact ih (postCredit s e l k)

theorem withCal_chargeCategory (v : View) (l : LineNo) (e : EntryNo) (k : Category) :
    chargeCategory (s.withCal c) v l e k = (chargeCategory s v l e k).withCal c :=
  withCal_postCredits (s.modLine l (fun r => { r with
    residue := ((s.line l).residue + v.rate k (s.lineClass l)) % Config.creditUnit, lastCategory := some k })) c e l k _

theorem withCal_countSecond (l : LineNo) (e : EntryNo) (st : AdmittedStage) :
    countSecond (s.withCal c) l e st = (countSecond s l e st).withCal c := by
  unfold countSecond
  split <;> rfl

/-- The Meter's step looks at the view it is given, not at the calendar. -/
theorem withCal_chargeSecond (v : View) (l : LineNo) (e : EntryNo) (st : AdmittedStage) :
    chargeSecond (s.withCal c) v l e st = (chargeSecond s v l e st).withCal c := by
  unfold chargeSecond
  dsimp only
  rw [withCal_countSecond, withCal_line]
  split
  · rfl
  · split
    · rfl
    · exact withCal_chargeCategory _ c v l e _

end

theorem latchSecond_eq (s : State) : latchSecond s = s.withCal s.cal.secondEvent := rfl

theorem secondEvent_prevView (c : Calendar) : c.secondEvent.prevView = c.view := by
  unfold Calendar.secondEvent Calendar.advance
  split <;> split <;> rfl

/-- Within a minute the tariff set in force stays (R118). -/
theorem secondEvent_active {c : Calendar} (h : c.second < 59) : c.secondEvent.active = c.active := by
  have within : c.minuteNext = false := decide_eq_false (Nat.not_le.2 h)
  simp only [Calendar.secondEvent, within, Calendar.advance, h, if_true, Bool.false_and, Bool.false_eq_true, if_false]
  rfl

end Sys2Proof.Machine
end

/-! # A second with no calls (R40, R106, R166) -/
section
namespace Sys2Proof.Machine

/-- The flush of a minute event whose minute is a multiple of 15 (R40). -/
def quarterFlush (c : Calendar) (s : State) : State :=
  if c.minuteNext ∧ s.cal.view.minute % 15 = 0 then flushEntries s else s

theorem minutePart_nobody {s : State} (h : QueuesEmpty s) (c : Calendar) :
    (if c.minuteNext then minuteEvent s else s) = quarterFlush c s := by
  unfold quarterFlush
  cases c.minuteNext with
  | false => simp
  | true => simp [minuteEvent_nobody h]

theorem flushEntries_cal (s : State) : (flushEntries s).cal = s.cal := by
  obtain ⟨-, -, oat, flushed⟩ := flushEntries_spec s
  rw [flushed]

theorem quarterFlush_cal (c : Calendar) (s : State) : (quarterFlush c s).cal = s.cal := by
  unfold quarterFlush
  split
  · exact flushEntries_cal s
  · rfl

section
variable {s : State}

/-- A moment that is no store operation, with no steps owed and nothing due. -/
theorem takeMoment_notDue (h : NothingDue s) (v : View) {m : SecondMoment}
    (hm : m ≠ .rotationChoice ∧ ∀ writes, m ≠ .storeOperationComplete writes) : takeMoment v [] s m = s := by
  cases m with
  | step l => exact takeMoment_step_of_not_owed v [] s l (by simp)
  | expiry x =>
    show (if mayExpire [] x then takeExpiry (owedUnder v []) s x else s) = s
    rw [takeExpiry_notDue h, ite_self]
  | rotationChoice => exact absurd rfl hm.1
  | storeOperationComplete writes => exact absurd rfl (hm.2 writes)

theorem takeMoments_notDue (h : NothingDue s) (v : View) {ms : List SecondMoment}
    (hm : ∀ m ∈ ms, m ≠ .rotationChoice ∧ ∀ writes, m ≠ .storeOperationComplete writes) :
    takeMoments v [] ms s = s := by
  induction ms with
  | nil => rfl
  | cons m ms ih =>
    have owed : owedAfter [] m = [] := by cases m <;> rfl
    rw [takeMoments_cons, takeMoment_notDue h v (hm m List.mem_cons_self), owed]
    exact ih fun k hk => hm k (List.mem_cons_of_mem m hk)

/-- A second event with every line at rest, no port CALLING, nobody waiting and no store operation. -/
theorem secondEvent_resting {order : SecondOrder} (lines : ∀ l, Resting (s.line l)) (ports : ∀ p, (s.port p).state ≠ .calling)
    (queues : QueuesEmpty s) (hm : ∀ m ∈ order.moments, m ≠ .rotationChoice ∧ ∀ writes, m ≠ .storeOperationComplete writes) :
    secondEvent order s = quarterFlush s.cal (s.withCal s.cal.secondEvent) := by
  have quiet : NothingDue s := ⟨fun l => .inl (lines l), ports⟩
  have early : takeEarly order.early (tickTimers (takeOverdue s)) = s := by
    rw [takeOverdue, takeExpiries_notDue quiet, tickTimers_resting lines ports, takeEarly, takeExpiries_notDue quiet]
  unfold secondEvent
  dsimp only
  rw [early, latchSecond_eq]
  generalize s.cal.secondEvent = c
  have rest : ∀ l, Resting ((s.withCal c).line l) := lines
  have still : NothingDue (s.withCal c) := ⟨quiet.lines, quiet.ports⟩
  have empty : QueuesEmpty (s.withCal c) := queues
  rw [countIdles_resting rest, countCongestion_nobody empty, owedSteps_resting rest, takeMoments_notDue still _ hm,
    takeExpiries_notDue still, takeBandEdge_resting rest, minutePart_nobody empty]

end

end Sys2Proof.Machine
end

/-! # A second of a session counted and charged (R124 to R129)

What a step of the Meter leaves of a session whose account is well above its low threshold. -/
section
namespace Sys2Proof.Machine

/-- The session of line `l` on entry `e` has been counted, and charged with `n` credits. -/
structure Charges (l : LineNo) (e : EntryNo) (n : Nat) (s t : State) : Prop where
  pa : t.pa = s.pa
  cal : t.cal = s.cal
  others : ∀ k, k ≠ l → t.line k = s.line k
  phase : (t.line l).phase = (s.line l).phase
  ref : (t.line l).entryRef = (s.line l).entryRef
  hours : (t.line l).hours = (s.line l).hours
  entry : ∀ x, s.entry e = some x → ∃ y, t.entry e = some y ∧ y.acct.cls = x.acct.cls ∧
    y.acct.lowThreshold = x.acct.lowThreshold ∧ y.acct.allotment = x.acct.allotment - n

theorem Charges.refl (l : LineNo) (e : EntryNo) (s : State) : Charges l e 0 s s :=
  ⟨rfl, rfl, fun _ _ => rfl, rfl, rfl, rfl, fun x hx => ⟨x, hx, rfl, rfl, rfl⟩⟩

theorem Charges.trans {l : LineNo} {e : EntryNo} {n m : Nat} {a b c : State} (h : Charges l e n a b) (k : Charges l e m b c) :
    Charges l e (n + m) a c where
  pa := k.pa.trans h.pa
  cal := k.cal.trans h.cal
  others := fun j hj => (k.others j hj).trans (h.others j hj)
  phase := k.phase.trans h.phase
  ref := k.ref.trans h.ref
  hours := k.hours.trans h.hours
  entry := fun x hx => by
    obtain ⟨y, hy, cls, low, allotment⟩ := h.entry x hx
    obtain ⟨z, hz, cls', low', allotment'⟩ := k.entry y hy
    exact ⟨z, hz, cls'.trans cls, low'.trans low, by omega⟩

theorem charges_modLine {l : LineNo} {s : State} {f : LineRec → LineRec} (e : EntryNo)
    (h : (f (s.line l)).phase = (s.line l).phase ∧ (f (s.line l)).entryRef = (s.line l).entryRef ∧
      (f (s.line l)).hours = (s.line l).hours) : Charges l e 0 s (s.modLine l f) := by
  obtain ⟨phase, ref, hours⟩ := h
  refine ⟨rfl, rfl, fun k hk => by rw [modLine_line, if_neg hk], ?_, ?_, ?_, (Charges.refl l e s).entry⟩
  · rw [modLine_line, if_pos rfl, phase]
  · rw [modLine_line, if_pos rfl, ref]
  · rw [modLine_line, if_pos rfl, hours]

theorem charges_modEntry {e : EntryNo} {s : State} {f : OatEntry → OatEntry} {n : Nat} (l : LineNo)
    (h : ∀ x, (f x).acct.cls = x.acct.cls ∧ (f x).acct.lowThreshold = x.acct.lowThreshold ∧
      (f x).acct.allotment = x.acct.allotment - n) : Charges l e n s (s.modEntry e f) where
  pa := rfl
  cal := rfl
  others := fun _ _ => rfl
  phase := rfl
  ref := rfl
  hours := rfl
  entry := fun x hx => ⟨f x, by simp [hx], h x⟩

theorem charges_countSecond (s : State) (l : LineNo) (e : EntryNo) (st : AdmittedStage) :
    Charges l e 0 s (countSecond s l e st) := by
  have admitted : Charges l e 0 s (s.modLine l (fun r => { r with admittedSeconds := satSucc max24 r.admittedSeconds })) :=
    charges_modLine e ⟨rfl, rfl, rfl⟩
  unfold countSecond
  dsimp only
  split
  · have connected := admitted.trans (charges_modLine
      (f := fun r => { r with connectedSeconds := satSucc max24 r.connectedSeconds }) e ⟨rfl, rfl, rfl⟩)
    refine connected.trans (charges_modEntry (n := 0) l fun x => ?_)
    exact ⟨rfl, rfl, rfl⟩
  · exact admitted

theorem charges_postCredit (s : State) (e : EntryNo) (l : LineNo) (c : Category) : Charges l e 1 s (postCredit s e l c) :=
  (charges_modEntry l fun x => debit_spec x.acct c).trans (charges_modLine e ⟨rfl, rfl, rfl⟩)

theorem postCredits_charges (s : State) (e : EntryNo) (l : LineNo) (c : Category) (n : Nat) :
    Charges l e n s (postCredits s e l c n) ∧ ((postCredits s e l c n).line l).residue = (s.line l).residue := by
  induction n generalizing s with
  | zero => exact ⟨.refl l e s, rfl⟩
  | succ n ih =>
    obtain ⟨charges, residue⟩ := ih (postCredit s e l c)
    refine ⟨?_, residue.trans (by simp [postCredit])⟩
    have both := (charges_postCredit s e l c).trans charges
    rw [Nat.add_comm] at both
    exact both

/-- A second of a CONNECTED session costs at most 2 credits, and only one where the closing of the meter would post another. -/
theorem chargeSecond_charges {s : State} {l : LineNo} {e : EntryNo} {x : OatEntry} {v : View}
    (he : (s.line l).entryRef = some e) (hx : s.entry e = some x) (hr : (s.line l).residue < 60000)
    (hv : v.bandRates.get x.acct.cls ≤ 65535) :
    ∃ n, Charges l e n s (chargeSecond s v l e .connected) ∧ n ≤ 2 ∧
      (30000 ≤ ((chargeSecond s v l e .connected).line l).residue → n ≤ 1) := by
  have counted := charges_countSecond s l e .connected
  have residue : ((countSecond s l e .connected).line l).residue = (s.line l).residue := by simp [countSecond, stageConnected]
  unfold chargeSecond
  dsimp only
  split
  · exact ⟨0, counted.trans (charges_modLine e ⟨rfl, rfl, rfl⟩), by omega, fun _ => by omega⟩
  · obtain ⟨y, hy, cls, -, -⟩ := counted.entry x hx
    have rate : v.rate (.band v.band) ((countSecond s l e .connected).lineClass l) = v.bandRates.get x.acct.cls := by
      simp only [State.lineClass, State.lineEntry, counted.ref, he, hy, View.rate, cls]
    simp only [stageCategory, chargeCategory, rate, residue, Config.creditUnit]
    have bound : (s.line l).residue + v.bandRates.get x.acct.cls < 125535 := by omega
    generalize (s.line l).residue + v.bandRates.get x.acct.cls = sum at bound ⊢
    obtain ⟨posted, kept⟩ := postCredits_charges ((countSecond s l e .connected).modLine l (fun r =>
      { r with residue := sum % 60000, lastCategory := some (.band v.band) })) e l (.band v.band) (sum / 60000)
    rw [modLine_line, if_pos rfl] at kept
    refine ⟨0 + (0 + sum / 60000), counted.trans ((charges_modLine e ⟨rfl, rfl, rfl⟩).trans posted), by omega, fun large => ?_⟩
    rw [kept] at large
    have left : 30000 ≤ sum % 60000 := large
    omega

end Sys2Proof.Machine
end

/-! # A second of one CONNECTED session (R65, R119, R122, R140) -/
section
namespace Sys2Proof.Machine

/-! ## One session -/

/-- The only line in a call is `l`, CONNECTED on entry `e`, which holds `x`, and nobody waits. -/
structure OneSession (l : LineNo) (e : EntryNo) (x : OatEntry) (s : State) : Prop where
  others : ∀ k, k ≠ l → Resting (s.line k)
  phase : (s.line l).phase = .admitted .connected
  ref : (s.line l).entryRef = some e
  entry : s.entry e = some x
  queues : QueuesEmpty s

section
variable {l : LineNo} {e : EntryNo} {x : OatEntry} {s : State}

theorem OneSession.admitted (h : OneSession l e x s) : (s.line l).phase.isAdmitted = true := by rw [h.phase]; rfl

theorem OneSession.lineClass (h : OneSession l e x s) : s.lineClass l = x.acct.cls := by
  simp only [State.lineClass, State.lineEntry, h.ref, h.entry]

theorem OneSession.withCal (h : OneSession l e x s) (c : Calendar) : OneSession l e x (s.withCal c) :=
  ⟨h.others, h.phase, h.ref, h.entry, h.queues⟩

theorem OneSession.modLine (h : OneSession l e x s) {f : LineRec → LineRec}
    (hf : (f (s.line l)).phase = (s.line l).phase ∧ (f (s.line l)).entryRef = (s.line l).entryRef) :
    OneSession l e x (s.modLine l f) := by
  obtain ⟨phase, ref⟩ := hf
  refine ⟨fun k hk => ?_, ?_, ?_, h.entry, h.queues⟩
  · rw [modLine_line, if_neg hk]
    exact h.others k hk
  · rw [modLine_line, if_pos rfl, phase, h.phase]
  · rw [modLine_line, if_pos rfl, ref, h.ref]

theorem requestMessage_line (s : State) (l : LineNo) (n : MsgNo) (i : Nat) : ∃ current pending busy,
    (requestMessage s l n i).line l = { s.line l with current := current, pending := pending, txBusy := busy } :=
  request_line l s.lc n i

theorem OneSession.requestMessage (h : OneSession l e x s) (n : MsgNo) (i : Nat) :
    OneSession l e x (requestMessage s l n i) := by
  obtain ⟨_, _, _, own⟩ := requestMessage_line s l n i
  refine ⟨fun k hk => ?_, ?_, ?_, h.entry, h.queues⟩
  · rw [show (Machine.requestMessage s l n i).line k = s.line k from (speaksOnly_request l s.lc n i).others k hk]
    exact h.others k hk
  · rw [own]; exact h.phase
  · rw [own]; exact h.ref

/-- A second of the session is counted and charged. -/
theorem OneSession.charges (h : OneSession l e x s) {n : Nat} {t : State} (k : Charges l e n s t) :
    ∃ y, OneSession l e y t ∧ y.acct.cls = x.acct.cls ∧ y.acct.lowThreshold = x.acct.lowThreshold ∧
      y.acct.allotment = x.acct.allotment - n := by
  obtain ⟨y, hy, rest⟩ := k.entry x h.entry
  refine ⟨y, ⟨fun j hj => ?_, k.phase.trans h.phase, k.ref.trans h.ref, hy, h.queues.of_pa k.pa⟩, rest⟩
  rw [k.others j hj]
  exact h.others j hj

/-- The Meter's step of a session whose account stays NORMAL is the charging of its second (R122, R133). -/
theorem meterStep_normal (h : OneSession l e x s) (co : EndedSecond) {v : View}
    (normal : x.acct.lowThreshold + 2 < x.acct.allotment) (hr : (s.line l).residue < 60000)
    (hv : v.bandRates.get x.acct.cls ≤ 65535) :
    let t := chargeSecond s v l e .connected
    meterStep co v s l = t ∧ t.cal = s.cal ∧ (t.line l).hours = (s.line l).hours ∧
      ∃ y, OneSession l e y t ∧ y.acct.cls = x.acct.cls ∧ StaysNormal y (t.line l) := by
  obtain ⟨n, charges, atMost, closing⟩ := chargeSecond_charges h.ref h.entry hr hv
  obtain ⟨y, session, cls, low, allotment⟩ := h.charges charges
  have after : y.acct.lowThreshold < y.acct.allotment := by omega
  have unchanged : State.creditOf (chargeSecond s v l e .connected) e = s.creditOf e := by
    rw [creditOf_some session.entry, creditOf_some h.entry, creditState_normal.2 after]
    exact (creditState_normal.2 (by omega)).symm
  refine ⟨?_, charges.cal, charges.hours, y, session, cls, after, fun large => ?_⟩
  · simp only [meterStep, h.phase, h.ref]
    exact meterAction_unchanged co unchanged
  · have := closing large
    omega

/-! ## Idle counting (R65) -/

/-- The idle warning where the count has reached the limit. -/
def warnIdle (p : ClassPolicy) (idle : Nat) (l : LineNo) (s : State) : State :=
  if p.idleLimit ≠ 0 ∧ p.idleLimit * 30 ≤ idle then
    requestMessage (s.modLine l (fun r => { r with idleWarning := some p.idleWarning })) l 13 p.idleWarning
  else s

theorem countIdle_session (h : OneSession l e x s) (warning : (s.line l).idleWarning = none)
    (bound : (s.line l).idleCount.getD 0 ≤ 65535) :
    countIdle s l = warnIdle (s.policy x.acct.cls) (min 65535 ((s.line l).idleCount.getD 0 + 1)) l
      (s.modLine l (fun r => { r with idleCount := some (min 65535 ((s.line l).idleCount.getD 0 + 1)) })) := by
  simp only [countIdle, h.phase, if_true, satSucc_eq_min bound, h.lineClass, warning, and_true, warnIdle]

/-- The idle warning leaves the session what it is. -/
theorem warnIdle_session (h : OneSession l e x s) (p : ClassPolicy) (idle : Nat) :
    OneSession l e x (warnIdle p idle l s) ∧ (warnIdle p idle l s).cal = s.cal ∧
      ((warnIdle p idle l s).line l).residue = (s.line l).residue ∧ ((warnIdle p idle l s).line l).hours = (s.line l).hours := by
  unfold warnIdle
  split
  · obtain ⟨_, _, _, own⟩ := requestMessage_line (s.modLine l (fun r => { r with idleWarning := some p.idleWarning })) l 13
      p.idleWarning
    rw [modLine_line, if_pos rfl] at own
    refine ⟨(h.modLine ⟨rfl, rfl⟩).requestMessage 13 _, rfl, ?_, ?_⟩
    · rw [own]
    · rw [own]
  · exact ⟨h, rfl, rfl, rfl⟩

/-! ## The band edge (R140) -/

theorem judgeHours_allowed (h : OneSession l e x s) {b : Band} (hb : (s.policy x.acct.cls).allowedBands.getLsbD b.val = true) :
    judgeHours b s l = s.modLine l (fun r => { r with hours := none }) := by
  simp only [judgeHours, h.admitted, if_true, h.lineClass, ClassPolicy.allows, hb]

/-- A countdown that runs keeps its count. -/
theorem judgeHours_counting (h : OneSession l e x s) {b : Band}
    (hb : ¬(s.policy x.acct.cls).allowedBands.getLsbD b.val = true) (hh : (s.line l).hours ≠ none) : judgeHours b s l = s := by
  obtain ⟨n, hours⟩ := Option.ne_none_iff_exists'.1 hh
  simp only [judgeHours, h.admitted, if_true, h.lineClass, ClassPolicy.allows, hb, hours]
  rfl

/-- The hours countdown is loaded, with message 12. -/
def warnHours (p : ClassPolicy) (l : LineNo) (s : State) : State :=
  requestMessage (s.modLine l (fun r => { r with hours := some p.hoursGrace })) l 12 p.hoursGrace

theorem OneSession.warnHours (h : OneSession l e x s) (p : ClassPolicy) : OneSession l e x (warnHours p l s) :=
  (h.modLine (f := fun r => { r with hours := some p.hoursGrace }) ⟨rfl, rfl⟩).requestMessage 12 p.hoursGrace

theorem judgeHours_warns (h : OneSession l e x s) {b : Band}
    (hb : ¬(s.policy x.acct.cls).allowedBands.getLsbD b.val = true) (hh : (s.line l).hours = none) :
    judgeHours b s l = if (s.policy x.acct.cls).hoursGrace = 0 then
      endCall noSecond (warnHours (s.policy x.acct.cls) l s) l .hours false else warnHours (s.policy x.acct.cls) l s := by
  simp only [judgeHours, h.admitted, if_true, h.lineClass, ClassPolicy.allows, hb, hh]
  rfl

/-- A line in no queue gives its port up where nobody waits: no other line and no group changes. -/
theorem settleClaims_nobody (hw : (s.line l).phase ≠ .admitted .waiting) (queues : QueuesEmpty s) (out : Bool) :
    (∀ k, k ≠ l → (settleClaims s l out).line k = s.line k) ∧ ∀ g, (settleClaims s l out).group g = s.group g := by
  rw [settleClaims_release hw]
  cases (s.line l).port with
  | none => exact ⟨fun k hk => by rw [modLine_line, if_neg hk], fun _ => rfl⟩
  | some p =>
    rcases releasePort_cases s p l out with ⟨freed, _⟩ | ⟨g, place, rest, _, _, _, _, waits, _⟩
    · exact ⟨freed.others, freed.group⟩
    · rw [(queues g).1] at waits
      cases waits

/-- What the judgement leaves beside the line: the other lines rest, nobody waits, and the calendar stands. -/
structure StillQuiet (l : LineNo) (c : Calendar) (s : State) : Prop where
  others : ∀ k, k ≠ l → Resting (s.line k)
  queues : QueuesEmpty s
  cal : s.cal = c

theorem OneSession.stillQuiet (h : OneSession l e x s) : StillQuiet l s.cal s := ⟨h.others, h.queues, rfl⟩

theorem endCall_stillQuiet (h : OneSession l e x s) (hn : StaysNormal x (s.line l)) (cause : EndCause) :
    StillQuiet l s.cal (endCall noSecond s l cause false) := by
  have ends := endCall_sessionEnds h.phase nofun h.ref h.entry hn cause false
  obtain ⟨others, groups⟩ := settleClaims_nobody (by rw [h.phase]; nofun) h.queues false
  obtain ⟨-, cal, -⟩ := ends.kept
  refine ⟨fun k hk => ?_, fun g => ?_, cal⟩
  · rw [ends.others k hk, others k hk]
    exact h.others k hk
  · rw [show (endCall noSecond s l cause false).group g = (settleClaims s l false).group g by rw [State.group, ends.pa]; rfl,
      groups g]
    exact h.queues g

theorem judgeHours_stillQuiet (h : OneSession l e x s) (hn : StaysNormal x (s.line l)) (b : Band) :
    StillQuiet l s.cal (judgeHours b s l) := by
  by_cases hb : (s.policy x.acct.cls).allowedBands.getLsbD b.val = true
  · rw [judgeHours_allowed h hb]
    exact (h.modLine ⟨rfl, rfl⟩).stillQuiet
  · by_cases hh : (s.line l).hours = none
    · have warned : OneSession l e x (warnHours (s.policy x.acct.cls) l s) := (h.modLine ⟨rfl, rfl⟩).requestMessage 12 _
      have stays : StaysNormal x ((warnHours (s.policy x.acct.cls) l s).line l) := by
        obtain ⟨_, _, _, own⟩ := requestMessage_line (s.modLine l (fun r =>
          { r with hours := some (s.policy x.acct.cls).hoursGrace })) l 12 (s.policy x.acct.cls).hoursGrace
        rw [modLine_line, if_pos rfl] at own
        rw [warnHours, own]
        exact hn
      rw [judgeHours_warns h hb hh]
      split
      · exact endCall_stillQuiet (h.warnHours _) stays .hours
      · exact (h.warnHours _).stillQuiet
    · rw [judgeHours_counting h hb hh]
      exact h.stillQuiet

/-- A band edge judges the session, and nothing else. -/
theorem takeBandEdge_session (h : OneSession l e x s) (hn : StaysNormal x (s.line l)) :
    takeBandEdge s = (if bandEdge s.cal.prevView s.cal.view then judgeHours s.cal.view.band s l else s) ∧
      StillQuiet l s.cal (takeBandEdge s) := by
  have judged := judgeHours_stillQuiet h hn s.cal.view.band
  have whole : takeBandEdge s = if bandEdge s.cal.prevView s.cal.view then judgeHours s.cal.view.band s l else s := by
    rw [takeBandEdge, foldl_single allLines_nodup (mem_allLines l)
      (fun k hk => judgeHours_not_admitted (h.others k hk).not_admitted _)
      (fun k hk => judgeHours_not_admitted (judged.others k hk).not_admitted _)]
  refine ⟨whole, ?_⟩
  rw [whole]
  split
  · exact judged
  · exact h.stillQuiet

/-! ## The whole second -/

/-- The session's idle count when it has risen (R65). -/
def LineRec.idleNext (r : LineRec) : Nat := min 65535 (r.idleCount.getD 0 + 1)

/-- The session with its timers and its idle count moved on, under the calendar of the second that begins. -/
def State.counted (s : State) (l : LineNo) : State :=
  (s.modLine l (fun r => { r with idleCount := some (s.line l).idleNext, hours := r.hours.map (fun n => n - 1) })).withCal
    s.cal.secondEvent

/-- The session under the policy of the calendar that begins, its idle count judged. -/
def State.warned (s : State) (l : LineNo) (x : OatEntry) : State :=
  warnIdle (s.cal.secondEvent.active.policies.get x.acct.cls) (s.line l).idleNext l (s.counted l)

/-- The session when its second has been counted and charged. -/
def State.chargedSecond (s : State) (l : LineNo) (e : EntryNo) (x : OatEntry) : State :=
  chargeSecond (s.warned l x) s.cal.view l e .connected

/-- A second of one undisturbed session, well above its low threshold, up to the band edge. -/
structure SecondOf (l : LineNo) (e : EntryNo) (x : OatEntry) (s : State) : Prop where
  session : OneSession l e x s
  undisturbed : Undisturbed (s.line l)
  ports : ∀ p, (s.port p).state ≠ .calling
  normal : x.acct.lowThreshold + 2 < x.acct.allotment
  residue : (s.line l).residue < 60000
  rate : s.cal.view.bandRates.get x.acct.cls ≤ 65535
  idleCount : (s.line l).idleCount.getD 0 ≤ 65535

/-- The idle count leaves one session, on a line whose residue stands and whose hours countdown has run. -/
theorem SecondOf.warned (h : SecondOf l e x s) :
    OneSession l e x (s.warned l x) ∧ (s.warned l x).cal = s.cal.secondEvent ∧
      ((s.warned l x).line l).residue = (s.line l).residue ∧
      ((s.warned l x).line l).hours = (s.line l).hours.map (fun n => n - 1) := by
  have own : (s.counted l).line l =
      { s.line l with idleCount := some (s.line l).idleNext, hours := (s.line l).hours.map (fun n => n - 1) } := by
    simp [State.counted]
  have counted : OneSession l e x (s.counted l) := (h.session.modLine ⟨rfl, rfl⟩).withCal s.cal.secondEvent
  obtain ⟨warned, cal, residue, hours⟩ := warnIdle_session counted (s.cal.secondEvent.active.policies.get x.acct.cls)
    (s.line l).idleNext
  rw [own] at residue hours
  exact ⟨warned, cal, residue, hours⟩

/-- The session after its step is still one of a NORMAL account. -/
theorem SecondOf.charged (h : SecondOf l e x s) :
    (∀ co, meterStep co s.cal.view (s.warned l x) l = s.chargedSecond l e x) ∧
      (s.chargedSecond l e x).cal = s.cal.secondEvent ∧
      ((s.chargedSecond l e x).line l).hours = (s.line l).hours.map (fun n => n - 1) ∧
      ∃ y, OneSession l e y (s.chargedSecond l e x) ∧ y.acct.cls = x.acct.cls ∧
        StaysNormal y ((s.chargedSecond l e x).line l) := by
  obtain ⟨warned, cal, residue, hours⟩ := h.warned
  have step := fun co => meterStep_normal warned co h.normal (v := s.cal.view) (by rw [residue]; exact h.residue) h.rate
  obtain ⟨-, cal', hours', session⟩ := step noSecond
  exact ⟨fun co => (step co).1, cal'.trans cal, hours'.trans hours, session⟩

/-- The timers take their second, and no expiry is due before. -/
theorem SecondOf.ticked (h : SecondOf l e x s) :
    takeEarly [] (tickTimers (takeOverdue s)) = s.modLine l (fun r => { r with hours := r.hours.map (fun n => n - 1) }) := by
  have due : NothingDue s := ⟨fun k => by
    by_cases hk : k = l
    · exact .inr (hk ▸ h.undisturbed)
    · exact .inl (h.session.others k hk), h.ports⟩
  rw [takeOverdue, takeExpiries_notDue due, tickTimers_session h.undisturbed h.session.others h.ports]
  rfl

/-- The idle counts of all lines, after the latching. -/
theorem SecondOf.countIdles (h : SecondOf l e x s) :
    allLines.foldl countIdle ((s.modLine l (fun r => { r with hours := r.hours.map (fun n => n - 1) })).withCal
      s.cal.secondEvent) = s.warned l x := by
  set latched := (s.modLine l (fun r => { r with hours := r.hours.map (fun n => n - 1) })).withCal s.cal.secondEvent with hl
  have session : OneSession l e x latched := (h.session.modLine ⟨rfl, rfl⟩).withCal s.cal.secondEvent
  have record : latched.line l = { s.line l with hours := (s.line l).hours.map (fun n => n - 1) } := by simp [hl]
  have risen : latched.modLine l (fun r => { r with idleCount := some (s.line l).idleNext }) = s.counted l :=
    congrArg (fun t : State => t.withCal s.cal.secondEvent) (modLine_modLine s l
      (fun r => { r with hours := r.hours.map (fun n => n - 1) }) (fun r => { r with idleCount := some (s.line l).idleNext }))
  have own : countIdle latched l = s.warned l x := by
    rw [countIdle_session session (by rw [record]; exact h.undisturbed.idleWarning) (by rw [record]; exact h.idleCount), record]
    exact congrArg (warnIdle _ _ l) risen
  rw [foldl_single allLines_nodup (mem_allLines l) (fun k hk => countIdle_not_connected (session.others k hk).not_connected)
    (fun k hk => countIdle_not_connected (by rw [own]; exact (h.warned.1.others k hk).not_connected)), own]

/-- A second of one session: its step, the band edge, and the quarter-hour flush. -/
theorem SecondOf.event (h : SecondOf l e x s) :
    secondEvent {} s = quarterFlush s.cal (takeBandEdge (s.chargedSecond l e x)) := by
  obtain ⟨warned, warnedCal, -, -⟩ := h.warned
  obtain ⟨step, -, -, y, session, -, stays⟩ := h.charged
  have view : (s.warned l x).cal.prevView = s.cal.view := by rw [warnedCal, secondEvent_prevView]
  unfold secondEvent
  dsimp only
  rw [h.ticked, latchSecond_eq, modLine_cal, h.countIdles, countCongestion_nobody warned.queues, view,
    owedSteps_session warned.admitted warned.others, takeMoments_nil, meterSteps, meterSteps, step, List.foldl_nil,
    minutePart_nobody (takeBandEdge_session session stays).2.queues]

end

end Sys2Proof.Machine
end

/-! # O57 and O58: seconds with no calls and of one session -/
section
namespace Sys2Proof.Machine

theorem exec_secondEvent (order : SecondOrder) (s : State) : exec (.secondEvent order) s = .next (secondEvent order s) := rfl

theorem minuteNext_iff (c : Calendar) : c.minuteNext = true ↔ 59 ≤ c.second := by simp [Calendar.minuteNext]

theorem bandEdge_iff (p c : View) : bandEdge p c = true ↔ c.band ≠ p.band ∨ c.generation ≠ p.generation := by
  rw [bandEdge, Bool.or_eq_true, decide_eq_true_eq, decide_eq_true_eq]
  exact or_congr ne_comm ne_comm

/-- The quarter-hour flush is not about calls. -/
theorem CallEnded.quarterFlush {cause : EndCause} {s t : State} {l : LineNo} (h : CallEnded cause s t l) (c : Calendar) :
    CallEnded cause s (quarterFlush c t) l := by
  unfold Machine.quarterFlush
  split
  · obtain ⟨-, -, oat, flushed⟩ := flushEntries_spec t
    rw [flushed]
    exact h
  · exact h

section
variable {l : LineNo} {e : EntryNo} {x : OatEntry} {s : State}

/-- The calendar of a second of one session is the calendar's own (R106). -/
theorem SecondOf.event_cal (h : SecondOf l e x s) : (secondEvent {} s).cal = s.cal.secondEvent := by
  obtain ⟨-, cal, -, y, session, -, stays⟩ := h.charged
  rw [h.event, quarterFlush_cal, (takeBandEdge_session session stays).2.cal, cal]

/-- The band edge of a second of one session: its line is judged, where an edge is taken. -/
theorem SecondOf.takeBandEdge (h : SecondOf l e x s) : takeBandEdge (s.chargedSecond l e x) =
    if bandEdge s.cal.view s.cal.secondEvent.view then
      judgeHours s.cal.secondEvent.view.band (s.chargedSecond l e x) l else s.chargedSecond l e x := by
  obtain ⟨-, cal, -, y, session, -, stays⟩ := h.charged
  rw [(takeBandEdge_session session stays).1, cal, secondEvent_prevView]

/-- A quiet second within a minute is counted and charged, and its idle count rises (R65, R125 to R129). -/
theorem SecondOf.event_quiet (h : SecondOf l e x s) (within : s.cal.second < 59) (hours : (s.line l).hours = none)
    (unlimited : (s.cal.active.policies.get x.acct.cls).idleLimit = 0)
    (allowed : ∀ b : Band, (s.cal.active.policies.get x.acct.cls).allowedBands.getLsbD b.val = true) :
    secondEvent {} s = (chargeSecond (s.modLine l (fun r => { r with idleCount := some (min 65535 (r.idleCount.getD 0 + 1)) }))
      s.cal.view l e .connected).withCal s.cal.secondEvent := by
  obtain ⟨-, cal, ran, y, session, cls, -⟩ := h.charged
  have noMinute : ¬(s.cal.minuteNext = true) := mt (minuteNext_iff s.cal).1 (Nat.not_le.2 within)
  have noWarning : s.warned l x = s.counted l := by
    rw [State.warned, warnIdle, if_neg]
    rintro ⟨limited, -⟩
    rw [secondEvent_active within] at limited
    exact limited unlimited
  have counted : s.counted l = (s.modLine l (fun r =>
      { r with idleCount := some (min 65535 (r.idleCount.getD 0 + 1)) })).withCal s.cal.secondEvent :=
    congrArg (fun t : State => t.withCal s.cal.secondEvent) (modLine_congr (by simp [LineRec.idleNext, hours]))
  have charged : s.chargedSecond l e x = (chargeSecond (s.modLine l (fun r =>
      { r with idleCount := some (min 65535 (r.idleCount.getD 0 + 1)) })) s.cal.view l e .connected).withCal
        s.cal.secondEvent := by
    rw [State.chargedSecond, noWarning, counted, withCal_chargeSecond]
  have judged : judgeHours s.cal.secondEvent.view.band (s.chargedSecond l e x) l = s.chargedSecond l e x := by
    have allows : (State.policy (s.chargedSecond l e x) y.acct.cls).allowedBands.getLsbD
        s.cal.secondEvent.view.band.val = true := by
      rw [State.policy, cal, secondEvent_active within, cls]
      exact allowed _
    rw [judgeHours_allowed session allows]
    refine modLine_self ?_
    rw [hours] at ran
    rw [← (show ((s.chargedSecond l e x).line l).hours = none from ran)]
  rw [h.event, quarterFlush, if_neg fun k => noMinute k.1, h.takeBandEdge, judged, ite_self, charged]

end

/-- Settles O57: with no calls no part of the event has anything to do, and a quiet second is charged alone. -/
theorem oneSecondPasses : Obligations.OneSecondPasses := by
  unfold Obligations.OneSecondPasses
  refine ⟨fun order s lines ports queues moments => ⟨_, exec_secondEvent order s, ?_⟩,
    fun l e x s within others ports queues phase ref entry hold exhaustion hours warning unlimited allowed normal residue rate
      idle => ⟨_, exec_secondEvent {} s, ?_⟩⟩
  · have event := secondEvent_resting lines ports queues moments
    have cal : (secondEvent order s).cal = s.cal.secondEvent := by rw [event, quarterFlush_cal]; rfl
    rw [cal, event]
    refine ⟨fun h => if_neg ?_, fun minute quarter => ?_⟩
    · rintro ⟨minute, quarter⟩
      have := (minuteNext_iff s.cal).1 minute
      exact h.elim (by omega) fun k => k quarter
    · rw [quarterFlush, if_pos ⟨(minuteNext_iff s.cal).2 minute, quarter⟩, withCal_flushEntries]
      rfl
  · have second : SecondOf l e x s :=
      ⟨⟨others, phase, ref, entry, queues⟩, ⟨phase, hold, exhaustion, warning, by rw [hours]; nofun⟩, ports, normal, residue, rate,
        idle⟩
    rw [second.event_cal]
    exact second.event_quiet within hours unlimited allowed

/-- Settles O58: the second is charged as any other, and a band edge judges the line. -/
theorem secondWarnsSession : Obligations.SecondWarnsSession := by
  unfold Obligations.SecondWarnsSession
  intro l e x s _ inMinute others ports queues phase ref entry hold exhaustion warning hours normal residue rate idleBound
  have second : SecondOf l e x s :=
    ⟨⟨others, phase, ref, entry, queues⟩, ⟨phase, hold, exhaustion, warning, hours⟩, ports, normal, residue, rate, idleBound⟩
  refine ⟨_, exec_secondEvent {} s, ?_⟩
  obtain ⟨-, chargedCal, ran, y, session, cls, stays⟩ := second.charged
  rw [second.event_cal]
  intro policy idle counted warned charged edge allowed judged flushed
  have policyOf : State.policy (s.chargedSecond l e x) y.acct.cls = policy := by rw [State.policy, chargedCal, cls]
  have flush : ∀ u : State, u.cal = s.cal.secondEvent → quarterFlush s.cal u = flushed u := fun u hu => by
    have minute : s.cal.minuteNext = true ↔ s.cal.second = 59 := (minuteNext_iff s.cal).trans (by omega)
    simp only [quarterFlush, flushed, minute, hu]
  have countdown : ((s.chargedSecond l e x).line l).hours = none ↔ (s.line l).hours = none := by
    rw [ran]
    cases (s.line l).hours <;> simp
  have edgeIff : bandEdge s.cal.view s.cal.secondEvent.view = true ↔ edge := bandEdge_iff _ _
  have event := second.event
  rw [second.takeBandEdge] at event
  have permits : (State.policy (s.chargedSecond l e x) y.acct.cls).allowedBands.getLsbD
      s.cal.secondEvent.view.band.val = true ↔ allowed := by rw [policyOf]
  have warns : ¬allowed → (s.line l).hours = none → judged = warnHours policy l (s.chargedSecond l e x) := fun barred absent =>
    (if_neg barred).trans (if_pos absent)
  refine ⟨fun still => ?_, fun taken why => ?_, fun taken barred absent graceless => ?_⟩
  · rw [event, if_neg (mt edgeIff.1 still)]
    exact flush _ chargedCal
  · have verdict : judgeHours s.cal.secondEvent.view.band (s.chargedSecond l e x) l = judged := by
      by_cases open_ : allowed
      · rw [judgeHours_allowed session (permits.2 open_)]
        exact (if_pos open_).symm
      · by_cases absent : (s.line l).hours = none
        · have grace : policy.hoursGrace ≠ 0 := (why.resolve_left open_).resolve_left fun k => k absent
          rw [judgeHours_warns session (mt permits.1 open_) (countdown.2 absent), policyOf, if_neg grace, warns open_ absent]
        · rw [judgeHours_counting session (mt permits.1 open_) (mt countdown.1 absent)]
          exact ((if_neg open_).trans (if_neg absent)).symm
    have judgedCal : judged.cal = s.cal.secondEvent := by
      rw [← verdict, (judgeHours_stillQuiet session stays _).cal, chargedCal]
    rw [event, if_pos (edgeIff.2 taken), verdict]
    exact flush _ judgedCal
  · have warned : OneSession l e y judged := by
      rw [warns barred absent]
      exact session.warnHours policy
    have ended : CallEnded .hours judged (endCall noSecond judged l .hours false) l :=
      endCall_ended noSecond judged l .hours false (by rw [warned.phase]; rfl)
    rw [event, if_pos (edgeIff.2 taken), judgeHours_warns session (mt permits.1 barred) (countdown.2 absent), policyOf,
      if_pos graceless, ← warns barred absent]
    exact ended.quarterFlush s.cal

end Sys2Proof.Machine
end

/-! # Events of the line scanner bus (O29, O30)

An event for a line number below 96 acts on that line; what it does is said once for each event and phase. -/
section
namespace Sys2Proof.Machine

/-! ## The line an event names (R52) -/

theorem lineEvent_val (l : LineNo) (s : State) (f : State → LineNo → State) : lineEvent l.val s f = f s l := by
  rw [lineEvent, lineNo?_val]

theorem lineNo?_none {n : Nat} (h : 95 < n) : lineNo? n = none := dif_neg (by omega)

theorem lineEvent_none {n : Nat} (h : 95 < n) (s : State) (f : State → LineNo → State) : lineEvent n s f = s := by
  rw [lineEvent, lineNo?_none h]

theorem exec_ring (l : LineNo) (s : State) : exec (.ring l.val) s = .next (ring s l) :=
  congrArg Host.Outcome.next (lineEvent_val l s _)

theorem exec_carrierOn (l : LineNo) (s : State) : exec (.carrierOn l.val) s = .next (carrierOn s l) :=
  congrArg Host.Outcome.next (lineEvent_val l s _)

theorem exec_carrierOff (l : LineNo) (s : State) : exec (.carrierOff l.val) s = .next (carrierOff s l) :=
  congrArg Host.Outcome.next (lineEvent_val l s _)

theorem exec_lineRxChar (l : LineNo) (c : Byte) (s : State) : exec (.lineRxChar l.val c) s = .next (lineRxChar s l c) :=
  congrArg Host.Outcome.next (lineEvent_val l s _)

theorem exec_rxBreak (l : LineNo) (s : State) : exec (.rxBreak l.val) s = .next (rxBreak s l) :=
  congrArg Host.Outcome.next (lineEvent_val l s _)

theorem exec_txDone (l : LineNo) (s : State) : exec (.txDone l.val) s = .next (txDone s l) :=
  congrArg Host.Outcome.next (lineEvent_val l s _)

/-! ## Ends that a command brings about -/

/-- A command that ends a call outside the supervisor port. -/
theorem endsCall {i : Instr} {s : State} {l : LineNo} {cause : EndCause} (hc : (s.line l).phase.inCall = true)
    (run : exec i s = .next (endCall noSecond s l cause false)) :
    ∃ t, exec i s = .next t ∧ CallEnded cause s t l ∧ KeptAtEnd s t ∧ t.sup = s.sup := by
  obtain ⟨ended, keeps⟩ := endCall_spec noSecond s l cause false hc
  exact ⟨_, run, ended, keeps.keptAtEnd, keeps.sup⟩

theorem inCall_signon {p : Phase} {st : SignOnStage} (h : p = .signon st) : p.inCall = true := by rw [h]; rfl

theorem inCall_admitted {p : Phase} {st : AdmittedStage} (h : p = .admitted st) : p.inCall = true := by rw [h]; rfl

/-! ## RING -/

/-- The answering condition (R53). -/
theorem answers_iff (s : State) : s.answers = true ↔
    s.lc.params.acceptingCalls = true ∧
      (s.lc.params.busyOut = 0 ∨
        ((List.finRange 96).filter (fun k => decide ((s.line k).phase = .admitted .waiting))).length < s.lc.params.busyOut) ∧
      s.ctl.attachment = .attached := by
  simp only [State.answers, Bool.and_eq_true, Bool.or_eq_true, decide_eq_true_eq, and_assoc]
  rfl

theorem ring_answered {s : State} {l : LineNo} (idle : (s.line l).phase = .idle) (h : s.answers = true) :
    ring s l = s.onLines (fun c => (c.issue (.answer l)).modLine l (answeredLine c.params.answerLimit)) := if_pos ⟨idle, h⟩

theorem ring_discarded {s : State} {l : LineNo} (h : ¬((s.line l).phase = .idle ∧ s.answers = true)) : ring s l = s := if_neg h

/-- Settles O29: the condition of R53 decides, and the record of an answered line is that of R54. -/
theorem ringAnswered : Obligations.RingAnswered := by
  unfold Obligations.RingAnswered
  intro l s waiting answers
  have condition : s.answers = true ↔ answers := answers_iff s
  rw [exec_ring]
  refine ⟨fun idle h => ⟨_, rfl, ?_⟩, fun h => ?_⟩
  · rw [ring_answered idle (condition.2 h)]
    refine ⟨rfl, fun k hk => ?_, ?_⟩
    · rw [onLines_line, ctl_modLine_line, if_neg hk]
      rfl
    · rw [onLines_line, ctl_modLine_line, if_pos rfl]
      rfl
  · rw [ring_discarded fun ⟨idle, k⟩ => h ⟨idle, condition.1 k⟩]

/-! ## Carrier -/

theorem carrierOn_released {s : State} {l : LineNo}
    (h : (s.line l).phase = .down ∨ (s.line l).phase = .idle ∨ (s.line l).phase = .guard) :
    carrierOn s l = (s.modLine l (fun r => { r with carrier := true })).onLines (fun c => c.issue (.release l)) := by
  rcases h with h | h | h <;> simp only [carrierOn, h]

theorem carrierOn_answering {s : State} {l : LineNo} (h : (s.line l).phase = .answering) :
    carrierOn s l = beginSignOn (s.modLine l (fun r => { r with carrier := true })) l := by
  simp only [carrierOn, h]

theorem carrierOn_held {s : State} {l : LineNo} (h : (∃ st, (s.line l).phase = .signon st) ∨ ∃ st, (s.line l).phase = .admitted st) :
    carrierOn s l = (s.modLine l (fun r => { r with carrier := true })).modLine l (fun r => { r with carrierHold := none }) := by
  rcases h with ⟨st, h⟩ | ⟨st, h⟩ <;> simp only [carrierOn, h]

theorem carrierOn_closing {s : State} {l : LineNo} (h : (s.line l).phase = .closing) :
    carrierOn s l = s.modLine l (fun r => { r with carrier := true }) := by
  simp only [carrierOn, h]

theorem carrierOff_outside {s : State} {l : LineNo} (h : (s.line l).phase = .down ∨ (s.line l).phase = .idle ∨
    (s.line l).phase = .guard ∨ (s.line l).phase = .answering) :
    carrierOff s l = s.modLine l (fun r => { r with carrier := false }) := by
  rcases h with h | h | h | h <;> simp only [carrierOff, h]

theorem carrierOff_held {s : State} {l : LineNo}
    (h : (∃ st, (s.line l).phase = .signon st) ∨ ∃ st, (s.line l).phase = .admitted st) :
    carrierOff s l = startCarrierHold (s.modLine l (fun r => { r with carrier := false })) l := by
  rcases h with ⟨st, h⟩ | ⟨st, h⟩ <;> simp only [carrierOff, h]

theorem carrierOff_closing {s : State} {l : LineNo} (h : (s.line l).phase = .closing) :
    carrierOff s l = (s.modLine l (fun r => { r with carrier := false })).releasedLine l := by
  simp only [carrierOff, h]
  rfl

/-- A carrier hold that runs goes on (R56). -/
theorem startCarrierHold_running {s : State} {l : LineNo} (h : (s.line l).carrierHold ≠ none) : startCarrierHold s l = s := by
  obtain ⟨n, hn⟩ := Option.ne_none_iff_exists'.1 h
  simp only [startCarrierHold, hn]

theorem startCarrierHold_starts {s : State} {l : LineNo} (h : (s.line l).carrierHold = none) : startCarrierHold s l =
    if s.lc.params.carrierHold = 0 then
      endCall noSecond (s.modLine l (fun r => { r with carrierHold := some s.lc.params.carrierHold })) l .carrierLost false
    else s.modLine l (fun r => { r with carrierHold := some s.lc.params.carrierHold }) := by
  simp only [startCarrierHold, h]

/-- The law of links sees of a line its phase, its port and its selected group. -/
theorem LinksLawful.of_views {s t : State} (h : LinksLawful s) (phase : ∀ l, (t.line l).phase = (s.line l).phase)
    (port : ∀ l, (t.line l).port = (s.line l).port) (group : ∀ l, (t.line l).selectedGroup = (s.line l).selectedGroup)
    (pa : t.pa = s.pa) : LinksLawful t := by
  have ports : ∀ p, t.port p = s.port p := fun p => by rw [State.port, pa]; rfl
  have groups : ∀ g, t.group g = s.group g := fun g => by rw [State.group, pa]; rfl
  simpa only [LinksLawful, PortsNameLines, PortStagesAgree, QueuesHoldWaiting, QueuesWaitForPorts, phase, port, group, ports,
    groups] using h

/-- A call that has ended does not show the carrier hold it had (R192). -/
theorem CallEnded.of_carrierHold {cause : EndCause} {s t : State} {l : LineNo} {hold : Option Nat}
    (h : CallEnded cause (s.modLine l (fun r => { r with carrierHold := hold })) t l) : CallEnded cause s t l := by
  have own : (s.modLine l (fun r => { r with carrierHold := hold })).line l = { s.line l with carrierHold := hold } := by simp
  have any : ∀ k, (s.modLine l (fun r => { r with carrierHold := hold })).line k = s.line k ∨
      (s.modLine l (fun r => { r with carrierHold := hold })).line k = { s.line k with carrierHold := hold } := fun k => by
    rw [modLine_line]
    split
    · rename_i hk
      subst hk
      exact .inr rfl
    · exact .inl rfl
  have links : LinksLawful s → LinksLawful (s.modLine l (fun r => { r with carrierHold := hold })) := fun lawful =>
    lawful.of_views (fun k => by rcases any k with e | e <;> rw [e]) (fun k => by rcases any k with e | e <;> rw [e])
      (fun k => by rcases any k with e | e <;> rw [e]) rfl
  simp only [CallEnded, GoodbyeWaits, GoodbyeSpoken, goodbyeCredits, own] at h ⊢
  obtain ⟨h1, h2, h3, h4, h5, h6, h7, h8, h9, h10, h11, h12, h13, h14, h15, h16, h17, h18, h19, h20, h21⟩ := h
  exact ⟨h1, h2, h3, h4, h5, h6, h7, h8, h9, h10, h11, h12, h13, h14, h15, h16, h17, h18, h19, h20, fun k => h21 (links k)⟩

/-- Settles O30, phase by phase. -/
theorem carrierEvents : Obligations.CarrierEvents := by
  unfold Obligations.CarrierEvents
  intro l s r on off held
  have offLine : off.line l = { s.line l with carrier := false } := by simp [off]
  rw [exec_carrierOn, exec_carrierOff]
  refine ⟨fun h => ?_, fun h => ?_, fun h => ?_, fun h => ?_, fun h => ?_, fun h running => ?_, fun h absent some => ?_,
    fun h absent zero => ?_, fun h => ?_⟩
  · rw [carrierOn_released h]; rfl
  · rw [carrierOn_answering h]; rfl
  · rw [carrierOn_held h]
  · rw [carrierOn_closing h]
  · rw [carrierOff_outside h]
  · rw [carrierOff_held h, startCarrierHold_running (by rw [offLine]; exact running)]
  · rw [carrierOff_held h, startCarrierHold_starts (by rw [offLine]; exact absent)]
    exact congrArg _ (if_neg some)
  · have starts := startCarrierHold_starts (s := off) (l := l) (by rw [offLine]; exact absent)
    rw [carrierOff_held h, starts, if_pos (show off.lc.params.carrierHold = 0 from zero)]
    have kept : EndKeeps off (off.modLine l (fun r => { r with carrierHold := some off.lc.params.carrierHold })) :=
      endKeeps_modLine ⟨rfl, rfl, rfl, rfl⟩
    have inCall : ((off.modLine l (fun r => { r with carrierHold := some off.lc.params.carrierHold })).line l).phase.inCall =
        true := by
      rw [modLine_line, if_pos rfl, offLine]
      rcases h with ⟨st, h⟩ | ⟨st, h⟩
      · exact inCall_signon h
      · exact inCall_admitted h
    obtain ⟨ended, keeps⟩ := endCall_spec noSecond _ l .carrierLost false inCall
    exact ⟨_, rfl, ended.of_carrierHold, (kept.trans keeps).keptAtEnd, (kept.trans keeps).sup⟩
  · rw [carrierOff_closing h]

end Sys2Proof.Machine
end

/-! # Characters and breaks of an ADMITTED line (O33) -/
section
namespace Sys2Proof.Machine

/-! ## The entry of a session -/

section
variable {s : State} {l : LineNo} {e : EntryNo} {x : OatEntry} (ref : (s.line l).entryRef = some e) (entry : s.entry e = some x)
include ref entry

theorem lineEntry_eq : s.lineEntry l = some x := by rw [State.lineEntry, ref]; exact entry

theorem lineAllotment_eq : s.lineAllotment l = x.acct.allotment := by rw [State.lineAllotment, lineEntry_eq ref entry]

end

theorem promptSelection_eq {s : State} {l : LineNo} {x : OatEntry} (h : s.lineEntry l = some x) :
    promptSelection s l = requestMessage s l 4 x.acct.permittedCount := by rw [promptSelection, h]

/-! ## Stage by stage -/

section
variable {s : State} {l : LineNo}

theorem lineRxChar_admitted {st : AdmittedStage} (h : (s.line l).phase = .admitted st) (c : Byte) :
    lineRxChar s l c = admittedChar s l st c := by simp only [lineRxChar, h]

theorem rxBreak_admitted {st : AdmittedStage} (h : (s.line l).phase = .admitted st) :
    rxBreak s l = admittedBreak s l st := by simp only [rxBreak, h]

theorem escapes_iff (p : LineParams) (c : Byte) :
    escapes p c = true ↔ c.toNat % 128 &&& p.escapeMask = p.escapeKey &&& p.escapeMask := decide_eq_true_iff

theorem enterEscaped_eq : enterEscaped s l = requestMessage (s.modLine l (fun r =>
    { r with phase := .admitted .escaped, idleCount := some 0, idleWarning := none, portToLine := none,
             stageTimer := some 60 })) l 14 (s.lineAllotment l) := by
  simp only [enterEscaped, activity, modLine_modLine, Config.escapeLimit]

/-- A character for an empty slot is placed and offered to the port (R61). -/
theorem forwardChar_placed {c : Byte} {p : PortNo} (free : (s.line l).lineToPort = none) (port : (s.line l).port = some p) :
    forwardChar s l c = (s.modLine l (fun r => { r with lineToPort := some c })).issuePort (.txChar p c (some l)) := by
  simp only [forwardChar, free, port]

theorem forwardChar_dropped {c : Byte} (full : (s.line l).lineToPort ≠ none) :
    forwardChar s l c = s.modLine l (fun r => { r with overrun := true }) := by
  obtain ⟨b, hb⟩ := Option.ne_none_iff_exists'.1 full
  simp only [forwardChar, hb]

theorem activity_line : (activity s l).line l = { s.line l with idleCount := some 0, idleWarning := none } := by
  simp [activity]

theorem leaveQueue_eq {g : GroupNo} (h : (s.line l).selectedGroup = some g) :
    leaveQueue s l = enterSelecting (removePlace s g l) l := by simp only [leaveQueue, h]

end

/-- Settles O33, stage by stage. -/
theorem admittedCharacters : Obligations.AdmittedCharacters := by
  unfold Obligations.AdmittedCharacters
  intro l c e x s ref entry k r matched escaped resumed
  have escapedEq : enterEscaped s l = escaped := by rw [enterEscaped_eq, lineAllotment_eq ref entry]
  refine ⟨fun connected => ?_, fun inEscape => ?_, fun waiting => ?_⟩
  · rw [exec_rxBreak, rxBreak_admitted connected, exec_lineRxChar, lineRxChar_admitted connected]
    have forwards : ¬matched → admittedChar s l .connected c = forwardChar (activity s l) l c := fun plain =>
      if_neg (mt (escapes_iff s.lc.params c).1 plain)
    refine ⟨fun h => ?_, congrArg _ escapedEq, fun p plain free port => ?_, fun plain full => ?_⟩
    · exact congrArg _ ((if_pos ((escapes_iff s.lc.params c).2 h)).trans escapedEq)
    · rw [forwards plain, forwardChar_placed (by rw [activity_line]; exact free) (by rw [activity_line]; exact port), activity,
        modLine_modLine]
      rfl
    · rw [forwards plain, forwardChar_dropped (by rw [activity_line]; exact full), activity, modLine_modLine]
  · refine ⟨?_, fun hk => ?_, fun hk => endsCall (inCall_admitted inEscape) (exec_lineRxChar_quits inEscape hk),
      fun h81 h82 h113 h114 => ?_⟩
    · rw [exec_rxBreak, rxBreak_admitted inEscape]
      rfl
    · rw [exec_lineRxChar, lineRxChar_admitted inEscape]
      exact congrArg _ (if_pos hk)
    · rw [exec_lineRxChar, lineRxChar_admitted inEscape]
      exact congrArg _ ((if_neg (not_or.2 ⟨h82, h114⟩)).trans (if_neg (not_or.2 ⟨h81, h113⟩)))
  · rw [exec_lineRxChar, lineRxChar_admitted waiting, exec_rxBreak, rxBreak_admitted waiting]
    refine ⟨rfl, fun g group => ?_⟩
    have still : (enterSelecting (removePlace s g l) l).lineEntry l = some x :=
      lineEntry_eq (e := e) (by simpa [enterSelecting] using ref) entry
    show Host.Outcome.next (promptSelection (leaveQueue s l) l) = _
    rw [leaveQueue_eq group, promptSelection_eq still]
    rfl

end Sys2Proof.Machine
end

/-! # What the expiries do, due or not (O36) -/
section
namespace Sys2Proof.Machine

/-! ## Due and not due -/

theorem takeExpiry_of_ne {s : State} {x : Expiry} (h : timerOf s x ≠ some 0) (co : EndedSecond) : takeExpiry co s x = s :=
  if_neg fun due => h (of_decide_eq_true due)

theorem takeExpiry_of_eq {s : State} {x : Expiry} (h : timerOf s x = some 0) (co : EndedSecond) :
    takeExpiry co s x = expire co s x := if_pos (decide_eq_true h)

/-- A stage timer that does not stand at 0 is due in no phase. -/
theorem stageTimerIn_ne {s : State} {l : LineNo} (h : (s.line l).stageTimer ≠ some 0) (p : Phase) : stageTimerIn s l p ≠ some 0 := by
  unfold stageTimerIn
  split
  · exact h
  · nofun

theorem stageTimerIn_eq {s : State} {l : LineNo} {p : Phase} (hp : (s.line l).phase = p) (h : (s.line l).stageTimer = some 0) :
    stageTimerIn s l p = some 0 := (if_pos hp).trans h

/-- A timer of a line counts only in the phases that run it. -/
theorem ite_timer_ne {runs : Prop} [Decidable runs] {t : Option Nat} (h : t ≠ some 0) : (if runs then t else none) ≠ some 0 := by
  split
  · exact h
  · nofun

theorem signonLimit_ne {s : State} {l : LineNo} (h : (s.line l).stageTimer ≠ some 0) : timerOf s (.signonLimit l) ≠ some 0 := by
  by_cases entry : (s.line l).phase = .signon .accountEntry
  · simpa only [timerOf, entry, if_true] using h
  · simpa only [timerOf, entry, if_false] using stageTimerIn_ne h _

/-! ## The expiries with statements of their own -/

theorem exec_selectionLimitExpiry_due {s : State} {l : LineNo} (hp : (s.line l).phase = .admitted .selecting)
    (due : (s.line l).stageTimer = some 0) :
    exec (.selectionLimitExpiry l) s = .next (endCall noSecond s l .noHost false) :=
  congrArg Host.Outcome.next (takeExpiry_of_eq (x := .selectionLimit l) (stageTimerIn_eq hp due) noSecond)

/-- The exhaustion countdown is judged ahead of the hours countdown (R141). -/
theorem exec_hoursCountdownExpiry_exhausted {s : State} {l : LineNo} (ha : (s.line l).phase.isAdmitted = true)
    (due : (s.line l).hours = some 0) (hx : (s.line l).exhaustion = some 0) :
    exec (.hoursCountdownExpiry l) s = .next (endCall noSecond s l .exhausted false) := by
  have at0 : timerOf s (.hours l) = some 0 := (if_pos ha).trans due
  show Host.Outcome.next (takeExpiry noSecond s _) = _
  rw [takeExpiry_of_eq at0, expire, if_pos hx]

/-- Settles O36, timer by timer. -/
theorem expiries : Obligations.Expiries := by
  unfold Obligations.Expiries
  refine ⟨fun l s => ?_, fun l s => ?_⟩
  · intro r admitted ends
    have isAdmitted : admitted → r.phase.isAdmitted = true := fun ⟨st, h⟩ => by rw [h]; rfl
    have inCall : (∃ st, r.phase = .signon st) ∨ admitted → r.phase.inCall = true := by
      rintro (⟨st, h⟩ | ⟨st, h⟩)
      · exact inCall_signon h
      · exact inCall_admitted h
    have rests : ∀ {i : Instr} {x : Expiry}, exec i s = .next (takeExpiry noSecond s x) → timerOf s x ≠ some 0 →
        exec i s = .next s := fun run h => run.trans (congrArg _ (takeExpiry_of_ne h noSecond))
    refine ⟨fun hp due => ?_, fun hp due => ?_, fun hp due => ?_, fun hp due => ?_, fun hp due => ?_, fun hp due => ?_,
      fun hp due first => ?_, fun hp due first => ?_, fun h => ?_, fun h => ?_, fun h => ?_, fun h => ?_, fun h => ?_,
      fun h => ?_⟩
    · exact endsCall (by rw [hp]; rfl) (exec_answerLimitExpiry_due hp due)
    · exact endsCall (hp.elim inCall_signon inCall_signon) (exec_signonLimitExpiry_due hp due)
    · exact endsCall (inCall_admitted hp) (exec_selectionLimitExpiry_due hp due)
    · exact endsCall (inCall hp) (exec_carrierHoldExpiry_due (inCall hp) due)
    · exact endsCall (inCall_admitted hp) (exec_idleWarningExpiry_due hp due)
    · exact endsCall (inCall (.inr hp)) (exec_exhaustionCountdownExpiry_due (isAdmitted hp) due)
    · exact endsCall (inCall (.inr hp)) (exec_hoursCountdownExpiry_due (isAdmitted hp) due first)
    · exact endsCall (inCall (.inr hp)) (exec_hoursCountdownExpiry_exhausted (isAdmitted hp) due first)
    · exact ⟨rests (x := .answerLimit l) rfl (stageTimerIn_ne h _), rests (x := .signonLimit l) rfl (signonLimit_ne h),
        rests (x := .selectionLimit l) rfl (stageTimerIn_ne h _), rests (x := .waitLimit l) rfl (stageTimerIn_ne h _),
        rests (x := .escapeLimit l) rfl (stageTimerIn_ne h _), rests (x := .closingLimit l) rfl (stageTimerIn_ne h _),
        rests (x := .guardTime l) rfl (stageTimerIn_ne h _)⟩
    · exact rests (x := .holdTimer l) rfl (ite_timer_ne h)
    · exact rests (x := .carrierHold l) rfl (ite_timer_ne h)
    · exact rests (x := .idleWarning l) rfl (ite_timer_ne h)
    · exact rests (x := .exhaustion l) rfl (ite_timer_ne h)
    · exact rests (x := .hours l) rfl (ite_timer_ne h)
  · intro r
    have expires : ∀ {i : Instr} {x : Expiry} {t : State}, exec i s = .next (takeExpiry noSecond s x) → timerOf s x = some 0 →
        expire noSecond s x = t → exec i s = .next t := fun run h done =>
      run.trans (congrArg _ ((takeExpiry_of_eq h noSecond).trans done))
    refine ⟨fun hp due => ?_, fun g hp due group => ?_, fun hp due => ?_, fun hp due => ?_, fun hp due => ?_⟩
    · have held : ((leaveHeld s l).line l).phase = .signon .held := (leaveHeld_phase s l).trans hp
      exact ⟨_, expires (x := .holdTimer l) rfl ((if_pos hp).trans due) rfl, attemptFailed_spec noSecond 5 held⟩
    · refine expires (x := .waitLimit l) rfl (stageTimerIn_eq hp due) ?_
      rw [expire, leaveQueue_eq group]
      rfl
    · exact expires (x := .escapeLimit l) rfl (stageTimerIn_eq hp due) rfl
    · exact expires (x := .closingLimit l) rfl (stageTimerIn_eq hp due) rfl
    · exact expires (x := .guardTime l) rfl (stageTimerIn_eq hp due) rfl

end Sys2Proof.Machine
end

/-! # Messages and characters to a line (O34)

What the Line Controller does with a message request and at a character boundary, one equation for each case of R67 to R70. -/
section
namespace Sys2Proof.Machine

/-! ## The expansion of a text (R67) -/

theorem expandText_plain {text : List Byte} (n : Nat) (h : 0x23 ∉ text) : expandText text n = text := by
  induction text with
  | nil => rfl
  | cons c cs ih =>
    obtain ⟨hc, hcs⟩ := not_or.1 (mt List.mem_cons.2 h)
    rw [expandText, if_neg (Ne.symm hc), ih hcs]

theorem expandText_number {pre : List Byte} (post : List Byte) (n : Nat) (h : 0x23 ∉ pre) :
    expandText (pre ++ 0x23 :: post) n = pre ++ decimal n ++ post := by
  induction pre with
  | nil => exact if_pos rfl
  | cons c cs ih =>
    obtain ⟨hc, hcs⟩ := not_or.1 (mt List.mem_cons.2 h)
    rw [List.cons_append, expandText, if_neg (Ne.symm hc), ih hcs]
    rfl

/-! ## The Line Controller's record of one line -/

theorem ctl_modLine_modLine (c : LineCtl) (l : LineNo) (f g : LineRec → LineRec) :
    (c.modLine l f).modLine l g = c.modLine l (fun r => g (f r)) := by
  simp only [LineCtl.modLine, LineCtl.setLine, LineCtl.line, Vector.get_eq_getElem, Vector.getElem_set_self, Vector.set_set]

theorem ctl_modLine_own (c : LineCtl) (l : LineNo) (f : LineRec → LineRec) : (c.modLine l f).line l = f (c.line l) := by
  rw [ctl_modLine_line, if_pos rfl]

theorem ctl_modLine_self {c : LineCtl} {l : LineNo} {f : LineRec → LineRec} (h : f (c.line l) = c.line l) : c.modLine l f = c := by
  have same : c.lines.set l (c.lines.get l) = c.lines := Vector.set_getElem_self _
  rw [LineCtl.modLine, h, LineCtl.setLine, LineCtl.line, same]

theorem ctl_transmit_own (c : LineCtl) (l : LineNo) (ch : Byte) : (c.transmit l ch).line l = { c.line l with txBusy := true } :=
  ctl_modLine_own c l (fun r => { r with txBusy := true })

theorem sent_own (s : State) (l : LineNo) (ch : Byte) : (s.sent l ch).line l = { s.line l with txBusy := true } :=
  ctl_transmit_own s.lc l ch

theorem ctl_noCurrent {c : LineCtl} {l : LineNo} (h : (c.line l).current = none) :
    c.modLine l (fun r => { r with current := none }) = c :=
  ctl_modLine_self (by rw [← h])

theorem onLines_of {s : State} {f : LineCtl → LineCtl} {c : LineCtl} (h : f s.lc = c) : s.onLines f = { s with lc := c } :=
  congrArg (fun c => { s with lc := c }) h

section
variable {c : LineCtl} {l : LineNo}

/-! ## A message becomes current (R67, R68) -/

section
variable {n : MsgNo} {k : Nat}

theorem beginMessage_empty (h : expandText (c.messages.get n) k = []) :
    c.beginMessage l n k = c.modLine l (fun r => { r with current := none }) := if_pos h

theorem beginMessage_busy (h : expandText (c.messages.get n) k ≠ []) (busy : (c.line l).txBusy = true) :
    c.beginMessage l n k = c.modLine l (fun r => { r with
      current := some { number := n, inserted := k, text := expandText (c.messages.get n) k, position := 0 } }) := by
  simp only [LineCtl.beginMessage, h, busy, if_false, if_true]

theorem beginMessage_free {ch : Byte} {rest : List Byte} (h : expandText (c.messages.get n) k = ch :: rest)
    (free : (c.line l).txBusy = false) :
    c.beginMessage l n k = (c.modLine l (fun r => { r with
      current := some { number := n, inserted := k, text := ch :: rest, position := 1 } })).transmit l ch := by
  simp [LineCtl.beginMessage, h, free, LineCtl.sendNext, ctl_modLine_modLine]

theorem request_none (h : (c.line l).current = none) : c.request l n k = c.beginMessage l n k := by
  simp only [LineCtl.request, h]

theorem request_some (h : (c.line l).current ≠ none) :
    c.request l n k = c.modLine l (fun r => { r with pending := some { number := n, inserted := k } }) := by
  obtain ⟨m, hm⟩ := Option.ne_none_iff_exists'.1 h
  simp only [LineCtl.request, hm]

end

/-! ## The port-to-line character (R62, R69) -/

theorem sendSlot_sends {ch : Byte} (hp : (c.line l).phase = .admitted .connected) (hs : (c.line l).portToLine = some ch) :
    c.sendSlot l = (c.modLine l (fun r => { r with portToLine := none })).transmit l ch := by
  simp only [LineCtl.sendSlot, hp, hs]

theorem sendSlot_nothing (h : (c.line l).phase ≠ .admitted .connected ∨ (c.line l).portToLine = none) : c.sendSlot l = c := by
  unfold LineCtl.sendSlot
  split
  · rename_i hp hs
    rcases h with h | h
    · exact absurd hp h
    · cases h.symm.trans hs
  · rfl

/-! ## Character boundaries (R58, R69, R70) -/

theorem sendNext_sends {m : CurrentMsg} {ch : Byte} (hm : (c.line l).current = some m) (hch : m.text[m.position]? = some ch) :
    c.sendNext l = (c.modLine l (fun r => { r with current := some { m with position := m.position + 1 } })).transmit l ch := by
  simp only [LineCtl.sendNext, hm, hch]

/-- The next character of the current message goes out, unless a goodbye takes over. -/
theorem boundary_next {m : CurrentMsg} {ch : Byte} (hp : (c.line l).phase ≠ .closing ∨ (c.line l).pending = none)
    (hm : (c.line l).current = some m) (hch : m.text[m.position]? = some ch) : c.boundary l =
      (c.modLine l (fun r => { r with current := some { m with position := m.position + 1 } })).transmit l ch := by
  have left : m.position < m.text.length := (List.getElem?_eq_some_iff.1 hch).1
  unfold LineCtl.boundary
  dsimp only
  split
  · rename_i hclosing hpending
    rcases hp with hp | hp
    · exact absurd hclosing hp
    · cases hp.symm.trans hpending
  · rw [hm]
    exact (if_pos left).trans (sendNext_sends hm hch)

/-- With no message pending and the current one ended, the port-to-line character goes out if there is one. -/
theorem boundary_ended (hp : (c.line l).phase ≠ .closing) (hend : ∀ m, (c.line l).current = some m → m.text.length ≤ m.position)
    (hpend : (c.line l).pending = none) : c.boundary l = (c.modLine l (fun r => { r with current := none })).sendSlot l := by
  unfold LineCtl.boundary
  dsimp only
  split
  · rename_i hclosing _
    exact absurd hclosing hp
  · cases hm : (c.line l).current with
    | none => rw [ctl_noCurrent hm]
    | some m =>
      have ended : ¬m.position < m.text.length := Nat.not_lt.2 (hend m hm)
      simp only [ended, hp, hpend, if_false]

/-- The pending message becomes current once the current one has ended; without characters it lets the port-to-line character pass. -/
theorem boundary_pending {m : CurrentMsg} {p : PendingMsg} (hp : (c.line l).phase ≠ .closing) (hm : (c.line l).current = some m)
    (hend : m.text.length ≤ m.position) (hpend : (c.line l).pending = some p) : c.boundary l =
      let begun := (c.modLine l (fun r => { r with current := none, pending := none })).beginMessage l p.number p.inserted
      if (begun.line l).current = none then begun.sendSlot l else begun := by
  have ended : ¬m.position < m.text.length := Nat.not_lt.2 hend
  unfold LineCtl.boundary
  dsimp only
  split
  · rename_i hclosing _
    exact absurd hclosing hp
  · simp only [hm, ended, hp, hpend, if_false]

theorem boundary_goodbye {p : PendingMsg} (hp : (c.line l).phase = .closing) (hpend : (c.line l).pending = some p) :
    c.boundary l = c.beginGoodbye l p.inserted := by
  simp only [LineCtl.boundary, hp, hpend]

theorem boundary_release {m : CurrentMsg} (hp : (c.line l).phase = .closing) (hpend : (c.line l).pending = none)
    (hm : (c.line l).current = some m) (hend : m.text.length ≤ m.position) : c.boundary l = c.release l := by
  have ended : ¬m.position < m.text.length := Nat.not_lt.2 hend
  simp only [LineCtl.boundary, hp, hm, hpend, ended, if_false, if_true]

/-! ## TX_DONE (R69) -/

theorem ctl_txDone_free (h : (c.line l).txBusy = false) : c.txDone l = c := by
  simp only [LineCtl.txDone, h, Bool.false_eq_true, if_false]

theorem ctl_txDone_silent (h : (c.line l).txBusy = true) (hp : (c.line l).phase.speaks = false) :
    c.txDone l = c.modLine l (fun r => { r with txBusy := false }) := by
  simp only [LineCtl.txDone, h, hp, Bool.false_eq_true, if_true, if_false]

theorem ctl_txDone_speaks (h : (c.line l).txBusy = true) (hp : (c.line l).phase.speaks = true) :
    c.txDone l = (c.modLine l (fun r => { r with txBusy := false })).boundary l := by
  simp only [LineCtl.txDone, h, hp, if_true]

end

/-! ## A current message goes out whole -/

/-- What is left of a machine when characters have gone out to a line, one behind the other, and its record has changed. -/
def State.spoke (s : State) (l : LineNo) (f : LineRec → LineRec) (chars : List Byte) : State :=
  { s.modLine l f with lc := { (s.modLine l f).lc with bus := s.lc.bus ++ chars.map (.txChar l) } }

theorem spoke_nil (s : State) (l : LineNo) (f : LineRec → LineRec) : s.spoke l f [] = s.modLine l f := by
  rw [State.spoke, List.map_nil, List.append_nil]
  rfl

/-- A character sent ahead of others. -/
theorem sent_spoke (s : State) (l : LineNo) (f g : LineRec → LineRec) (ch : Byte) (chars : List Byte) :
    ((s.modLine l f).sent l ch).spoke l g chars = s.spoke l (fun r => g { f r with txBusy := true }) (ch :: chars) := by
  have lines : (((s.modLine l f).sent l ch).modLine l g).lc.lines = (s.modLine l (fun r => g { f r with txBusy := true })).lc.lines := by
    rw [← modLine_modLine s l f (fun r => g { r with txBusy := true }),
      ← modLine_modLine (s.modLine l f) l (fun r => { r with txBusy := true }) g]
    rfl
  have bus : ((s.modLine l f).sent l ch).lc.bus = s.lc.bus ++ [.txChar l ch] := rfl
  simp only [State.spoke, bus, List.append_assoc, List.map_cons, List.singleton_append]
  show ({ s with lc := { s.lc with lines := _, bus := _ } } : State) = { s with lc := { s.lc with lines := _, bus := _ } }
  rw [lines]

/-! ## TX_DONE on the machine, case by case -/

section
variable {s : State} {l : LineNo} {m : CurrentMsg} {p : PendingMsg} {ch : Byte} {rest : List Byte} {c : LineCtl}
  (busy : (s.line l).txBusy = true) (speaks : (s.line l).phase.speaks = true)
include busy speaks

/-- The transmitter's record has become free when the boundary decides what goes out next. -/
theorem exec_txDone_boundary
    (h : ∀ d : LineCtl, d = s.lc.modLine l (fun r => { r with txBusy := false }) →
      d.line l = { s.line l with txBusy := false } → d.boundary l = c) :
    exec (.txDone l.val) s = .next { s with lc := c } := by
  rw [exec_txDone]
  exact congrArg Host.Outcome.next (onLines_of ((ctl_txDone_speaks busy speaks).trans (h _ rfl (ctl_modLine_own s.lc l _))))

theorem exec_txDone_next (hp : (s.line l).phase ≠ .closing ∨ (s.line l).pending = none) (hm : (s.line l).current = some m)
    (hch : m.text[m.position]? = some ch) : exec (.txDone l.val) s = .next ((s.modLine l (fun r =>
      { r with txBusy := false, current := some { m with position := m.position + 1 } })).sent l ch) := by
  refine exec_txDone_boundary busy speaks fun d hd own => ?_
  rw [boundary_next (by rw [own]; exact hp) (by rw [own]; exact hm) hch, hd, ctl_modLine_modLine]
  rfl

theorem exec_txDone_slot (hp : (s.line l).phase = .admitted .connected)
    (ended : ∀ m, (s.line l).current = some m → m.text.length ≤ m.position) (alone : (s.line l).pending = none)
    (hs : (s.line l).portToLine = some ch) : exec (.txDone l.val) s = .next ((s.modLine l (fun r =>
      { r with txBusy := false, current := none, portToLine := none })).sent l ch) := by
  refine exec_txDone_boundary busy speaks fun d hd own => ?_
  have mine : ((d.modLine l (fun r => { r with current := none })).line l) = { s.line l with txBusy := false, current := none } := by
    rw [ctl_modLine_own, own]
  rw [boundary_ended (by rw [own]; exact fun h => nomatch hp.symm.trans h) (by rw [own]; exact ended) (by rw [own]; exact alone),
    sendSlot_sends (by rw [mine]; exact hp) (by rw [mine]; exact hs), hd, ctl_modLine_modLine, ctl_modLine_modLine]
  rfl

theorem exec_txDone_quiet (hp : (s.line l).phase ≠ .closing)
    (ended : ∀ m, (s.line l).current = some m → m.text.length ≤ m.position) (alone : (s.line l).pending = none)
    (hs : (s.line l).phase ≠ .admitted .connected ∨ (s.line l).portToLine = none) :
    exec (.txDone l.val) s = .next (s.modLine l (fun r => { r with txBusy := false, current := none })) := by
  refine exec_txDone_boundary busy speaks fun d hd own => ?_
  have mine : ((d.modLine l (fun r => { r with current := none })).line l) = { s.line l with txBusy := false, current := none } := by
    rw [ctl_modLine_own, own]
  rw [boundary_ended (by rw [own]; exact hp) (by rw [own]; exact ended) (by rw [own]; exact alone),
    sendSlot_nothing (by rw [mine]; exact hs), hd, ctl_modLine_modLine]

section
variable (live : (s.line l).phase ≠ .closing) (hm : (s.line l).current = some m) (ended : m.text.length ≤ m.position)
  (waits : (s.line l).pending = some p)
include live hm ended waits

theorem exec_txDone_pending (text : expandText (s.lc.messages.get p.number) p.inserted = ch :: rest) :
    exec (.txDone l.val) s = .next ((s.modLine l (fun r => { r with
      txBusy := false, current := some { number := p.number, inserted := p.inserted, text := ch :: rest, position := 1 },
      pending := none })).sent l ch) := by
  refine exec_txDone_boundary busy speaks fun d hd own => ?_
  have mine : ((d.modLine l (fun r => { r with current := none, pending := none })).line l) =
      { s.line l with txBusy := false, current := none, pending := none } := by
    rw [ctl_modLine_own, own]
  have begun := beginMessage_free (c := d.modLine l (fun r => { r with current := none, pending := none })) (l := l)
    (n := p.number) (k := p.inserted) (by rw [hd]; exact text) (by rw [mine])
  rw [boundary_pending (by rw [own]; exact live) (by rw [own]; exact hm) ended (by rw [own]; exact waits), begun]
  refine (if_neg ?_).trans ?_
  · rw [ctl_transmit_own, ctl_modLine_own]
    exact fun h => nomatch h
  · rw [ctl_modLine_modLine, hd, ctl_modLine_modLine]
    rfl

section
variable (text : expandText (s.lc.messages.get p.number) p.inserted = [])
include text

/-- A pending message without characters is gone as the port-to-line character is looked at. -/
theorem exec_txDone_pendingEmpty (hc : (s.lc.modLine l (fun r => { r with txBusy := false, current := none, pending := none })).sendSlot l = c) :
    exec (.txDone l.val) s = .next { s with lc := c } := by
  refine exec_txDone_boundary busy speaks fun d hd own => ?_
  have begun := beginMessage_empty (c := d.modLine l (fun r => { r with current := none, pending := none })) (l := l)
    (n := p.number) (k := p.inserted) (by rw [hd]; exact text)
  rw [boundary_pending (by rw [own]; exact live) (by rw [own]; exact hm) ended (by rw [own]; exact waits), begun]
  refine (if_pos ?_).trans ?_
  · rw [ctl_modLine_own]
  · rw [ctl_modLine_modLine, hd, ctl_modLine_modLine]
    exact hc

theorem exec_txDone_pendingEmpty_slot (hp : (s.line l).phase = .admitted .connected) (hs : (s.line l).portToLine = some ch) :
    exec (.txDone l.val) s = .next ((s.modLine l (fun r => { r with
      txBusy := false, current := none, pending := none, portToLine := none })).sent l ch) := by
  have mine : (s.lc.modLine l (fun r => { r with txBusy := false, current := none, pending := none })).line l =
      { s.line l with txBusy := false, current := none, pending := none } := ctl_modLine_own ..
  refine exec_txDone_pendingEmpty busy speaks live hm ended waits text
    (sendSlot_sends (by rw [mine]; exact hp) (by rw [mine]; exact hs)) |>.trans ?_
  rw [ctl_modLine_modLine]
  rfl

theorem exec_txDone_pendingEmpty_quiet (hs : (s.line l).phase ≠ .admitted .connected ∨ (s.line l).portToLine = none) :
    exec (.txDone l.val) s = .next (s.modLine l (fun r => { r with txBusy := false, current := none, pending := none })) :=
  exec_txDone_pendingEmpty busy speaks live hm ended waits text (sendSlot_nothing (by rw [ctl_modLine_own]; exact hs))

end

end

/-! ### The goodbye (R70) -/

section
variable (closing : (s.line l).phase = .closing)
include closing

theorem exec_txDone_goodbye (waits : (s.line l).pending = some p)
    (text : expandText (s.lc.messages.get 15) p.inserted = ch :: rest) :
    exec (.txDone l.val) s = .next ((s.modLine l (fun r => { r with
      txBusy := false, current := some { number := 15, inserted := p.inserted, text := ch :: rest, position := 1 },
      pending := none })).sent l ch) := by
  refine exec_txDone_boundary busy speaks fun d hd own => ?_
  have mine : ((d.modLine l (fun r => { r with pending := none })).line l) = { s.line l with txBusy := false, pending := none } := by
    rw [ctl_modLine_own, own]
  have begun := beginMessage_free (c := d.modLine l (fun r => { r with pending := none })) (l := l) (n := 15) (k := p.inserted)
    (by rw [hd]; exact text) (by rw [mine])
  have said : ¬expandText (d.messages.get 15) p.inserted = [] := by
    rw [hd]
    exact fun h => nomatch h.symm.trans text
  rw [boundary_goodbye (by rw [own]; exact closing) (by rw [own]; exact waits), LineCtl.beginGoodbye, if_neg said, begun,
    ctl_modLine_modLine, hd, ctl_modLine_modLine]
  rfl

theorem exec_txDone_goodbyeEmpty (waits : (s.line l).pending = some p) (text : expandText (s.lc.messages.get 15) p.inserted = []) :
    exec (.txDone l.val) s = .next ((s.modLine l (fun r => { r with txBusy := false })).releasedLine l) := by
  refine exec_txDone_boundary busy speaks fun d hd own => ?_
  rw [boundary_goodbye (by rw [own]; exact closing) (by rw [own]; exact waits), LineCtl.beginGoodbye,
    if_pos (by rw [hd]; exact text), hd]
  rfl

theorem exec_txDone_release (alone : (s.line l).pending = none) (hm : (s.line l).current = some m)
    (ended : m.text.length ≤ m.position) :
    exec (.txDone l.val) s = .next ((s.modLine l (fun r => { r with txBusy := false })).releasedLine l) := by
  refine exec_txDone_boundary busy speaks fun d hd own => ?_
  rw [boundary_release (by rw [own]; exact closing) (by rw [own]; exact alone) (by rw [own]; exact hm) ended, hd]
  rfl

end

end

/-- A current message with nothing behind it goes out whole, one TX_DONE for each character that has been sent. -/
theorem execAll_txDone_whole {l : LineNo} (left : Nat) : ∀ {s : State} {m : CurrentMsg},
    (s.line l).current = some m → m.position ≤ m.text.length → m.text.length - m.position = left →
    (s.line l).txBusy = true → (s.line l).pending = none → (s.line l).portToLine = none →
    (s.line l).phase.speaks = true → (s.line l).phase ≠ .closing →
    execAll (List.replicate (left + 1) (.txDone l.val)) s =
      .next (s.spoke l (fun r => { r with current := none, txBusy := false }) (m.text.drop m.position)) := by
  induction left with
  | zero =>
    intro s m hm _ hleft busy alone hs speaks live
    have ended : m.text.length ≤ m.position := Nat.le_of_sub_eq_zero hleft
    rw [List.drop_eq_nil_of_le ended, spoke_nil]
    exact execAll_cons (exec_txDone_quiet busy speaks live (fun k hk => by
      obtain rfl := Option.some.inj (hm.symm.trans hk)
      exact ended) alone (.inr hs)) []
  | succ left ih =>
    intro s m hm _ hleft busy alone hs speaks live
    have more : m.position < m.text.length := by omega
    have chars : m.text.drop m.position = m.text[m.position] :: m.text.drop (m.position + 1) := List.drop_eq_getElem_cons more
    have sent := exec_txDone_next busy speaks (.inl live) hm (List.getElem?_eq_getElem more)
    have own := sent_own (s.modLine l (fun r => { r with
      txBusy := false, current := some { m with position := m.position + 1 } })) l m.text[m.position]
    rw [modLine_line, if_pos rfl] at own
    rw [List.replicate_succ, execAll_cons sent, ih (m := { m with position := m.position + 1 }) (by rw [own]) more
      (by show m.text.length - (m.position + 1) = left; omega) (by rw [own]) (by rw [own]; exact alone) (by rw [own]; exact hs)
      (by rw [own]; exact speaks) (by rw [own]; exact live), sent_spoke, chars]

/-! ## The statement -/

/-- Settles O34: a request and a TX_DONE by the case each is in, and a whole message by induction on the characters left. -/
theorem messagesSent : Obligations.MessagesSent := by
  unfold Obligations.MessagesSent
  refine ⟨⟨⟨fun pre post n h => ⟨expandText_number post n h, expandText_plain n h⟩, fun l m n s => ?_⟩, ?_⟩, fun l s => ?_⟩
  · have begins (h : (s.line l).current = none) : requestMessage s l m n = { s with lc := s.lc.beginMessage l m n } :=
      onLines_of (request_none h)
    refine ⟨fun h text => ?_, fun c rest h text free => ?_, fun h text busy => ?_, fun h => onLines_of (request_some h)⟩
    · rw [begins h, beginMessage_empty text, ctl_noCurrent h]
    · rw [begins h, beginMessage_free text free, ← text]
      rfl
    · rw [begins h, beginMessage_busy text busy]
      rfl
  · intro l m s hm fits busy alone hs inCall answered
    have speaks : (s.line l).phase.speaks = true := by
      cases hp : (s.line l).phase <;> simp_all [Phase.inCall, Phase.speaks]
    exact execAll_txDone_whole _ hm fits rfl busy alone hs speaks fun hp => by rw [hp] at inCall; cases inCall
  · refine ⟨fun free => ?_, fun busy hp => ?_, fun busy hp => ?_, fun busy hp => ?_⟩
    · rw [exec_txDone]
      exact congrArg Host.Outcome.next (onLines_of (ctl_txDone_free free))
    · have silent : (s.line l).phase.speaks = false := by
        simp only [List.mem_cons, List.not_mem_nil, or_false] at hp
        rcases hp with hp | hp | hp | hp <;> rw [hp] <;> rfl
      rw [exec_txDone]
      exact congrArg Host.Outcome.next (onLines_of (ctl_txDone_silent busy silent))
    · have live : (s.line l).phase ≠ .closing := by
        rcases hp with ⟨st, hp⟩ | ⟨st, hp⟩ <;> rw [hp] <;> exact fun h => nomatch h
      have speaks : (s.line l).phase.speaks = true := by
        rcases hp with ⟨st, hp⟩ | ⟨st, hp⟩ <;> rw [hp] <;> rfl
      exact ⟨fun _ _ hm hch => exec_txDone_next busy speaks (.inl live) hm hch,
        fun _ _ _ _ hm ended waits text => exec_txDone_pending busy speaks live hm ended waits text,
        fun _ _ hm ended waits text =>
          ⟨fun _ hp hs => exec_txDone_pendingEmpty_slot busy speaks live hm ended waits text hp hs,
            exec_txDone_pendingEmpty_quiet busy speaks live hm ended waits text⟩,
        fun ended alone => ⟨fun _ hp hs => exec_txDone_slot busy speaks hp ended alone hs,
          exec_txDone_quiet busy speaks live ended alone⟩⟩
    · have speaks : (s.line l).phase.speaks = true := by rw [hp]; rfl
      exact ⟨fun _ _ _ waits text => exec_txDone_goodbye busy speaks hp waits text,
        fun _ waits text => exec_txDone_goodbyeEmpty busy speaks hp waits text,
        fun _ _ alone hm hch => exec_txDone_next busy speaks (.inr alone) hm hch,
        fun _ alone hm ended => exec_txDone_release busy speaks hp alone hm ended⟩

end Sys2Proof.Machine
end

/-! # Events of the host port bus (O40) -/
section
namespace Sys2Proof.Machine

/-! ## A port calls for a line -/

theorem modPort_modPort (s : State) (p : PortNo) (f g : PortRec → PortRec) :
    (s.modPort p f).modPort p g = s.modPort p (fun x => g (f x)) := by
  simp only [State.modPort, State.port, Vector.get_eq_getElem, Vector.getElem_set_self, Vector.set_set]

theorem lineClass_eq {s : State} {l : LineNo} {e : EntryNo} {x : OatEntry} (ref : (s.line l).entryRef = some e)
    (entry : s.entry e = some x) : s.lineClass l = x.acct.cls := by
  rw [State.lineClass, lineEntry_eq ref entry]

theorem callPort_called {s : State} {l : LineNo} {e : EntryNo} {x : OatEntry} {n : Nat} (p : PortNo)
    (ref : (s.line l).entryRef = some e) (entry : s.entry e = some x) (account : (s.line l).account = some n) :
    callPort s p l = s.called p l .calling n x.acct.cls := by
  rw [callPort, offerPort, account, lineClass_eq ref entry]
  rfl

/-- The state a port had does not show once it is calling. -/
theorem modPort_state_called (s : State) (p : PortNo) (st : PortState) (l : LineNo) (stage : AdmittedStage) (n : Nat) (cls : ClassNo) :
    (s.modPort p (fun x => { x with state := st })).called p l stage n cls = s.called p l stage n cls := by
  simp only [State.called, modPort_modPort, modPort_lc, modPort_bus]

/-! ## The state a port takes by its host ready flag (R157, R158) -/

section
variable {s : State} {p : PortNo}

theorem portByReady_notReady (h : (s.port p).hostReady = false) :
    portByReady s p = s.modPort p (fun x => { x with state := .notReady }) := by
  rw [portByReady, h]
  rfl

/-- A port that finds nobody it could serve is FREE. -/
theorem portByReady_free (h : (s.port p).hostReady = true)
    (nobody : (s.port p).role = .spare ∨ ∀ g, (s.port p).group = some g → (s.group g).queue = []) :
    portByReady s p = s.modPort p (fun x => { x with state := .free }) := by
  have port : (s.modPort p (fun x => { x with state := .free })).port p = { s.port p with state := .free } := by simp
  rw [portByReady, if_pos h]
  rcases serveQueue_free (s := s.modPort p (fun x => { x with state := .free })) (p := p) (by rw [port]) with
    ⟨g, place, rest, ordinary, hg, hq, _⟩ | ⟨_, served⟩
  · rw [port] at ordinary hg
    rcases nobody with spare | empty
    · cases ordinary.symm.trans spare
    · cases hq.symm.trans (empty g hg)
  · exact served

/-- An ORDINARY port goes to the head of its group's queue at once. -/
theorem portByReady_serves {g : GroupNo} {place : Place} {rest : List Place} {e : EntryNo} {y : OatEntry} {n : Nat}
    (h : (s.port p).hostReady = true) (ordinary : (s.port p).role = .ordinary) (hg : (s.port p).group = some g)
    (hq : (s.group g).queue = place :: rest) (ref : (s.line place.line).entryRef = some e) (entry : s.entry e = some y)
    (account : (s.line place.line).account = some n) :
    portByReady s p = (s.modGroup g (fun x => { x with queue := rest })).called p place.line .calling n y.acct.cls := by
  have port : (s.modPort p (fun x => { x with state := .free })).port p = { s.port p with state := .free } := by simp
  have queue : ((s.modPort p (fun x => { x with state := .free })).group g).queue = place :: rest := hq
  rw [portByReady, if_pos h]
  simp only [serveQueue, port, hg, ordinary, queue, and_self, if_true]
  exact (callPort_called p (s := (s.modPort p _).modGroup g _) ref entry account).trans
    (modPort_state_called (s.modGroup g (fun x => { x with queue := rest })) p .free place.line .calling n y.acct.cls)

end

/-! ## A character from a port (R62) -/

theorem ctl_modLine_congr {c : LineCtl} {l : LineNo} {f g : LineRec → LineRec} (h : f (c.line l) = g (c.line l)) :
    c.modLine l f = c.modLine l g := by
  rw [LineCtl.modLine, LineCtl.modLine, h]

section
variable {s : State} {l : LineNo} (hp : (s.line l).phase = .admitted .connected)
include hp

theorem hostChar_overrun (c : Byte) (full : (s.line l).portToLine ≠ none) : hostChar s l c =
    s.modLine l (fun r => { r with idleCount := some 0, idleWarning := none, overrun := true }) := by
  obtain ⟨b, hb⟩ := Option.ne_none_iff_exists'.1 full
  simp only [hostChar, hp, hb, activity, modLine_modLine]

theorem hostChar_waits (c : Byte) (free : (s.line l).portToLine = none) (busy : (s.line l).txBusy = true) : hostChar s l c =
    s.modLine l (fun r => { r with idleCount := some 0, idleWarning := none, portToLine := some c }) := by
  simp only [hostChar, hp, free, busy, if_true, activity, modLine_modLine]

/-- With the transmitter free and no message to send the character is on its way at once. -/
theorem hostChar_sent (c : Byte) (free : (s.line l).portToLine = none) (idle : (s.line l).txBusy = false)
    (silent : (s.line l).current = none) (alone : (s.line l).pending = none) : hostChar s l c =
      (s.modLine l (fun r => { r with idleCount := some 0, idleWarning := none })).sent l c := by
  have own := ctl_modLine_own s.lc l (fun r => { r with idleCount := some 0, idleWarning := none, portToLine := some c })
  have mine := ctl_modLine_own s.lc l (fun r =>
    { r with idleCount := some 0, idleWarning := none, portToLine := some c, current := none })
  have written : s.lc.modLine l (fun r => { r with idleCount := some 0, idleWarning := none, portToLine := none, current := none }) =
      s.lc.modLine l (fun r => { r with idleCount := some 0, idleWarning := none }) := ctl_modLine_congr (by
    show { s.line l with idleCount := some 0, idleWarning := none, portToLine := none, current := none } =
      { s.line l with idleCount := some 0, idleWarning := none }
    rw [← free, ← silent])
  simp only [hostChar, hp, free, idle, Bool.false_eq_true, if_false, activity, modLine_modLine]
  refine onLines_of (s := s.modLine l _) (c := (s.lc.modLine l _).transmit l c) ?_
  show (s.lc.modLine l _).boundary l = _
  rw [boundary_ended (by rw [own]; exact fun h => nomatch hp.symm.trans h)
      (by rw [own]; exact fun m hm => nomatch silent.symm.trans hm) (by rw [own]; exact alone),
    ctl_modLine_modLine, sendSlot_sends (by rw [mine]; exact hp) (by rw [mine]), ctl_modLine_modLine, written]

end

/-- Settles O40: the events of a port by its state, and what they do to the line it carries by the stage of that line. -/
theorem portEvents : Obligations.PortEvents := by
  unfold Obligations.PortEvents
  refine ⟨fun p s => ?_, fun p l c s => ?_⟩
  · dsimp only
    have port : ∀ b, (s.modPort p (fun x => { x with hostReady := b })).port p = { s.port p with hostReady := b } := fun b => by simp
    refine ⟨fun hs => ?_, fun hs nobody => ?_, fun g place rest e y n hs ordinary hg hq ref entry account => ?_, fun hs => ?_,
      fun hs => ?_⟩
    · show Host.Outcome.next (hostReadyOn s p) = _
      cases h : (s.port p).state with
      | notReady => exact absurd h hs
      | _ => simp only [hostReadyOn, h]
    · show Host.Outcome.next (hostReadyOn s p) = _
      simp only [hostReadyOn, hs]
      rw [portByReady_free (by rw [port]) (by rw [port]; exact nobody)]
    · show Host.Outcome.next (hostReadyOn s p) = _
      simp only [hostReadyOn, hs]
      exact congrArg Host.Outcome.next (portByReady_serves (s := s.modPort p (fun x => { x with hostReady := true })) (by rw [port])
        (by rw [port]; exact ordinary) (by rw [port]; exact hg) hq ref entry account)
    · show Host.Outcome.next (hostReadyOff s p) = _
      rcases hs with hs | hs | hs <;> simp only [hostReadyOff, hs]
    · show Host.Outcome.next (hostReadyOff s p) = _
      simp only [hostReadyOff, hs]
      rw [portByReady_notReady (by rw [port])]
  · refine ⟨fun hs hl => ⟨fun hp => ?_, fun hp => ?_⟩, fun hs => ?_, fun hs hl => ⟨fun hp => ⟨fun full => ?_, fun free busy => ?_,
      fun free idle silent alone => ?_⟩, fun hp => ?_, fun admitted => ?_⟩, fun hs => ⟨?_, ?_⟩⟩
    · show Host.Outcome.next (acceptPort s p) = _
      simp only [acceptPort, hs, hl, acceptLine, hp]
      rfl
    · show Host.Outcome.next (acceptPort s p) = _
      simp only [acceptPort, hs, hl, acceptLine, hp]
      rfl
    · show Host.Outcome.next (acceptPort s p) = _
      cases h : (s.port p).state with
      | calling => exact absurd h hs
      | _ => simp only [acceptPort, h]; rfl
    · show Host.Outcome.next (portRxChar s p c) = _
      simp only [portRxChar, hs, hl, hostChar_overrun hp c full]
    · show Host.Outcome.next (portRxChar s p c) = _
      simp only [portRxChar, hs, hl, hostChar_waits hp c free busy]
    · show Host.Outcome.next (portRxChar s p c) = _
      simp only [portRxChar, hs, hl, hostChar_sent hp c free idle silent alone, id]
    · show Host.Outcome.next (portRxChar s p c) = _
      simp only [portRxChar, hs, hl, hostChar, hp]
    · refine endsCall ?_ (exec_hostDisconnect_inUse hs hl)
      cases hp : (s.line l).phase with
      | admitted st => rfl
      | _ =>
        rw [hp] at admitted
        cases admitted
    · show Host.Outcome.next (portRxChar s p c) = _
      cases h : (s.port p).state with
      | inUse => exact absurd h hs
      | _ => simp only [portRxChar, h]
    · show Host.Outcome.next (hostDisconnect s p) = _
      cases h : (s.port p).state with
      | inUse => exact absurd h hs
      | _ => simp only [hostDisconnect, h]

end Sys2Proof.Machine
end

/-! # The transfers of the two buses (O35) -/
section
namespace Sys2Proof.Machine

/-! ## The command handshake (R52, R147) -/

theorem lineCommandWithdrawn_empty {s : State} (h : s.lc.bus = []) : lineCommandWithdrawn s = s := by
  simp only [lineCommandWithdrawn, State.lineCommand, h, List.head?_nil]

/-- A command that has no TX_DONE to come counts as complete. -/
theorem lineCommandWithdrawn_plain {s : State} {l : LineNo}
    (h : s.lc.bus.head? = some (.answer l) ∨ s.lc.bus.head? = some (.release l)) : lineCommandWithdrawn s = lineCommandDone s := by
  rcases h with h | h <;> simp only [lineCommandWithdrawn, State.lineCommand, h]

theorem lineCommandWithdrawn_txChar {s : State} {l : LineNo} {c : Byte} (h : s.lc.bus.head? = some (.txChar l c)) :
    lineCommandWithdrawn s = txDone (lineCommandDone s) l := by
  simp only [lineCommandWithdrawn, State.lineCommand, h]

theorem portCommandDone_slot {s : State} {p : PortNo} {c : Byte} {l : LineNo} (h : s.pa.bus.head? = some (.txChar p c (some l))) :
    portCommandDone s = ({ s with pa := { s.pa with bus := s.pa.bus.tail } } : State).modLine l (fun r => { r with lineToPort := none }) := by
  simp only [portCommandDone, State.portCommand, h]

theorem portCommandDone_plain {s : State} (h : ∀ p c l, s.pa.bus.head? ≠ some (.txChar p c (some l))) :
    portCommandDone s = { s with pa := { s.pa with bus := s.pa.bus.tail } } := by
  unfold portCommandDone
  dsimp only
  split
  · rename_i hc
    exact absurd hc (h _ _ _)
  · rfl

/-! ## Events that change nothing -/

/-- The phases and stages in which characters and breaks are discarded (R55, R59 to R61, R84). -/
def deafPhases : List Phase :=
  [.down, .idle, .answering, .closing, .guard, .signon .checking, .signon .held, .signon .admitting, .admitted .calling,
    .admitted .moving]

theorem deaf_discards {s : State} {l : LineNo} (h : (s.line l).phase ∈ deafPhases) (c : Byte) :
    lineRxChar s l c = s ∧ rxBreak s l = s := by
  simp only [deafPhases, List.mem_cons, List.not_mem_nil, or_false] at h
  constructor
  · rcases h with h | h | h | h | h | h | h | h | h | h <;> simp only [lineRxChar, signOnChar, admittedChar, h]
  · rcases h with h | h | h | h | h | h | h | h | h | h <;> simp only [rxBreak, signOnBreak, admittedBreak, h]

/-! ## Transfers by their codes -/

theorem takeLineTransfer_queues {s : State} {t : LineTransfer} {c : Instr} (h : t.event = some c) :
    s.takeLineTransfer t = { s with pending := s.pending ++ [c] } := by
  rw [takeLineTransfer_spec, h, Option.toList_some]

theorem takePortTransfer_queues {s : State} {t : PortTransfer} {c : Instr} (h : t.event = some c) :
    s.takePortTransfer t = { s with pending := s.pending ++ [c] } := by
  rw [takePortTransfer_spec, h, Option.toList_some]

/-- Codes above 5 name no line event. -/
theorem lineTransfer_discarded {t : LineTransfer} (h : 6 ≤ t.code.val) : t.event = none := by
  obtain ⟨k, hk⟩ : ∃ k, t.code.val = k + 6 := ⟨_, (Nat.sub_add_cancel h).symm⟩
  simp only [LineTransfer.event, hk]

/-- Codes above 4 name no port event. -/
theorem portTransfer_discarded {t : PortTransfer} (h : 5 ≤ t.code.val) : t.event = none := by
  obtain ⟨k, hk⟩ : ∃ k, t.code.val = k + 5 := ⟨_, (Nat.sub_add_cancel h).symm⟩
  simp only [PortTransfer.event, hk]

theorem callData (l : LineNo) (n : Nat) (cls : ClassNo) (p : PortNo) : (PortCmd.call p l n cls).data =
    [BitVec.ofNat 8 l.val, BitVec.ofNat 8 (n / 65536), BitVec.ofNat 8 (n / 256), BitVec.ofNat 8 n, BitVec.ofNat 8 cls.val] := by
  simp [PortCmd.data, beBytes]

/-- Settles O35: the handshake by the command offered, the discarded events, and each transfer by its code. -/
theorem busTransfers : Obligations.BusTransfers := by
  unfold Obligations.BusTransfers
  refine ⟨fun s => ⟨rfl, fun h => ?_, fun l h => ?_, fun l c h => ?_, fun i hi => ⟨fun p c l h => ?_, fun h => ?_⟩⟩,
    fun s => ⟨fun n above _ c => ?_, fun l c h => ?_⟩, fun s t => ?_, fun s t => ?_, fun s => ?_⟩
  · exact congrArg Host.Outcome.next (lineCommandWithdrawn_empty h)
  · exact congrArg Host.Outcome.next (lineCommandWithdrawn_plain h)
  · exact ⟨_, congrArg Host.Outcome.next (lineCommandWithdrawn_txChar h), exec_txDone l _⟩
  · rcases hi with rfl | rfl <;> exact congrArg Host.Outcome.next (portCommandDone_slot h)
  · rcases hi with rfl | rfl <;> exact congrArg Host.Outcome.next (portCommandDone_plain h)
  · have none (f : State → LineNo → State) : Host.Outcome.next (lineEvent n s f) = (.next s : Host.Outcome State Fault Refusal) :=
      congrArg Host.Outcome.next (lineEvent_none above s f)
    exact ⟨none _, none _, none _, none _, none _, none _⟩
  · obtain ⟨char, brk⟩ := deaf_discards h c
    rw [exec_lineRxChar, exec_rxBreak, char, brk]
    exact ⟨rfl, rfl⟩
  · have event (k : Fin 16) (h : t.code = k) : t.event = LineTransfer.event { t with code := k } := by rw [← h]
    exact ⟨fun h => takeLineTransfer_queues (event 0 h), fun h => takeLineTransfer_queues (event 1 h),
      fun h => takeLineTransfer_queues (event 2 h), fun h => takeLineTransfer_queues (event 3 h),
      fun h => takeLineTransfer_queues (event 4 h), fun h => takeLineTransfer_queues (event 5 h),
      fun h => by rw [State.takeLineTransfer, lineTransfer_discarded h]; rfl⟩
  · have event (k : Fin 16) (h : t.code = k) : t.event = PortTransfer.event { t with code := k } := by rw [← h]
    exact ⟨fun h => takePortTransfer_queues (event 0 h), fun h => takePortTransfer_queues (event 1 h),
      fun h => takePortTransfer_queues (event 2 h), fun h => takePortTransfer_queues (event 3 h),
      fun h => takePortTransfer_queues (event 4 h), fun h => by rw [State.takePortTransfer, portTransfer_discarded h]; rfl⟩
  · have line {c : Option LineCmd} (h : s.lc.bus.head? = c) : s.lineBusOut = c.map (fun c => (c.line.val, c.code, c.data)) := by
      rw [← h]; rfl
    have port {c : Option PortCmd} (h : s.pa.bus.head? = c) : s.portBusOut = c.map (fun c => (c.port.val, c.code, c.data)) := by
      rw [← h]; rfl
    exact ⟨fun h => line (congrArg List.head? h), fun h => port (congrArg List.head? h), fun l h => line h, fun l h => line h,
      fun l c h => line h, fun p l n cls h => (port h).trans (by rw [Option.map_some, callData]; rfl), fun p h => port h,
      fun p c k h => port h⟩

end Sys2Proof.Machine
end

/-! # Line parameters and messages (O20) -/
section
namespace Sys2Proof.Machine

/-! ## A request that completes at once -/

section
variable {s t : State} {q : QuickReq} (idle : s.sup.busy = false) (fits : requestLengthFits (.quick q) = true)
include idle fits

/-- A request that is carried out, the port being left as it is, completes with OK or OK_CLAMPED. -/
theorem submit_ok {clamped : Bool} {result : List Byte}
    (done : carryOutQuick (s.withSup s.sup.accepted) q = respond t .ok clamped result) (kept : t.sup = s.sup.accepted) :
    submit s (.quick q) = { t with sup := s.sup.answered (okCode clamped) clamped result } := by
  rw [submit_withSup idle fits, done, respond_ok, kept]
  rfl

/-- A request that is refused changes nothing but the port. -/
theorem submit_refused {c : Code} (hc : c ≠ .ok)
    (done : carryOutQuick (s.withSup s.sup.accepted) q = respond (s.withSup s.sup.accepted) c false []) :
    submit s (.quick q) = { s with sup := s.sup.answered c.byte false [] } := by
  rw [submit_withSup idle fits, done, respond_code _ hc]
  rfl

end

/-! ## SET_LINE_PARAMETERS (R72) -/

theorem map_clamp_eq {lo hi : Nat} (h : lo ≤ hi) (n : Option Nat) : n.map (clamp lo hi) = n.map (nearest lo hi) :=
  congrArg (fun f => n.map f) (funext fun _ => clamp_eq_nearest h _)

theorem map_clamps_getD (lo hi : Nat) (n : Option Nat) :
    (n.map (clamps lo hi)).getD false = n.any (fun n => n < lo || hi < n) := by
  cases n <;> rfl

theorem paramsClamp_eq (f : LineParamChange) : paramsClamp f =
    let outside (lo hi : Nat) (n : Option Nat) : Bool := n.any (fun n => n < lo || hi < n)
    (outside 0 96 f.busyOut || outside 10 60 f.answerLimit || outside 0 15 f.carrierHold || outside 30 255 f.signonLimit ||
      outside 1 5 f.attemptsPerCall || outside 0 15 f.lockoutThreshold || outside 10 255 f.holdLimit ||
      outside 15 255 f.selectionLimit || outside 5 60 f.callLimit || outside 0 127 f.escapeKey || outside 0 127 f.escapeMask) := by
  simp only [paramsClamp, map_clamps_getD]

theorem paramBytes_eq (p : LineParams) : paramBytes p = (if p.acceptingCalls then 1 else 0) ::
    [p.busyOut, p.answerLimit, p.carrierHold, p.signonLimit, p.attemptsPerCall, p.lockoutThreshold, p.holdLimit,
      p.selectionLimit, p.callLimit, p.escapeKey, p.escapeMask].map (BitVec.ofNat 8) := rfl

theorem exec_setLineParameters {s : State} (idle : s.sup.busy = false) (f : LineParamChange) :
    exec (.setLineParameters f) s = .next { s with
      lc := { s.lc with params := changeParams f s.lc.params }
      sup := s.sup.answered (okCode (paramsClamp f)) (paramsClamp f) (paramBytes (changeParams f s.lc.params)) } :=
  congrArg Host.Outcome.next (submit_ok idle rfl
    (t := (s.withSup s.sup.accepted).onLines (fun c => { c with params := changeParams f s.lc.params })) rfl rfl)

/-! ## WRITE_MESSAGE (R66) -/

theorem msgNo?_val (m : MsgNo) : msgNo? m.val = some m := dif_pos m.isLt

theorem msgNo?_none {n : Nat} (h : 15 < n) : msgNo? n = none := dif_neg (by omega)

section
variable {s : State} (idle : s.sup.busy = false) {text : List Byte} (fits : text.length ≤ 79)
include idle fits

theorem exec_writeMessage_outOfRange {n : Nat} (h : 15 < n) :
    exec (.writeMessage n text) s = .next { s with sup := s.sup.answered 4 false [] } :=
  congrArg Host.Outcome.next (submit_refused idle (q := .writeMessage n text) (c := .outOfRange)
    (decide_eq_true (Nat.lt_succ_of_le fits)) nofun (by
      show writeMessage _ n text = _
      rw [writeMessage, msgNo?_none h]))

theorem exec_writeMessage (m : MsgNo) : exec (.writeMessage m.val text) s = .next { s with
    lc := { s.lc with messages := s.lc.messages.set m (text.take 48) }
    sup := s.sup.answered (okCode (decide (48 < text.length))) (decide (48 < text.length)) [] } :=
  congrArg Host.Outcome.next (submit_ok idle (q := .writeMessage m.val text)
    (t := (s.withSup s.sup.accepted).onLines (fun c => { c with messages := c.messages.set m (text.take 48) }))
    (decide_eq_true (Nat.lt_succ_of_le fits)) (by
      show writeMessage _ m.val text = _
      rw [writeMessage, msgNo?_val]
      rfl) rfl)

end

/-- Settles O20. -/
theorem lineSettings : Obligations.LineSettings := by
  unfold Obligations.LineSettings
  refine fun s idle => ⟨fun f => ⟨_, exec_setLineParameters idle f, ?_, rfl, ?_⟩, fun text fits =>
    ⟨fun n h => exec_writeMessage_outOfRange idle fits h, exec_writeMessage idle fits⟩⟩
  · rw [paramsClamp_eq, paramBytes_eq]
  · simp only [changeParams, map_clamp_eq, Nat.reduceLeDiff, and_self]

end Sys2Proof.Machine
end

/-! # LINE_SERVICE and FORCE_END (O21) -/
section
namespace Sys2Proof.Machine

/-! ## A frame arrives byte by byte (R198) -/

/-- The port with the bytes of an unfinished frame in its request buffer. -/
def State.holding (s : State) (bytes : List Byte) : State :=
  { s with sup := { s.sup with request := bytes, received := bytes.length } }

theorem holding_nil {s : State} (hr : s.sup.request = []) (hn : s.sup.received = 0) : s.holding [] = s := by
  rw [State.holding, List.length_nil, ← hr, ← hn]

section
variable {s : State} {bytes params : List Byte} {b code n : Byte} (room : bytes.length < 82)
include room

theorem storeByte_holding : storeByte (s.holding bytes) b = s.holding (bytes ++ [b]) := by
  have kept : (if bytes.length < Config.requestBufferBytes then bytes ++ [b] else bytes) = bytes ++ [b] := if_pos room
  show ({ s with sup := { s.sup with
    request := if bytes.length < Config.requestBufferBytes then bytes ++ [b] else bytes, received := bytes.length + 1 } } : State) = _
  rw [kept, State.holding, List.length_append, List.length_singleton]

theorem writeStrobe_waits (h : ∀ code n params, bytes ++ [b] = code :: n :: params → params.length ≠ n.toNat) :
    writeStrobe (s.holding bytes) b = s.holding (bytes ++ [b]) := by
  unfold writeStrobe
  dsimp only
  rw [storeByte_holding room]
  split
  · rename_i code n params hf
    refine if_neg fun full => h code n params hf ?_
    have total : (bytes ++ [b]).length = n.toNat + 2 := full
    rw [show bytes ++ [b] = code :: n :: params from hf] at total
    simpa using total
  · rfl

theorem writeStrobe_completes (h : bytes ++ [b] = code :: n :: params) (hn : params.length = n.toNat) :
    writeStrobe (s.holding bytes) b = takeFrame (s.holding (bytes ++ [b])) code.toNat n.toNat params := by
  unfold writeStrobe
  dsimp only
  rw [storeByte_holding room, h]
  exact if_pos (by rw [← hn]; rfl)

end

theorem takeFrame_holding {s : State} (idle : s.sup.busy = false) (bytes : List Byte) (code n : Nat) (params : List Byte) :
    takeFrame (s.holding bytes) code n params = carryOutFrame code n params (s.withSup s.sup.accepted) :=
  onFrame_idle (s := s.holding bytes) idle _

/-- A frame of two parameters, written from an empty request buffer. -/
theorem execAll_writeStrobes_two {s : State} (idle : s.sup.busy = false) (hr : s.sup.request = []) (hn : s.sup.received = 0)
    (code a b : Byte) :
    execAll [.supervisorWriteStrobe code, .supervisorWriteStrobe 2, .supervisorWriteStrobe a, .supervisorWriteStrobe b] s =
      .next (carryOutFrame code.toNat 2 [a, b] (s.withSup s.sup.accepted)) := by
  have strobe {bytes : List Byte} {c : Byte} {t : State} (h : writeStrobe (s.holding bytes) c = t) :
      exec (.supervisorWriteStrobe c) (s.holding bytes) = .next t := congrArg Host.Outcome.next h
  have first : exec (.supervisorWriteStrobe code) (s.holding []) = .next (s.holding [code]) :=
    strobe (writeStrobe_waits (by simp) fun _ _ _ h => by simp at h)
  have second : exec (.supervisorWriteStrobe 2) (s.holding [code]) = .next (s.holding [code, 2]) :=
    strobe (writeStrobe_waits (by simp) fun _ n ps h => by
      obtain ⟨-, rfl, rfl⟩ : code = _ ∧ 2 = n ∧ [] = ps := by simpa using h
      decide)
  have third : exec (.supervisorWriteStrobe a) (s.holding [code, 2]) = .next (s.holding [code, 2, a]) :=
    strobe (writeStrobe_waits (by simp) fun _ n ps h => by
      obtain ⟨-, rfl, rfl⟩ : code = _ ∧ 2 = n ∧ [a] = ps := by simpa using h
      exact (by decide : 1 ≠ (2 : Byte).toNat))
  have fourth : exec (.supervisorWriteStrobe b) (s.holding [code, 2, a]) =
      .next (takeFrame (s.holding [code, 2, a, b]) code.toNat 2 [a, b]) :=
    strobe (writeStrobe_completes (code := code) (n := 2) (params := [a, b]) (by simp) rfl rfl)
  have run := (execAll_cons first _).trans ((execAll_cons second _).trans ((execAll_cons third _).trans (execAll_cons fourth [])))
  rw [holding_nil hr hn] at run
  rw [run, takeFrame_holding idle]
  rfl

/-! ## A request that names a line -/

theorem onLineRequest_val (s : State) (l : LineNo) (f : LineNo → State) : onLineRequest s l.val f = f l := by
  rw [onLineRequest, lineNo?_val]

theorem onLineRequest_none (s : State) {n : Nat} (h : 95 < n) (f : LineNo → State) :
    onLineRequest s n f = respond s .outOfRange false [] := by
  rw [onLineRequest, lineNo?_none h]

section
variable {s : State} (idle : s.sup.busy = false)
include idle

theorem exec_lineServiceOut {l : LineNo} {t u : State} (done : lineOut (s.withSup s.sup.accepted) l = t)
    (kept : t.sup = s.sup.accepted) (rest : { t with sup := s.sup.answered 0 false [] } = u) : exec (.lineServiceOut l.val) s = .next u :=
  congrArg Host.Outcome.next ((submit_ok idle (q := .lineService l.val 0) rfl
    ((onLineRequest_val _ l _).trans (congrArg (respond · .ok false []) done)) kept).trans rest)

theorem exec_lineServiceIn {l : LineNo} {t u : State} (done : lineIn (s.withSup s.sup.accepted) l = t)
    (kept : t.sup = s.sup.accepted) (rest : { t with sup := s.sup.answered 0 false [] } = u) : exec (.lineServiceIn l.val) s = .next u :=
  congrArg Host.Outcome.next ((submit_ok idle (q := .lineService l.val 1) rfl
    ((onLineRequest_val _ l _).trans (congrArg (respond · .ok false []) done)) kept).trans rest)

theorem exec_forceEnd {l : LineNo} {t : State} (done : forceEndLine (s.withSup s.sup.accepted) l = respond t .ok false [])
    (kept : t.sup = s.sup.accepted) :
    exec (.forceEnd l.val) s = .next { t with sup := s.sup.answered 0 false [] } :=
  congrArg Host.Outcome.next (submit_ok idle (q := .forceEnd l.val) rfl ((onLineRequest_val _ l _).trans done) kept)

/-- A line number above 95 is refused with OUT_OF_RANGE. -/
theorem submit_noLine {n : Nat} (h : 95 < n) {q : QuickReq} (fits : requestLengthFits (.quick q) = true) (f : LineNo → State)
    (names : carryOutQuick (s.withSup s.sup.accepted) q = onLineRequest (s.withSup s.sup.accepted) n f) :
    submit s (.quick q) = { s with sup := s.sup.answered 4 false [] } :=
  submit_refused idle (c := .outOfRange) fits nofun (names.trans (onLineRequest_none _ h f))

end

/-- A direction that is neither out nor in is refused with MALFORMED. -/
theorem lineService_malformed (s : State) (l : LineNo) {n : Nat} (h : 1 < n) : lineService (s.withSup s.sup.accepted) l.val n =
    { s with sup := s.sup.answered 3 false [] } := by
  obtain ⟨k, rfl⟩ : ∃ k, n = k + 2 := ⟨n - 2, by omega⟩
  exact (onLineRequest_val _ l _).trans (respond_code _ (c := .malformed) nofun false [])

/-! ## The line, phase by phase -/

section
variable {s : State} {l : LineNo}

theorem lineOut_down (hp : (s.line l).phase = .down) : lineOut s l = s := by simp only [lineOut, hp]

theorem lineOut_idle (hp : (s.line l).phase = .idle) : lineOut s l = s.modLine l (fun r => { r with phase := .down }) := by
  simp only [lineOut, hp]

theorem lineIn_down (hp : (s.line l).phase = .down) : lineIn s l = s.modLine l (fun r => { r with phase := .idle }) := by
  simp only [lineIn, hp]

theorem lineIn_idle (hp : (s.line l).phase = .idle) : lineIn s l = s := by simp only [lineIn, hp]

theorem lineOut_inCall (h : (s.line l).phase.inCall = true) :
    lineOut s l = (endCall noSecond s l .supervisor false).modLine l (fun r => { r with outOfService := true }) := by
  cases hp : (s.line l).phase with
  | answering => simp only [lineOut, hp]
  | signon st => simp only [lineOut, hp]
  | admitted st => simp only [lineOut, hp]
  | _ =>
    rw [hp] at h
    cases h

theorem lineOut_leaving (h : (s.line l).phase = .closing ∨ (s.line l).phase = .guard) :
    lineOut s l = s.modLine l (fun r => { r with outOfService := true }) := by
  rcases h with hp | hp <;> simp only [lineOut, hp]

theorem lineIn_unmarks (hd : (s.line l).phase ≠ .down) (hi : (s.line l).phase ≠ .idle) :
    lineIn s l = s.modLine l (fun r => { r with outOfService := false }) := by
  cases hp : (s.line l).phase with
  | down => exact absurd hp hd
  | idle => exact absurd hp hi
  | _ => simp only [lineIn, hp]

theorem forceEndLine_inCall (h : (s.line l).phase.inCall = true) :
    forceEndLine s l = respond (endCall noSecond s l .supervisor false) .ok false [] := by
  cases hp : (s.line l).phase with
  | answering => simp only [forceEndLine, hp]
  | signon st => simp only [forceEndLine, hp]
  | admitted st => simp only [forceEndLine, hp]
  | _ =>
    rw [hp] at h
    cases h

theorem forceEndLine_refused (h : (s.line l).phase = .idle ∨ (s.line l).phase = .down ∨ (s.line l).phase = .guard) :
    forceEndLine s l = respond s .wrongState false [] := by
  rcases h with hp | hp | hp <;> simp only [forceEndLine, hp]

end

/-- The mark a call leaves behind for the guard says nothing of the end itself. -/
theorem CallEnded.outOfService {cause : EndCause} {s t : State} {l : LineNo} (h : CallEnded cause s t l) :
    CallEnded cause s (t.modLine l (fun r => { r with outOfService := true })) l := by
  have own : (t.modLine l (fun r => { r with outOfService := true })).line l = { t.line l with outOfService := true } := by simp
  simp only [CallEnded, GoodbyeWaits, GoodbyeSpoken, goodbyeCredits, ReleasedAtEnd] at h ⊢
  rw [own]
  exact h

/-- A frame of LINE_SERVICE with a direction that is neither out nor in (R73). -/
theorem carryOutFrame_lineService_malformed {s : State} (l : LineNo) {b : Byte} (h : 1 < b.toNat) :
    carryOutFrame (0x31 : Byte).toNat 2 [BitVec.ofNat 8 l.val, b] (s.withSup s.sup.accepted) =
      { s with sup := s.sup.answered 3 false [] } := by
  have line : beNat [BitVec.ofNat 8 l.val] = l.val := by simp [beNat]; omega
  have direction : beNat [b] = b.toNat := by simp [beNat]
  have parsed : carryOutFrame (0x31 : Byte).toNat 2 [BitVec.ofNat 8 l.val, b] (s.withSup s.sup.accepted) =
      lineService (s.withSup s.sup.accepted) (beNat [BitVec.ofNat 8 l.val]) (beNat [b]) := rfl
  rw [parsed, line, direction, lineService_malformed s l h]

/-- FORCE_END releases a line in CLOSING at once (R74). -/
theorem release_line (c : LineCtl) (l k : LineNo) : (c.release l).line k =
    if k = l then { c.line l with phase := .guard, stageTimer := some Config.guardTime, current := none, pending := none }
    else c.line k := by
  rw [LineCtl.release, ctl_modLine_line]
  rfl

/-- Settles O21, phase by phase. -/
theorem lineServiceAndForceEnd : Obligations.LineServiceAndForceEnd := by
  unfold Obligations.LineServiceAndForceEnd
  refine ⟨fun l s idle => ⟨fun hp => ?_, fun hp => ?_, fun hc => ?_, fun hp => ?_, fun hd hi => ?_, fun b hb hr hn => ?_,
      fun n h => ?_⟩, fun l s idle => ⟨fun hc => ?_, fun hp => ?_, fun hp => ?_, fun n h => ?_⟩⟩
  · exact ⟨exec_lineServiceOut idle (lineOut_down hp) rfl rfl, exec_lineServiceIn idle (lineIn_down hp) rfl rfl⟩
  · exact ⟨exec_lineServiceIn idle (lineIn_idle hp) rfl rfl, exec_lineServiceOut idle (lineOut_idle hp) rfl rfl⟩
  · obtain ⟨ended, keeps⟩ := endCall_spec noSecond (s.withSup s.sup.accepted) l .supervisor false hc
    refine ⟨_, exec_lineServiceOut idle (lineOut_inCall hc) keeps.sup rfl, ended.outOfService, keeps.keptAtEnd, rfl, ?_⟩
    show (((endCall noSecond _ l _ _).modLine l _).line l).outOfService = true
    rw [modLine_line, if_pos rfl]
  · exact exec_lineServiceOut idle (lineOut_leaving hp) rfl rfl
  · exact exec_lineServiceIn idle (lineIn_unmarks hd hi) rfl rfl
  · rw [execAll_writeStrobes_two idle hr hn, carryOutFrame_lineService_malformed l hb]
  · exact ⟨congrArg Host.Outcome.next (submit_noLine idle h (q := .lineService n 0) rfl _ rfl),
      congrArg Host.Outcome.next (submit_noLine idle h (q := .lineService n 1) rfl _ rfl)⟩
  · obtain ⟨ended, keeps⟩ := endCall_spec noSecond (s.withSup s.sup.accepted) l .supervisor false hc
    exact ⟨_, exec_forceEnd idle (forceEndLine_inCall hc) keeps.sup, ended, keeps.keptAtEnd, rfl⟩
  · have phase : ((s.withSup s.sup.accepted).line l).phase = .closing := hp
    have run := exec_forceEnd idle (l := l) (t := (s.withSup s.sup.accepted).onLines (fun c => c.release l))
      (by simp only [forceEndLine, phase]) rfl
    exact ⟨_, run, rfl, (release_line s.lc l l).trans (if_pos rfl), fun k hk => (release_line s.lc l k).trans (if_neg hk)⟩
  · exact congrArg Host.Outcome.next (submit_refused idle (q := .forceEnd l.val) (c := .wrongState) rfl nofun
      ((onLineRequest_val _ l _).trans (forceEndLine_refused hp)))
  · exact congrArg Host.Outcome.next (submit_noLine idle h (q := .forceEnd n) rfl _ rfl)

end Sys2Proof.Machine
end

/-! # READ_LINE and CLEAR_SUMMARY (O22) -/
section
namespace Sys2Proof.Machine

/-! ## Fields of an image (R207) -/

/-- A number in one byte, FF hex for absent. -/
def byteOrFF (n : Option Nat) : Byte :=
  match n with
  | none => 0xFF
  | some n => BitVec.ofNat 8 n

theorem optByteFF_eq {n : Nat} (x : Option (Fin n)) : optByteFF x = byteOrFF (x.map Fin.val) := by
  cases x <;> rfl

theorem getD_map_ofNat {α : Type} (x : Option α) (f : α → Nat) :
    (x.map (fun a => BitVec.ofNat 8 (f a))).getD 0xFF = byteOrFF (x.map f) := by
  cases x <;> rfl

theorem optFF_one (n : Option Nat) : optFF 1 n = [byteOrFF n] := by
  cases n with
  | none => rfl
  | some n => exact beBytes_one n

theorem optBytes_one (n : Option Nat) : optBytes 1 n = [BitVec.ofNat 8 (n.getD 0)] := beBytes_one _

theorem groupNumber_elim (g : Option GroupNo) : groupNumber g = g.elim 0 (fun g => g.val + 1) := by
  cases g <;> rfl

/-- The weight of a flag at its bit. -/
def flagWeight (x : Bool × Nat) : Nat := if x.1 then 2 ^ x.2 else 0

theorem sum_flagWeight (bits : List Bool) : ∀ k, ((bits.zipIdx k).map flagWeight).sum =
    2 ^ k * bits.foldr (fun b n => 2 * n + b.toNat) 0 := by
  induction bits with
  | nil => intro k; simp
  | cons b bits ih =>
    intro k
    rw [List.zipIdx_cons, List.map_cons, List.sum_cons, ih, List.foldr_cons]
    cases b <;> simp [flagWeight] <;> ring

theorem flagsByte_eq (bits : List Bool) : flagsByte bits = BitVec.ofNat 8 ((bits.zipIdx.map flagWeight).sum) := by
  rw [sum_flagWeight, pow_zero, Nat.one_mul, flagsByte]

/-- The phase byte and the stage byte of a phase. -/
def phasePair (p : Phase) : Byte × Byte :=
  match p with
  | .down => (0, 0xFF)
  | .idle => (1, 0xFF)
  | .answering => (2, 0xFF)
  | .signon .accountEntry => (3, 0)
  | .signon .passwordEntry => (3, 1)
  | .signon .checking => (3, 2)
  | .signon .held => (3, 3)
  | .signon .admitting => (3, 4)
  | .admitted .selecting => (4, 0)
  | .admitted .waiting => (4, 1)
  | .admitted .calling => (4, 2)
  | .admitted .connected => (4, 3)
  | .admitted .escaped => (4, 4)
  | .admitted .moving => (4, 5)
  | .closing => (5, 0xFF)
  | .guard => (6, 0xFF)

theorem phaseBytes_pair (p : Phase) : phaseBytes p = [(phasePair p).1, (phasePair p).2] := by
  cases p with
  | signon st => cases st <;> rfl
  | admitted st => cases st <;> rfl
  | _ => rfl

/-! ## The lengths of the fields -/

theorem length_optFF (k : Nat) (n : Option Nat) : (optFF k n).length = k := by
  cases n with
  | none => exact List.length_replicate
  | some n => exact Laws.Fits.length_beBytes k n

theorem length_optBytes (k : Nat) (n : Option Nat) : (optBytes k n).length = k := Laws.Fits.length_beBytes k _

theorem length_summaryBytes (x : Option Summary) : (summaryBytes x).length = 15 := by
  cases x with
  | none => rfl
  | some x => simp [summaryBytes, Laws.Fits.length_beBytes, length_optBytes]

theorem length_lineImage (r : LineRec) : (lineImage r).length = 58 := by
  unfold lineImage
  simp only [phaseBytes_pair, List.length_append, List.length_cons, List.length_nil, Laws.Fits.length_beBytes, length_optBytes,
    length_optFF, length_summaryBytes, Nat.reduceAdd, Nat.zero_add]

/-! ## The requests (R76) -/

section
variable {s : State} (idle : s.sup.busy = false)
include idle

theorem exec_readLine (l : LineNo) : exec (.readLine l.val) s =
    .next { s.modLine l (fun r => { r with overrun := false, echoSuppressed := false }) with
            sup := s.sup.answered 0 false (lineImage (s.line l)) } :=
  congrArg Host.Outcome.next (submit_ok idle (q := .readLine l.val) (clamped := false)
    (t := (s.withSup s.sup.accepted).modLine l (fun r => { r with overrun := false, echoSuppressed := false })) rfl (onLineRequest_val _ l _) rfl)

/-- What READ_LINE returns, whichever way its 58 bytes are written. -/
theorem exec_readLine_image {l : LineNo} {image : List Byte} (same : lineImage (s.line l) = image) : exec (.readLine l.val) s =
    .next { s.modLine l (fun r => { r with overrun := false, echoSuppressed := false }) with
            sup := s.sup.answered 0 false image } ∧ image.length = 58 := by
  subst same
  exact ⟨exec_readLine idle l, length_lineImage _⟩

theorem exec_clearSummary (l : LineNo) : exec (.clearSummary l.val) s =
    .next { s.modLine l (fun r => { r with summary := none }) with sup := s.sup.answered 0 false [] } :=
  congrArg Host.Outcome.next (submit_ok idle (q := .clearSummary l.val) (clamped := false)
    (t := (s.withSup s.sup.accepted).modLine l (fun r => { r with summary := none })) rfl (onLineRequest_val _ l _) rfl)

end

/-- Settles O22: the image is the statement's field by field. -/
theorem readLine_image : Obligations.ReadLine := by
  unfold Obligations.ReadLine
  intro l s idle
  dsimp only
  refine ⟨exec_readLine_image idle ?_, exec_clearSummary idle l, fun n h => ⟨?_, ?_⟩⟩
  · unfold lineImage
    simp only [phaseBytes_pair, optByteFF_eq, Option.map_map, getD_map_ofNat, optFF_one, optBytes_one, beBytes_one, groupNumber_elim,
      flagsByte_eq, List.append_assoc, List.cons_append, List.nil_append]
    rfl
  · exact congrArg Host.Outcome.next (submit_noLine idle h (q := .readLine n) rfl _ rfl)
  · exact congrArg Host.Outcome.next (submit_noLine idle h (q := .clearSummary n) rfl _ rfl)

end Sys2Proof.Machine
end

/-! # A second event while lines wait (O59)

No timer runs out and every band is allowed: each part of the event acts on a waiting line, or on a group, by itself. -/
section
namespace Sys2Proof.Machine

/-! ## What a message request makes of a line's record -/

/-- The record depends on the message table and the record alone. -/
theorem ctl_request_line_congr {c d : LineCtl} {l : LineNo} (messages : c.messages = d.messages) (line : c.line l = d.line l)
    (n : MsgNo) (k : Nat) : (c.request l n k).line l = (d.request l n k).line l := by
  cases hm : (d.line l).current with
  | some m =>
    have some : (d.line l).current ≠ none := by rw [hm]; nofun
    rw [request_some some, request_some (by rw [line]; exact some), ctl_modLine_own, ctl_modLine_own, line]
  | none =>
    rw [request_none hm, request_none (by rw [line]; exact hm)]
    cases text : expandText (d.messages.get n) k with
    | nil => rw [beginMessage_empty text, beginMessage_empty (by rw [messages]; exact text), ctl_modLine_own, ctl_modLine_own, line]
    | cons ch rest =>
      cases busy : (d.line l).txBusy with
      | false =>
        rw [beginMessage_free text busy, beginMessage_free (by rw [messages]; exact text) (by rw [line]; exact busy),
          ctl_transmit_own, ctl_transmit_own, ctl_modLine_own, ctl_modLine_own, line]
      | true =>
        have said : expandText (d.messages.get n) k ≠ [] := by rw [text]; nofun
        rw [beginMessage_busy said busy, beginMessage_busy (by rw [messages]; exact said) (by rw [line]; exact busy),
          ctl_modLine_own, ctl_modLine_own, line, messages]

theorem requestMessage_line_congr {s t : State} {l : LineNo} (messages : s.lc.messages = t.lc.messages) (line : s.line l = t.line l)
    (n : MsgNo) (k : Nat) : (requestMessage s l n k).line l = (requestMessage t l n k).line l :=
  ctl_request_line_congr messages line n k

theorem requestMessage_others (s : State) {l k : LineNo} (h : k ≠ l) (n : MsgNo) (i : Nat) :
    (requestMessage s l n i).line k = s.line k := (speaksOnly_request l s.lc n i).others k h

/-! ## Queue positions (R155) -/

/-- The places of a queue, from the one behind `n` others on, with their positions announced. -/
def announcedFrom (n : Nat) (queue : List Place) : List Place :=
  (queue.zipIdx n).map (fun x => { x.1 with announced := x.2 + 1 })

theorem announcedFrom_cons (n : Nat) (place : Place) (rest : List Place) :
    announcedFrom n (place :: rest) = { place with announced := n + 1 } :: announcedFrom (n + 1) rest := rfl

theorem announcedFrom_lines (queue : List Place) : ∀ n, (announcedFrom n queue).map (fun q => q.line) = queue.map (fun q => q.line) := by
  induction queue with
  | nil => intro n; rfl
  | cons place rest ih => intro n; rw [announcedFrom_cons, List.map_cons, List.map_cons, ih]

theorem getElem?_announcedFrom {n i : Nat} {queue : List Place} {place : Place} (h : queue[i]? = some place) :
    (announcedFrom n queue)[i]? = some { place with announced := n + i + 1 } := by
  simp [announcedFrom, List.getElem?_zipIdx, h]

section
variable {l : LineNo} {before rest : List Place} {place : Place} (hb : l ∉ before.map (fun q => q.line)) (hl : place.line = l)
include hb hl

theorem positionOf_behind : positionOf l (before ++ place :: rest) = before.length + 1 := by
  have pass : ∀ q ∈ before, decide (q.line ≠ l) = true := fun q hq => decide_eq_true fun h => hb (List.mem_map.2 ⟨q, hq, h⟩)
  rw [positionOf, List.takeWhile_append_of_pos pass, List.takeWhile_cons_of_neg (by simp [hl]), List.append_nil]

variable (hr : l ∉ rest.map (fun q => q.line))
include hr

theorem announce_one (n : Nat) : announce l n (before ++ place :: rest) = before ++ { place with announced := n } :: rest := by
  have keep : ∀ qs : List Place, l ∉ qs.map (fun q => q.line) →
      qs.map (fun q => if q.line = l then { q with announced := n } else q) = qs := fun qs hq =>
    (List.map_congr_left fun q hm => if_neg fun h => hq (List.mem_map.2 ⟨q, hm, h⟩)).trans (List.map_id qs)
  rw [announce, List.map_append, List.map_cons, keep before hb, keep rest hr, if_pos hl]

theorem any_unannounced (n : Nat) : (before ++ place :: rest).any (fun q => decide (q.line = l) && decide (q.announced ≠ n)) =
    decide (place.announced ≠ n) := by
  have none : ∀ qs : List Place, l ∉ qs.map (fun q => q.line) →
      qs.any (fun q => decide (q.line = l) && decide (q.announced ≠ n)) = false := fun qs hq => by
    rw [List.any_eq_false]
    exact fun q hm h => hq (List.mem_map.2 ⟨q, hm, of_decide_eq_true (Bool.and_eq_true_iff.1 h).1⟩)
  rw [List.any_append, List.any_cons, none before hb, none rest hr, Bool.false_or, Bool.or_false, decide_eq_true hl, Bool.true_and]

end

/-- What telling the positions of some places of a group leaves. -/
structure Told (g : GroupNo) (n : Nat) (places queue : List Place) (s t : State) : Prop where
  group : t.group g = { s.group g with queue := queue }
  groups : ∀ k, k ≠ g → t.group k = s.group k
  line : ∀ i place, places[i]? = some place →
    t.line place.line = (if place.announced ≠ n + i + 1 then requestMessage s place.line 5 (n + i + 1) else s).line place.line
  others : ∀ l, l ∉ places.map (fun q => q.line) → t.line l = s.line l
  messages : t.lc.messages = s.lc.messages
  cal : t.cal = s.cal

theorem Told.nil {g : GroupNo} {queue : List Place} {s : State} (h : (s.group g).queue = queue) (n : Nat) :
    Told g n [] queue s s where
  group := by rw [← h]
  groups := fun _ _ => rfl
  line := nofun
  others := fun _ _ => rfl
  messages := rfl
  cal := rfl

theorem Told.cons {g : GroupNo} {n : Nat} {place : Place} {places q r : List Place} {s t u : State} (h : Told g n [place] q s t)
    (k : Told g (n + 1) places r t u) (hl : place.line ∉ places.map (fun q => q.line)) : Told g n (place :: places) r s u where
  group := by rw [k.group, h.group]
  groups := fun j hj => (k.groups j hj).trans (h.groups j hj)
  line := fun i x hx => by
    cases i with
    | zero =>
      obtain rfl : place = x := Option.some.inj hx
      exact (k.others _ hl).trans (h.line 0 place rfl)
    | succ i =>
      have there : places[i]? = some x := hx
      have other : x.line ∉ [place].map (fun q => q.line) := fun hm => by
        have same : x.line = place.line := List.mem_singleton.1 hm
        exact hl (same ▸ List.mem_map.2 ⟨x, List.mem_of_getElem? there, rfl⟩)
      rw [k.line i x there, Nat.add_right_comm n 1 i, Nat.add_assoc n i 1]
      split
      · exact requestMessage_line_congr h.messages (h.others _ other) _ _
      · exact h.others _ other
  others := fun l hm => by
    rw [List.map_cons, List.mem_cons, not_or] at hm
    exact (k.others l hm.2).trans (h.others l (by simpa using hm.1))
  messages := k.messages.trans h.messages
  cal := k.cal.trans h.cal

section
variable {g : GroupNo}

/-- One caller is told its position, or has it already. -/
theorem announcePlace_told {s : State} {before rest : List Place} {place : Place}
    (hq : (s.group g).queue = before ++ place :: rest) (hb : place.line ∉ before.map (fun q => q.line))
    (hr : place.line ∉ rest.map (fun q => q.line)) :
    Told g before.length [place] (before ++ { place with announced := before.length + 1 } :: rest) s (announcePlace g s place.line) := by
  have single {t : State} (h : t.line place.line =
      (if place.announced ≠ before.length + 1 then requestMessage s place.line 5 (before.length + 1) else s).line place.line) :
      ∀ i x, [place][i]? = some x → t.line x.line =
        (if x.announced ≠ before.length + i + 1 then requestMessage s x.line 5 (before.length + i + 1) else s).line x.line := by
    intro i x hx
    obtain ⟨rfl, rfl⟩ : i = 0 ∧ x = place := by
      cases i with
      | zero => exact ⟨rfl, (Option.some.inj hx).symm⟩
      | succ i => cases hx
    exact h
  unfold announcePlace
  dsimp only
  rw [hq, positionOf_behind hb rfl, any_unannounced hb rfl hr]
  by_cases h : place.announced = before.length + 1
  · rw [if_neg (by simp [h]), ← h]
    exact ⟨by rw [← hq], fun _ _ => rfl, single (by rw [if_neg (not_not_intro h)]), fun _ _ => rfl, rfl, rfl⟩
  · rw [if_pos (decide_eq_true h)]
    refine ⟨?_, fun k hk => ?_, single (by rw [if_pos h]; rfl), fun l hl => ?_, ?_, rfl⟩
    · rw [requestMessage_group_of, modGroup_group, if_pos rfl, hq, announce_one hb rfl hr]
    · rw [requestMessage_group_of, modGroup_group, if_neg hk]
    · exact requestMessage_others _ (fun same => hl (List.mem_singleton.2 same)) _ _
    · exact (speaksOnly_request place.line s.lc 5 _).messages

/-- The pass from one place to the end of a queue. -/
theorem announcePlaces_told (rest : List Place) : ∀ {s : State} {before : List Place}, (s.group g).queue = before ++ rest →
    ((before ++ rest).map (fun q => q.line)).Nodup →
    Told g before.length rest (before ++ announcedFrom before.length rest) s
      ((rest.map (fun q => q.line)).foldl (announcePlace g) s) := by
  induction rest with
  | nil => intro s before hq _; exact .nil hq _
  | cons place rest ih =>
    intro s before hq once
    have parts := once
    rw [List.map_append, List.map_cons, List.nodup_append] at parts
    obtain ⟨-, ownOnce, apart⟩ := parts
    have hb : place.line ∉ before.map (fun q => q.line) := fun hm => apart _ hm _ List.mem_cons_self rfl
    have hr : place.line ∉ rest.map (fun q => q.line) := (List.nodup_cons.1 ownOnce).1
    have head := announcePlace_told hq hb hr
    have tail := ih (s := announcePlace g s place.line) (before := before ++ [{ place with announced := before.length + 1 }])
      (by rw [head.group, List.append_assoc, List.singleton_append])
      (by simpa using once)
    rw [List.length_append, List.length_singleton, List.append_assoc, List.singleton_append] at tail
    rw [List.map_cons, List.foldl_cons, announcedFrom_cons]
    exact head.cons tail hr

/-- The pass over a whole queue (R155). -/
theorem announceQueue_told {s : State} (once : ((s.group g).queue.map (fun q => q.line)).Nodup) :
    Told g 0 (s.group g).queue (announcedFrom 0 (s.group g).queue) s (announceQueue s g) :=
  announcePlaces_told (s.group g).queue (before := []) rfl once

end

/-- No line stands in two places, of one queue or of two. -/
structure QueuesApart (s : State) : Prop where
  once : ∀ g, ((s.group g).queue.map (fun q => q.line)).Nodup
  apart : ∀ g k l, l ∈ (s.group g).queue.map (fun q => q.line) → l ∈ (s.group k).queue.map (fun q => q.line) → g = k

theorem LinksLawful.queuesApart {s : State} (h : LinksLawful s) : QueuesApart s := by
  obtain ⟨-, -, ⟨ordered, held⟩, -⟩ := h
  refine ⟨fun g => (ordered g).1, fun g k l hg hk => ?_⟩
  obtain ⟨-, ofG⟩ := (held g l).1 hg
  obtain ⟨-, ofK⟩ := (held k l).1 hk
  exact Option.some.inj (ofG.symm.trans ofK)

theorem QueuesApart.of_lines {s t : State} (h : QueuesApart s)
    (same : ∀ g, (t.group g).queue.map (fun q => q.line) = (s.group g).queue.map (fun q => q.line)) : QueuesApart t :=
  ⟨fun g => by rw [same]; exact h.once g, fun g k l hg hk => h.apart g k l (same g ▸ hg) (same k ▸ hk)⟩

/-- What telling the positions in some groups' queues leaves (R155). -/
structure AllTold (gs : List GroupNo) (s t : State) : Prop where
  group : ∀ g, t.group g = if g ∈ gs then { s.group g with queue := announcedFrom 0 (s.group g).queue } else s.group g
  line : ∀ g i place, (s.group g).queue[i]? = some place → t.line place.line =
    (if g ∈ gs ∧ place.announced ≠ i + 1 then requestMessage s place.line 5 (i + 1) else s).line place.line
  messages : t.lc.messages = s.lc.messages
  cal : t.cal = s.cal

theorem Told.queueLines {g : GroupNo} {s t : State} {places : List Place} {n : Nat}
    (h : Told g n places (announcedFrom 0 (s.group g).queue) s t) (k : GroupNo) :
    (t.group k).queue.map (fun q => q.line) = (s.group k).queue.map (fun q => q.line) := by
  by_cases hk : k = g
  · subst hk
    rw [h.group]
    exact announcedFrom_lines _ 0
  · rw [h.groups k hk]

theorem announceQueues_told (gs : List GroupNo) : ∀ {s : State}, gs.Nodup → QueuesApart s → AllTold gs s (gs.foldl announceQueue s) := by
  induction gs with
  | nil => intro s _ _; exact ⟨fun g => by simp, fun g i place _ => by simp, rfl, rfl⟩
  | cons g gs ih =>
    intro s once apart
    obtain ⟨hg, honce⟩ := List.nodup_cons.1 once
    have head := announceQueue_told (apart.once g)
    have tail := ih honce (apart.of_lines head.queueLines)
    refine ⟨fun k => ?_, fun k i place hk => ?_, tail.messages.trans head.messages, tail.cal.trans head.cal⟩
    · rw [List.foldl_cons, tail.group k]
      by_cases same : k = g
      · subst same
        rw [if_neg hg, if_pos List.mem_cons_self, head.group]
      · rw [head.groups k same]
        simp [same]
    · rw [List.foldl_cons]
      by_cases same : k = g
      · subst same
        have there : (announcedFrom 0 (s.group k).queue)[i]? = some { place with announced := 0 + i + 1 } := getElem?_announcedFrom hk
        have later := tail.line k i _ (by rw [head.group]; exact there)
        rw [if_neg fun h => hg h.1] at later
        rw [later, head.line i place hk, Nat.zero_add]
        simp
      · have later := tail.line k i place (by rw [head.groups k same]; exact hk)
        have stays : (announceQueue s g).line place.line = s.line place.line := head.others _ fun hm =>
          same (apart.apart k g place.line (List.mem_map.2 ⟨place, List.mem_of_getElem? hk, rfl⟩) hm)
        rw [later]
        simp only [List.mem_cons, same, false_or]
        split
        · exact requestMessage_line_congr head.messages stays _ _
        · exact stays

end Sys2Proof.Machine
end

/-! # The groups and their waiting lines at a second event (O59) -/
section
namespace Sys2Proof.Machine

/-! ## Lines that wait, and nothing due -/

/-- A WAITING session within its grace, with nothing about to run out. -/
structure Waits (r : LineRec) : Prop where
  phase : r.phase = .admitted .waiting
  ref : r.entryRef ≠ none
  grace : 0 < r.grace
  stageTimer : r.stageTimer ≠ some 0
  carrierHold : r.carrierHold = none
  exhaustion : r.exhaustion = none
  hours : r.hours = none

/-- The record of a waiting line once its timers have run. -/
def LineRec.waitTicked (r : LineRec) : LineRec := { r with stageTimer := r.stageTimer.map (fun n => n - 1) }

/-- The record of a waiting line once its second has been counted, within the grace (R124, R125). -/
def LineRec.waitCounted (r : LineRec) : LineRec :=
  { r with admittedSeconds := satSucc max24 r.admittedSeconds, grace := r.grace - 1 }

theorem tickLine_waits {r : LineRec} (h : Waits r) : tickLine r = r.waitTicked := by
  simp [tickLine, tickIf, tick, LineRec.waitTicked, Phase.stageTimerRuns, Phase.inCall, Phase.isAdmitted, h.phase, h.carrierHold,
    h.exhaustion, h.hours]

/-- Every line rests or waits, and no port is CALLING. -/
structure OnlyWaiting (s : State) : Prop where
  lines : ∀ l, Resting (s.line l) ∨ Waits (s.line l)
  ports : ∀ p, (s.port p).state ≠ .calling

section
variable {s : State} (h : OnlyWaiting s)
include h

theorem OnlyWaiting.timerOf_ne (x : Expiry) : timerOf s x ≠ some 0 := by
  cases x
  case callTimer p => simp [timerOf, h.ports p]
  all_goals
    rename_i l
    rcases h.lines l with (rests | rests) | waits
    · simp [timerOf, stageTimerIn, rests, Phase.inCall, Phase.isAdmitted]
    · simp [timerOf, stageTimerIn, rests, Phase.inCall, Phase.isAdmitted]
    · simp [timerOf, stageTimerIn, Phase.inCall, Phase.isAdmitted, waits.phase, waits.carrierHold, waits.exhaustion, waits.hours,
        waits.stageTimer]

theorem OnlyWaiting.takeOverdue : takeOverdue s = s := by
  refine List.foldl_fixed' (fun x => ?_) allExpiries
  have due : expiryDue s x = false := by simpa [expiryDue] using h.timerOf_ne x
  simp only [takeExpiry, due, Bool.false_eq_true, if_false]

end

/-! ## The parts of the event -/

theorem tickTimers_line (s : State) (l : LineNo) : (tickTimers s).line l = tickLine (s.line l) := by
  simp [tickTimers, State.line, LineCtl.line, Vector.get_eq_getElem]

theorem countCongestion_group (s : State) (g : GroupNo) : (countCongestion s).group g = countLevel (s.group g) := by
  simp [countCongestion, State.group, Vector.get_eq_getElem]

/-- Only the lines' records differ. -/
def LinesOnly (s t : State) : Prop := t = { s with lc := { s.lc with lines := t.lc.lines } }

theorem linesOnly_modLine (s : State) (l : LineNo) (f : LineRec → LineRec) : LinesOnly s (s.modLine l f) := rfl

theorem LinesOnly.trans {s t u : State} (h : LinesOnly s t) (k : LinesOnly t u) : LinesOnly s u := by
  unfold LinesOnly at h k ⊢
  rw [k, h]

/-- A step of the Meter within the grace of a waiting session (R124, R125). -/
theorem meterStep_grace {s : State} {l : LineNo} (hp : (s.line l).phase = .admitted .waiting) (ref : (s.line l).entryRef ≠ none)
    (grace : 0 < (s.line l).grace) (co : EndedSecond) (v : View) : meterStep co v s l = s.modLine l LineRec.waitCounted := by
  obtain ⟨e, he⟩ := Option.ne_none_iff_exists'.1 ref
  have charged : chargeSecond s v l e .waiting = s.modLine l LineRec.waitCounted := by
    simp only [chargeSecond, countSecond, stageConnected, Bool.false_eq_true, if_false, grace, if_true, modLine_modLine]
    rfl
  simp only [meterStep, hp, he, charged]
  exact meterAction_unchanged co rfl

/-- The steps of waiting sessions, each on its own line. -/
theorem meterSteps_grace (v : View) (ls : List LineNo) : ∀ {s : State}, ls.Nodup →
    (∀ l ∈ ls, (s.line l).phase = .admitted .waiting ∧ (s.line l).entryRef ≠ none ∧ 0 < (s.line l).grace) →
    LinesOnly s (meterSteps v ls s) ∧
      ∀ l, (meterSteps v ls s).line l = if l ∈ ls then (s.line l).waitCounted else s.line l := by
  induction ls with
  | nil => intro s _ _; exact ⟨rfl, fun l => by simp [meterSteps]⟩
  | cons k ls ih =>
    intro s once waits
    obtain ⟨hk, honce⟩ := List.nodup_cons.1 once
    obtain ⟨hp, ref, grace⟩ := waits k List.mem_cons_self
    have other : ∀ l, l ≠ k → (s.modLine k LineRec.waitCounted).line l = s.line l := fun l hl => by rw [modLine_line, if_neg hl]
    have later : ∀ l ∈ ls, l ≠ k := fun l hl same => hk (same ▸ hl)
    obtain ⟨only, lines⟩ := ih (s := s.modLine k LineRec.waitCounted) honce fun l hl => by
      rw [other l (later l hl)]
      exact waits l (List.mem_cons_of_mem k hl)
    rw [meterSteps, meterStep_grace hp ref grace]
    refine ⟨(linesOnly_modLine s k _).trans only, fun l => ?_⟩
    rw [lines]
    by_cases same : l = k
    · subst same
      rw [if_neg hk, if_pos List.mem_cons_self, modLine_line, if_pos rfl]
    · rw [other l same]
      simp only [List.mem_cons, same, false_or]

/-- A band edge at which every class may go on. -/
theorem takeBandEdge_allowed {s : State} (lines : ∀ l, (s.line l).phase.isAdmitted = true → (s.line l).hours = none)
    (allowed : ∀ c, (s.policy c).allows s.cal.view.band = true) : takeBandEdge s = s := by
  unfold takeBandEdge
  split
  · refine List.foldl_fixed' (fun l => ?_) allLines
    cases ha : (s.line l).phase.isAdmitted with
    | false => exact judgeHours_not_admitted ha _
    | true =>
      simp only [judgeHours, ha, allowed, if_true]
      exact modLine_self (by rw [← lines l ha])
  · rfl

/-- The tariff set in force after a second event is one of the two before it (R118). -/
theorem secondEvent_active_cases (c : Calendar) : c.secondEvent.active = c.active ∨ c.secondEvent.active = c.pendingSet := by
  unfold Calendar.secondEvent Calendar.advance
  split
  · split <;> exact .inr rfl
  · split <;> exact .inl rfl

theorem countLevel_eq (x : GroupRec) : countLevel x = { x with
    congestionCount := if x.congestionMode = .level ∧ x.congestionThreshold ≤ x.queue.length ∧ x.congestionCount < 16777215 then
      x.congestionCount + 1 else x.congestionCount } := by
  unfold countLevel satSucc
  by_cases full : x.congestionMode = .level ∧ x.congestionThreshold ≤ x.queue.length
  · obtain ⟨level, reached⟩ := full
    simp only [level, reached, true_and, and_self, if_true]
  · have short : ¬(x.congestionMode = .level ∧ x.congestionThreshold ≤ x.queue.length ∧ x.congestionCount < 16777215) :=
      fun k => full ⟨k.1, k.2.1⟩
    rw [if_neg full, if_neg short]

/-! ## The whole event -/

/-- The state at which the Meter takes its steps: the timers have run, the second is latched and congestion counted. -/
def State.secondBegun (s : State) : State := countCongestion ((tickTimers s).withCal s.cal.secondEvent)

theorem secondBegun_line (s : State) (l : LineNo) : s.secondBegun.line l = tickLine (s.line l) := tickTimers_line s l

theorem secondBegun_group (s : State) (g : GroupNo) : s.secondBegun.group g = countLevel (s.group g) :=
  countCongestion_group ((tickTimers s).withCal s.cal.secondEvent) g

/-- The state the Meter's steps leave, before the minute event. -/
def State.secondCounted (s : State) : State := meterSteps s.secondBegun.cal.prevView s.secondBegun.owedSteps s.secondBegun

/-- What the event leaves ahead of a minute event, while lines wait. -/
structure CountedWhileWaiting (s t : State) : Prop where
  cal : t.cal = s.cal.secondEvent
  messages : t.lc.messages = s.lc.messages
  group : ∀ g, t.group g = countLevel (s.group g)
  rests : ∀ l, Resting (s.line l) → t.line l = s.line l
  waits : ∀ l, Waits (s.line l) → t.line l = (s.line l).waitTicked.waitCounted

section
variable {s : State} (h : OnlyWaiting s)
include h

theorem OnlyWaiting.mem_owedSteps (l : LineNo) : l ∈ s.secondBegun.owedSteps ↔ Waits (s.line l) := by
  have admitted : l ∈ s.secondBegun.owedSteps ↔ (tickLine (s.line l)).phase.isAdmitted = true := by
    rw [State.owedSteps, List.mem_filter, secondBegun_line]
    simp only [mem_allLines, true_and]
  rw [admitted]
  rcases h.lines l with rests | waits
  · have out := rests.not_admitted
    rw [tickLine_resting rests]
    refine ⟨fun within => ?_, fun waits => ?_⟩
    · rw [out] at within; cases within
    · rw [waits.phase] at out; cases out
  · rw [tickLine_waits waits]
    exact ⟨fun _ => waits, fun _ => by show (s.line l).phase.isAdmitted = true; rw [waits.phase]; rfl⟩

theorem OnlyWaiting.secondCounted : CountedWhileWaiting s s.secondCounted := by
  obtain ⟨only, lines⟩ := meterSteps_grace s.secondBegun.cal.prevView s.secondBegun.owedSteps (s := s.secondBegun)
    (allLines_nodup.filter _) (fun l hl => by
      have waits := (h.mem_owedSteps l).1 hl
      rw [secondBegun_line, tickLine_waits waits]
      exact ⟨waits.phase, waits.ref, waits.grace⟩)
  have same : s.secondCounted = { s.secondBegun with lc := { s.secondBegun.lc with lines := s.secondCounted.lc.lines } } := only
  refine ⟨by rw [same]; rfl, by rw [same]; rfl, fun g => ?_, fun l rests => ?_, fun l waits => ?_⟩
  · rw [same]
    exact secondBegun_group s g
  · have out : l ∉ s.secondBegun.owedSteps := fun hl => by
      have phase := ((h.mem_owedSteps l).1 hl).phase
      rcases rests with rests | rests <;> cases rests.symm.trans phase
    rw [State.secondCounted, lines, if_neg out, secondBegun_line, tickLine_resting rests]
  · rw [State.secondCounted, lines, if_pos ((h.mem_owedSteps l).2 waits), secondBegun_line, tickLine_waits waits]

/-- No line is told of its hours where every class may use every band. -/
theorem OnlyWaiting.takeBandEdge
    (allowed : ∀ (c : ClassNo) (b : Band), (s.cal.active.policies.get c).allowedBands.getLsbD b.val = true ∧
      (s.cal.pendingSet.policies.get c).allowedBands.getLsbD b.val = true) :
    takeBandEdge s.secondCounted = s.secondCounted := by
  have counted := h.secondCounted
  refine takeBandEdge_allowed (fun l admitted => ?_) fun c => ?_
  · rcases h.lines l with rests | waits
    · rw [counted.rests l rests, rests.not_admitted] at admitted
      cases admitted
    · rw [counted.waits l waits]
      exact waits.hours
  · rw [State.policy, counted.cal, ClassPolicy.allows]
    rcases secondEvent_active_cases s.cal with active | active <;> rw [active]
    · exact (allowed c _).1
    · exact (allowed c _).2

theorem OnlyWaiting.secondEvent
    (allowed : ∀ (c : ClassNo) (b : Band), (s.cal.active.policies.get c).allowedBands.getLsbD b.val = true ∧
      (s.cal.pendingSet.policies.get c).allowedBands.getLsbD b.val = true) :
    secondEvent {} s = if s.cal.minuteNext then minuteEvent s.secondCounted else s.secondCounted := by
  have ticked : ∀ l, (((tickTimers s).withCal s.cal.secondEvent).line l).phase ≠ .admitted .connected := fun l => by
    rw [withCal_line, tickTimers_line]
    rcases h.lines l with rests | waits
    · rw [tickLine_resting rests]
      exact rests.not_connected
    · rw [tickLine_waits waits]
      exact fun connected => nomatch waits.phase.symm.trans connected
  have early : takeEarly [] (tickTimers (Machine.takeOverdue s)) = tickTimers s := by rw [h.takeOverdue]; rfl
  have idle : allLines.foldl countIdle ((tickTimers s).withCal s.cal.secondEvent) = (tickTimers s).withCal s.cal.secondEvent :=
    List.foldl_fixed' (fun l => countIdle_not_connected (ticked l)) allLines
  have latched : latchSecond (tickTimers s) = (tickTimers s).withCal s.cal.secondEvent := rfl
  unfold Machine.secondEvent
  dsimp only
  rw [early, latched, idle]
  show (if s.cal.minuteNext then minuteEvent (Machine.takeBandEdge s.secondCounted) else Machine.takeBandEdge s.secondCounted) = _
  rw [h.takeBandEdge allowed]

end

theorem flushEntries_group (s : State) (g : GroupNo) : (flushEntries s).group g = s.group g := by
  obtain ⟨-, -, oat, flushed⟩ := flushEntries_spec s
  rw [flushed]
  rfl

theorem flushEntries_line (s : State) (l : LineNo) : (flushEntries s).line l = s.line l := by
  obtain ⟨-, -, oat, flushed⟩ := flushEntries_spec s
  rw [flushed]
  rfl

/-- The minute event changes queues, and the records of the lines told, as the announcements do (R155). -/
theorem minuteEvent_told {s : State} (apart : QueuesApart s) :
    (∀ g, (minuteEvent s).group g = { s.group g with queue := announcedFrom 0 (s.group g).queue }) ∧
      ∀ g i place, (s.group g).queue[i]? = some place → (minuteEvent s).line place.line =
        (if place.announced ≠ i + 1 then requestMessage s place.line 5 (i + 1) else s).line place.line := by
  have told := announceQueues_told allGroups (List.nodup_finRange 6) apart
  have every : ∀ g, g ∈ allGroups := List.mem_finRange
  have kept : (∀ g, (minuteEvent s).group g = (allGroups.foldl announceQueue s).group g) ∧
      ∀ l, (minuteEvent s).line l = (allGroups.foldl announceQueue s).line l := by
    unfold minuteEvent
    dsimp only
    split
    · exact ⟨flushEntries_group _, flushEntries_line _⟩
    · exact ⟨fun _ => rfl, fun _ => rfl⟩
  refine ⟨fun g => ?_, fun g i place hi => ?_⟩
  · rw [kept.1, told.group, if_pos (every g)]
  · rw [kept.2, told.line g i place hi]
    simp only [every g, true_and]

theorem LinksLawful.phase_of_place {s : State} (h : LinksLawful s) {g : GroupNo} {i : Nat} {place : Place}
    (hi : (s.group g).queue[i]? = some place) : (s.line place.line).phase = .admitted .waiting := by
  obtain ⟨-, -, ⟨-, held⟩, -⟩ := h
  exact ((held g place.line).1 (List.mem_map.2 ⟨place, List.mem_of_getElem? hi, rfl⟩)).1

/-- Settles O59. -/
theorem groupsAtSecondEvents : Obligations.GroupsAtSecondEvents := by
  unfold Obligations.GroupsAtSecondEvents
  intro s lawful _ second ports lines allowed
  have only : OnlyWaiting s := ⟨fun l => by
    rcases lines l with idle | down | ⟨phase, ref, grace, timer, hold, exhaustion, hours⟩
    · exact .inl (.inl idle)
    · exact .inl (.inr down)
    · exact .inr ⟨phase, ref, grace, timer, hold, exhaustion, hours⟩, ports⟩
  have counted := only.secondCounted
  have minute : s.cal.minuteNext = true ↔ s.cal.second = 59 := by
    rw [Calendar.minuteNext, decide_eq_true_iff]
    omega
  have event : exec (.secondEvent {}) s = .next (secondEvent {} s) := rfl
  refine ⟨_, event, ?_⟩
  rw [only.secondEvent allowed]
  dsimp only
  have apart : QueuesApart s.secondCounted := lawful.queuesApart.of_lines fun g => by rw [counted.group, countLevel_eq]
  have waiting : ∀ g i (place : Place), (s.group g).queue[i]? = some place → Waits (s.line place.line) := fun g i place hi => by
    have phase := lawful.phase_of_place hi
    rcases only.lines place.line with (rests | rests) | waits
    · cases rests.symm.trans phase
    · cases rests.symm.trans phase
    · exact waits
  have waited : ∀ g i (place : Place), (s.group g).queue[i]? = some place → s.secondCounted.line place.line =
      (s.modLine place.line (fun r => r.waitTicked.waitCounted)).line place.line := fun g i place hi => by
    rw [counted.waits _ (waiting g i place hi), modLine_line, if_pos rfl]
  by_cases last : s.cal.second = 59
  · obtain ⟨groups, told⟩ := minuteEvent_told apart
    rw [if_pos (minute.2 last)]
    refine ⟨fun g => ?_, fun g i place hi => ?_⟩
    · rw [groups, counted.group, countLevel_eq, if_pos last]
      rfl
    · rw [told g i place (by rw [counted.group, countLevel_eq]; exact hi)]
      simp only [last, true_and]
      split
      · exact requestMessage_line_congr (t := s.modLine place.line (fun r => r.waitTicked.waitCounted)) counted.messages
          (waited g i place hi) _ _
      · exact waited g i place hi
  · rw [if_neg (mt minute.1 last)]
    refine ⟨fun g => ?_, fun g i place hi => ?_⟩
    · rw [counted.group, countLevel_eq, if_neg last]
    · rw [if_neg fun h => last h.1]
      exact waited g i place hi

end Sys2Proof.Machine
end

/-! # What only the buses and the second event change (O9)

The carrier and host ready flags and the calendar, taken together: one equation for each operation says that it keeps them. -/
section
namespace Sys2Proof.Machine

/-- What the line units and the ports signal, and the calendar. -/
structure Signals where
  carrier : LineNo → Bool
  hostReady : PortNo → Bool
  cal : Calendar

def State.signals (s : State) : Signals where
  carrier := fun l => (s.line l).carrier
  hostReady := fun p => (s.port p).hostReady
  cal := s.cal

/-! ## The records -/

theorem signals_lines {s : State} {f : LineCtl → LineCtl} (h : ∀ k, ((f s.lc).line k).carrier = (s.line k).carrier) :
    (s.onLines f).signals = s.signals :=
  congrArg (fun c => { s.signals with carrier := c }) (funext h)

@[simp] theorem signals_modLine (s : State) (l : LineNo) {f : LineRec → LineRec} (h : ∀ r, (f r).carrier = r.carrier) :
    (s.modLine l f).signals = s.signals := by
  refine signals_lines fun k => ?_
  rw [ctl_modLine_line]
  split
  · subst_vars; exact h _
  · rfl

theorem signals_speaks {s : State} {f : LineCtl → LineCtl} {l : LineNo} (h : SpeaksOnly l s.lc (f s.lc)) :
    (s.onLines f).signals = s.signals := by
  refine signals_lines fun k => ?_
  by_cases hk : k = l
  · subst hk
    obtain ⟨_, _, _, _, _, _, own⟩ := h.line
    rw [own]
    rfl
  · rw [h.others k hk]
    rfl

@[simp] theorem signals_modPort (s : State) (p : PortNo) {f : PortRec → PortRec} (h : ∀ x, (f x).hostReady = x.hostReady) :
    (s.modPort p f).signals = s.signals := by
  refine congrArg (fun c => { s.signals with hostReady := c }) (funext fun k => ?_)
  rw [modPort_port]
  split
  · subst_vars; exact h _
  · rfl

@[simp] theorem signals_issuePort (s : State) (c : PortCmd) : (s.issuePort c).signals = s.signals := rfl
@[simp] theorem signals_modGroup (s : State) (g : GroupNo) (f : GroupRec → GroupRec) : (s.modGroup g f).signals = s.signals := rfl
@[simp] theorem signals_setEntry (s : State) (e : EntryNo) (x : Option OatEntry) : (s.setEntry e x).signals = s.signals := rfl
@[simp] theorem signals_modEntry (s : State) (e : EntryNo) (f : OatEntry → OatEntry) : (s.modEntry e f).signals = s.signals := rfl
@[simp] theorem signals_modWatch (s : State) (w : WatchNo) (f : Watch → Watch) : (s.modWatch w f).signals = s.signals := rfl
@[simp] theorem signals_onAttention (s : State) (f : Attention → Attention) : (s.onAttention f).signals = s.signals := rfl
@[simp] theorem signals_onCtl (s : State) (f : StoreCtl → StoreCtl) : (s.onCtl f).signals = s.signals := rfl
@[simp] theorem signals_onSup (s : State) (f : SupPort → SupPort) : (s.onSup f).signals = s.signals := rfl
@[simp] theorem signals_ctl (s : State) (c : StoreCtl) : ({ s with ctl := c } : State).signals = s.signals := rfl
@[simp] theorem signals_store (s : State) (m : List Host.Cell) : ({ s with store := m } : State).signals = s.signals := rfl
@[simp] theorem signals_oat (s : State) (t : OatCtl) : ({ s with oat := t } : State).signals = s.signals := rfl
@[simp] theorem signals_portBus (s : State) (b : List PortCmd) :
    ({ s with pa := { s.pa with bus := b } } : State).signals = s.signals := rfl
@[simp] theorem signals_writeSlot (s : State) (o : WriteOutcome) (slot : Nat) (bytes : List Byte) :
    (s.writeSlot o slot bytes).signals = s.signals := signals_store s _
@[simp] theorem signals_respond (s : State) (c : Code) (clamped : Bool) (result : List Byte) :
    (respond s c clamped result).signals = s.signals := rfl
@[simp] theorem signals_lineBus (s : State) (f : LineCtl → List LineCmd) :
    (s.onLines (fun c => { c with bus := f c })).signals = s.signals := rfl
@[simp] theorem signals_lineParams (s : State) (f : LineCtl → LineParams) :
    (s.onLines (fun c => { c with params := f c })).signals = s.signals := rfl

@[simp] theorem signals_ite {c : Prop} [Decidable c] (s t : State) :
    (if c then s else t).signals = if c then s.signals else t.signals := apply_ite State.signals c s t

theorem signals_foldl {α : Type} {f : State → α → State} (h : ∀ s a, (f s a).signals = s.signals) (xs : List α) (s : State) :
    (xs.foldl f s).signals = s.signals := by
  induction xs generalizing s with
  | nil => rfl
  | cons x xs ih => rw [List.foldl_cons, ih, h]

/-! ## Messages, attention and watches -/

@[simp] theorem signals_requestMessage (s : State) (l : LineNo) (n : MsgNo) (k : Nat) :
    (requestMessage s l n k).signals = s.signals := signals_speaks (speaksOnly_request l s.lc n k)

@[simp] theorem signals_echo (s : State) (l : LineNo) (c : Byte) : (s.onLines (fun x => x.echo l c)).signals = s.signals := by
  refine signals_lines fun k => ?_
  unfold LineCtl.echo
  split
  · rw [ctl_modLine_line]
    split
    · subst_vars; rfl
    · rfl
  · exact congrArg (fun x : Signals => x.carrier k) 
      (signals_speaks (s := s) (f := fun x => x.transmit l c) (speaksOnly_transmit l s.lc c))

@[simp] theorem signals_release (s : State) (l : LineNo) : (s.onLines (fun c => c.release l)).signals = s.signals :=
  signals_speaks (speaksOnly_release l s.lc)

@[simp] theorem signals_issue (s : State) (c : LineCmd) : (s.onLines (fun x => x.issue c)).signals = s.signals := rfl

@[simp] theorem signals_requestGoodbye (s : State) (l : LineNo) (n : Nat) :
    (s.onLines (fun c => c.requestGoodbye l n)).signals = s.signals := signals_speaks (speaksOnly_requestGoodbye l s.lc n)

@[simp] theorem signals_boundary (s : State) (l : LineNo) : (s.onLines (fun c => c.boundary l)).signals = s.signals :=
  signals_speaks (speaksOnly_boundary l s.lc)

@[simp] theorem signals_txDone (s : State) (l : LineNo) : (txDone s l).signals = s.signals :=
  signals_speaks (f := fun c => c.txDone l) <| by
    have free : SpeaksOnly l s.lc (s.lc.modLine l fun r => { r with txBusy := false }) :=
      speaksOnly_modLine ⟨_, _, _, _, _, _, rfl⟩
    unfold LineCtl.txDone
    dsimp only
    split
    · split
      · exact free.trans (speaksOnly_boundary l _)
      · exact free
    · exact .refl l _

@[simp] theorem signals_raiseAccount (s : State) (n : Nat) (cause : BitVec 3) : (raiseAccount s n cause).signals = s.signals := rfl

@[simp] theorem signals_storeFault (s : State) (n : Option Nat) : (storeFault s n).signals = s.signals := by
  cases n <;> rfl

@[simp] theorem signals_examineWatches (s : State) (k : WatchKind) (n : Nat) (l : LineNo) (held : Bool) :
    (examineWatches s k n l held).signals = s.signals := by
  refine signals_foldl (fun s w => ?_) _ s
  simp [hitWatch, raiseNote]

/-! ## The table of open accounts and the Meter -/

@[simp] theorem signals_queueEntry (s : State) (e : EntryNo) : (queueEntry s e).signals = s.signals := by
  unfold queueEntry
  split <;> rfl

@[simp] theorem signals_flushEntries (s : State) : (flushEntries s).signals = s.signals := by
  refine signals_foldl (fun s e => ?_) _ s
  split <;> simp

@[simp] theorem signals_freeEntry (s : State) (e : EntryNo) : (freeEntry s e).signals = s.signals := rfl

@[simp] theorem signals_leaveEntry (s : State) (e : EntryNo) : (leaveEntry s e).signals = s.signals := by
  unfold leaveEntry
  split <;> simp

@[simp] theorem signals_postCredit (s : State) (e : EntryNo) (l : LineNo) (c : Category) :
    (postCredit s e l c).signals = s.signals := by simp [postCredit]

@[simp] theorem signals_postCredits (s : State) (e : EntryNo) (l : LineNo) (c : Category) (n : Nat) :
    (postCredits s e l c n).signals = s.signals := by
  induction n generalizing s with
  | zero => rfl
  | succ n ih => rw [postCredits, ih, signals_postCredit]

@[simp] theorem signals_countSecond (s : State) (l : LineNo) (e : EntryNo) (st : AdmittedStage) :
    (countSecond s l e st).signals = s.signals := by simp [countSecond]

@[simp] theorem signals_chargeSecond (s : State) (v : View) (l : LineNo) (e : EntryNo) (st : AdmittedStage) :
    (chargeSecond s v l e st).signals = s.signals := by
  unfold chargeSecond
  dsimp only
  split
  · simp
  · split <;> simp [chargeCategory]

section
variable {endNow : State → LineNo → State} (hend : ∀ s l, (endNow s l).signals = s.signals)
include hend

theorem signals_beginExhaustion (s : State) (e : EntryNo) : (beginExhaustion endNow s e).signals = s.signals := by
  refine signals_foldl (fun s l => ?_) _ s
  split <;> simp [hend]

/-- The Meter's action keeps the signals if ending a session does. -/
theorem signals_creditAction (s : State) (e : EntryNo) (old : CreditState) : (creditAction endNow s e old).signals = s.signals := by
  have low : ∀ s, (warnLow s e).signals = s.signals := fun s => signals_foldl (fun s l => by simp) _ s
  have cancelled : (cancelExhaustion s e).signals = s.signals := signals_foldl (fun s l => by simp) _ s
  unfold creditAction
  split
  · rfl
  · split <;> simp [low, cancelled, signals_beginExhaustion hend]

end

/-! ## Ports and queues -/

@[simp] theorem signals_emptySlots (s : State) (l : LineNo) : (emptySlots s l).signals = s.signals :=
  signals_modLine s l (f := fun r => { r with lineToPort := none, portToLine := none }) fun _ => rfl

@[simp] theorem signals_offerPort (s : State) (p : PortNo) (l : LineNo) (st : AdmittedStage) :
    (offerPort s p l st).signals = s.signals := by simp [offerPort]

@[simp] theorem signals_callPort (s : State) (p : PortNo) (l : LineNo) : (callPort s p l).signals = s.signals :=
  signals_offerPort s p l _

@[simp] theorem signals_removePlace (s : State) (g : GroupNo) (l : LineNo) : (removePlace s g l).signals = s.signals := rfl

@[simp] theorem signals_waitInQueue (s : State) (g : GroupNo) (l : LineNo) (ins : Place → List Place → List Place) :
    (waitInQueue s g l ins).signals = s.signals := by simp [waitInQueue]

@[simp] theorem signals_serveQueue (s : State) (p : PortNo) : (serveQueue s p).signals = s.signals := by
  unfold serveQueue
  split
  · rfl
  · split
    · split <;> simp
    · rfl

@[simp] theorem signals_portByReady (s : State) (p : PortNo) : (portByReady s p).signals = s.signals := by simp [portByReady]

@[simp] theorem signals_hangUp (s : State) (p : PortNo) : (hangUp s p).signals = s.signals := by simp [hangUp]

@[simp] theorem signals_releasePort (s : State) (p : PortNo) (l : LineNo) (out : Bool) :
    (releasePort s p l out).signals = s.signals := by simp [releasePort]

@[simp] theorem signals_enterSelecting (s : State) (l : LineNo) : (enterSelecting s l).signals = s.signals := by
  simp [enterSelecting]

/-! ## Settlement and the end of a call -/

@[simp] theorem signals_writeSummary (s : State) (l : LineNo) (cause : EndCause) (admitted : Bool) :
    (writeSummary s l cause admitted).signals = s.signals := by simp [writeSummary]

@[simp] theorem signals_dropHold (s : State) (l : LineNo) : (dropHold s l).signals = s.signals := rfl

@[simp] theorem signals_withdraw (s : State) (l : LineNo) : (withdraw s l).signals = s.signals := rfl

@[simp] theorem signals_dropCounts (s : State) (l : LineNo) : (dropCounts s l).signals = s.signals := by
  simp [dropCounts]

@[simp] theorem signals_settleClaims (s : State) (l : LineNo) (out : Bool) : (settleClaims s l out).signals = s.signals := by
  unfold settleClaims
  dsimp only
  cases (s.line l).port <;> split <;> simp

@[simp] theorem signals_enterClosing (s : State) (l : LineNo) (n : Nat) : (enterClosing s l n).signals = s.signals := by
  simp [enterClosing]

section
variable {act : State → EntryNo → CreditState → State} (hact : ∀ s e c, (act s e c).signals = s.signals)
include hact

theorem signals_closeMeter (s : State) (l : LineNo) (e : EntryNo) (st : AdmittedStage) (ended : Option View) :
    (closeMeter act s l e st ended).signals = s.signals := by
  unfold closeMeter
  refine (signals_modLine _ l ?_).trans ?_
  · exact fun _ => rfl
  cases ended with
  | none =>
    dsimp only
    split
    · split <;> simp [hact]
    · rfl
  | some v =>
    dsimp only
    split
    · split <;> simp [hact]
    · simp [hact]

theorem signals_settleSession (s : State) (l : LineNo) (st : AdmittedStage) (ended : Option View) :
    (settleSession act s l st ended).signals = s.signals := by
  unfold settleSession
  cases (s.line l).entryRef <;> cases (s.line l).account <;> simp [signals_closeMeter hact]

theorem signals_settle (s : State) (l : LineNo) (cause : EndCause) (out : Bool) (ended : Option View) :
    (settle act s l cause out ended).signals = s.signals := by
  have work : (settleWork act s l out ended).signals = s.signals := by
    unfold settleWork
    split <;> simp [signals_settleSession hact]
  simp [settle, work]

theorem signals_endCallWith (s : State) (l : LineNo) (cause : EndCause) (out : Bool) (ended : Option View) :
    (endCallWith act s l cause out ended).signals = s.signals := by simp [endCallWith, signals_settle hact]

end

@[simp] theorem signals_meterAction (co : EndedSecond) (s : State) (e : EntryNo) (old : CreditState) :
    (meterAction co s e old).signals = s.signals :=
  signals_creditAction (fun s l => signals_endCallWith (fun _ _ _ => rfl) s l _ _ _) s e old

@[simp] theorem signals_endCall (co : EndedSecond) (s : State) (l : LineNo) (cause : EndCause) (out : Bool) :
    (endCall co s l cause out).signals = s.signals := signals_endCallWith (signals_meterAction co) s l cause out _

/-! ## Sign-on -/

@[simp] theorem signals_enterAccountEntry (s : State) (l : LineNo) : (enterAccountEntry s l).signals = s.signals := by
  simp [enterAccountEntry]

@[simp] theorem signals_attemptFailed (co : EndedSecond) (s : State) (l : LineNo) (reason : Nat) :
    (attemptFailed co s l reason).signals = s.signals := by simp [attemptFailed]

@[simp] theorem signals_leaveHeld (s : State) (l : LineNo) : (leaveHeld s l).signals = s.signals := by simp [leaveHeld]

@[simp] theorem signals_handOver (s : State) (l : LineNo) (st : SignOnStage) (n : Nat) (kind : SignOnKind) :
    (handOver s l st n kind).signals = s.signals := by
  have next : (s.modLine l fun r => { r with phase := .signon st, attempt := r.attempt + 1 }).signals = s.signals := by simp
  unfold handOver
  dsimp only
  split
  · exact next
  · simp

@[simp] theorem signals_accountChar (s : State) (l : LineNo) (c : Byte) : (accountChar s l c).signals = s.signals := by
  have ended : (endAccountEntry s l).signals = s.signals := by simp [endAccountEntry]
  simp [accountChar, ended]

@[simp] theorem signals_passwordEntryChar (s : State) (l : LineNo) (c : Byte) :
    (passwordEntryChar s l c).signals = s.signals := by
  have ended : (endPasswordEntry s l).signals = s.signals := by simp [endPasswordEntry]
  simp [passwordEntryChar, ended]

@[simp] theorem signals_signOnChar (s : State) (l : LineNo) (st : SignOnStage) (c : Byte) :
    (signOnChar s l st c).signals = s.signals := by cases st <;> simp [signOnChar]

@[simp] theorem signals_signOnBreak (s : State) (l : LineNo) (st : SignOnStage) :
    (signOnBreak s l st).signals = s.signals := by cases st <;> simp [signOnBreak]

@[simp] theorem signals_admitLine (s : State) (l : LineNo) (e : EntryNo) (grace : Nat) :
    (admitLine s l e grace).signals = s.signals := by simp [admitLine]

@[simp] theorem signals_enterHeld (s : State) (l : LineNo) : (enterHeld s l).signals = s.signals := by
  simp [enterHeld, raiseHold]

@[simp] theorem signals_takeResult (s : State) (op : SignOnOp) (r : SignOnResult) : (takeResult s op r).signals = s.signals := by
  have watched : (watchResult s op r).signals = s.signals := by
    unfold watchResult
    split <;> simp
  cases r <;> simp [takeResult, watched]

/-! ## Calls on a port -/

@[simp] theorem signals_retryCall (s : State) (l : LineNo) : (retryCall s l).signals = s.signals := by
  unfold retryCall
  dsimp only
  split
  · split
    · simp
    · split <;> simp
  · simp

@[simp] theorem signals_faultPort (s : State) (p : PortNo) (cause : FaultCause) : (faultPort s p cause).signals = s.signals := by
  simp [faultPort, raisePortFault]

@[simp] theorem signals_failCall (co : EndedSecond) (s : State) (p : PortNo) (cause : Option FaultCause) :
    (failCall co s p cause).signals = s.signals := by
  have failed : ∀ s l, (callFailed co s l).signals = s.signals := fun s l => by simp [callFailed]
  unfold failCall
  cases cause <;> cases (s.port p).line <;> simp [withdrawPort, failed]

@[simp] theorem signals_beginMove (s : State) (g : GroupNo) (l : LineNo) (q : PortNo) : (beginMove s g l q).signals = s.signals := by
  simp [beginMove, raiseFailoverSpent]

@[simp] theorem signals_losePort (s : State) (p : PortNo) : (losePort s p).signals = s.signals := by
  have parted : ∀ s g l, (lineLosesPort s g l).signals = s.signals := fun s g l => by
    unfold lineLosesPort
    dsimp only
    split <;> simp
  unfold losePort
  dsimp only
  split <;> simp [parted]

@[simp] theorem signals_connect (s : State) (p : PortNo) (l : LineNo) : (connect s p l).signals = s.signals := by simp [connect]

@[simp] theorem signals_completeMove (s : State) (p : PortNo) (l : LineNo) : (completeMove s p l).signals = s.signals := by
  simp [completeMove]

/-! ## The expiries -/

@[simp] theorem signals_leaveQueue (s : State) (l : LineNo) : (leaveQueue s l).signals = s.signals := by
  unfold leaveQueue
  split <;> simp

@[simp] theorem signals_resume (s : State) (l : LineNo) : (resume s l).signals = s.signals := by simp [resume]

@[simp] theorem signals_takeExpiry (co : EndedSecond) (s : State) (x : Expiry) : (takeExpiry co s x).signals = s.signals := by
  have taken : (expire co s x).signals = s.signals := by cases x <;> simp [expire, endGuard]
  simp [takeExpiry, taken]

/-! ## Events of the lines and the ports -/

theorem signals_lineEvent {f : State → LineNo → State} {n : Nat} {s : State} (h : ∀ l, (f s l).signals = s.signals) :
    (lineEvent n s f).signals = s.signals := by
  unfold lineEvent
  split
  · rfl
  · exact h _

@[simp] theorem signals_ring (s : State) (l : LineNo) : (ring s l).signals = s.signals := by
  have answered : (s.onLines fun c => (c.issue (.answer l)).modLine l (answeredLine c.params.answerLimit)).signals = s.signals :=
    signals_modLine (s.onLines fun c => c.issue (.answer l)) l (f := answeredLine s.lc.params.answerLimit) fun _ => rfl
  simp [ring, answered]

@[simp] theorem signals_beginSignOn (s : State) (l : LineNo) : (beginSignOn s l).signals = s.signals := by simp [beginSignOn]

@[simp] theorem signals_startCarrierHold (s : State) (l : LineNo) : (startCarrierHold s l).signals = s.signals := by
  unfold startCarrierHold
  split <;> simp

/-- CARRIER_ON keeps all but the carrier present flag of its line (R52). -/
theorem signals_carrierOn (s : State) (l : LineNo) :
    (carrierOn s l).signals = (s.modLine l fun r => { r with carrier := true }).signals := by
  unfold carrierOn
  dsimp only
  split <;> simp

theorem signals_carrierOff (s : State) (l : LineNo) :
    (carrierOff s l).signals = (s.modLine l fun r => { r with carrier := false }).signals := by
  unfold carrierOff
  dsimp only
  split <;> simp

@[simp] theorem signals_promptSelection (s : State) (l : LineNo) : (promptSelection s l).signals = s.signals := by
  simp [promptSelection]

@[simp] theorem signals_chooseGroup (s : State) (l : LineNo) (g : GroupNo) : (chooseGroup s l g).signals = s.signals := by
  unfold chooseGroup
  split
  · split <;> simp
  · simp

@[simp] theorem signals_activity (s : State) (l : LineNo) : (activity s l).signals = s.signals := by simp [activity]

@[simp] theorem signals_enterEscaped (s : State) (l : LineNo) : (enterEscaped s l).signals = s.signals := by simp [enterEscaped]

@[simp] theorem signals_forwardChar (s : State) (l : LineNo) (c : Byte) : (forwardChar s l c).signals = s.signals := by
  unfold forwardChar
  dsimp only
  split
  · simp
  · split <;> simp

@[simp] theorem signals_lineRxChar (s : State) (l : LineNo) (c : Byte) : (lineRxChar s l c).signals = s.signals := by
  have selecting : (selectingChar s l c).signals = s.signals := by
    unfold selectingChar
    split
    · simp
    · split <;> simp
  have admitted : ∀ st, (admittedChar s l st c).signals = s.signals := fun st => by
    cases st <;> simp [admittedChar, connectedChar, escapedChar, selecting]
  unfold lineRxChar
  split <;> simp [admitted]

@[simp] theorem signals_rxBreak (s : State) (l : LineNo) : (rxBreak s l).signals = s.signals := by
  have admitted : ∀ st, (admittedBreak s l st).signals = s.signals := fun st => by cases st <;> simp [admittedBreak]
  unfold rxBreak
  split <;> simp [admitted]

@[simp] theorem signals_lineCommandDone (s : State) : (lineCommandDone s).signals = s.signals := rfl

@[simp] theorem signals_lineCommandWithdrawn (s : State) : (lineCommandWithdrawn s).signals = s.signals := by
  unfold lineCommandWithdrawn
  split <;> simp

/-- HOST_READY_ON keeps all but the host ready flag of its port (R144). -/
theorem signals_hostReadyOn (s : State) (p : PortNo) :
    (hostReadyOn s p).signals = (s.modPort p fun x => { x with hostReady := true }).signals := by
  unfold hostReadyOn
  dsimp only
  split <;> simp

theorem signals_hostReadyOff (s : State) (p : PortNo) :
    (hostReadyOff s p).signals = (s.modPort p fun x => { x with hostReady := false }).signals := by
  unfold hostReadyOff
  dsimp only
  split <;> simp

@[simp] theorem signals_acceptPort (s : State) (p : PortNo) : (acceptPort s p).signals = s.signals := by
  have accepted : ∀ l, (acceptLine s p l).signals = s.signals := fun l => by
    unfold acceptLine
    split <;> simp
  unfold acceptPort
  split <;> simp [accepted]

@[simp] theorem signals_portRxChar (s : State) (p : PortNo) (c : Byte) : (portRxChar s p c).signals = s.signals := by
  have heard : ∀ l, (hostChar s l c).signals = s.signals := fun l => by
    unfold hostChar
    split
    · dsimp only
      split <;> simp
    · rfl
  unfold portRxChar
  split <;> simp [heard]

@[simp] theorem signals_hostDisconnect (s : State) (p : PortNo) : (hostDisconnect s p).signals = s.signals := by
  unfold hostDisconnect
  split <;> simp

@[simp] theorem signals_portCommandDone (s : State) : (portCommandDone s).signals = s.signals := by
  unfold portCommandDone
  dsimp only
  split
  · simp
  · rfl

end Sys2Proof.Machine
end

/-! # What the store operations, the second event and the requests keep of the signals (O9) -/
section
namespace Sys2Proof.Machine

/-! ## The store operations -/

@[simp] theorem signals_raiseLocked (s : State) (n : Nat) (a : Account) : (raiseLocked s n a).signals = s.signals := by
  simp [raiseLocked]

@[simp] theorem signals_admitOpen (s : State) (l : LineNo) (e : EntryNo) (x : OatEntry) :
    (admitOpen s l e x).1.signals = s.signals := by
  unfold admitOpen
  split <;> simp [joinEntry]

@[simp] theorem signals_admitClosed (s : State) (o : WriteOutcome) (l : LineNo) (n slot : Nat) (a : Account) :
    (admitClosed s o l n slot a).1.signals = s.signals := by
  unfold admitClosed
  split
  · rfl
  · rfl
  · dsimp only
    split <;> simp [createEntry]

@[simp] theorem signals_finishSignOn (s : State) (o : WriteOutcome) (op : SignOnOp) :
    (finishSignOn s o op).signals = s.signals := by
  have opened : ∀ e x, (signOnOpen s op e x).1.signals = s.signals := fun e x => by
    unfold signOnOpen
    split
    · unfold verifyOpen
      split
      · rfl
      · simp
      · split <;> simp
    · simp
  have closed : (signOnClosed s o op).1.signals = s.signals := by
    unfold signOnClosed
    split
    · simp
    · rfl
    · rfl
    · unfold verifyClosed
      split
      · rfl
      · simp [writeMismatch]
      · split <;> simp
    · simp
  have performed : (performSignOn s o op).1.signals = s.signals := by
    unfold performSignOn
    split
    · exact opened _ _
    · exact closed
  exact (signals_takeResult _ op _).trans performed

@[simp] theorem signals_beginWriteBack (s : State) (e : EntryNo) (rest : List EntryNo) :
    (beginWriteBack s e rest).signals = s.signals := by
  unfold beginWriteBack
  dsimp only
  split <;> simp

@[simp] theorem signals_markUncertain (s : State) : (markUncertain s).signals = s.signals := rfl

@[simp] theorem signals_finishWriteBack (s : State) (writes : List WriteOutcome) (e : EntryNo) (n : Nat) (slot : SlotNo)
    (a : Account) : (finishWriteBack s writes e n slot a).signals = s.signals := by
  have failed : ∀ t, (writeBackFailed t e n).signals = t.signals := fun t => by simp [writeBackFailed]
  have vacated : ∀ t o, (vacateSlot t o e n slot a).signals = t.signals := fun t o => by simp [vacateSlot, failed]
  have matched : ∀ t o, (writeBackMatched t o e n slot a).signals = t.signals := fun t o => by
    unfold writeBackMatched
    split <;> simp [vacated]
  simp [finishWriteBack, failed, matched]

@[simp] theorem signals_lookupFault (s : State) (n : Nat) (clamped : Bool) : (lookupFault s n clamped).signals = s.signals := by
  simp [lookupFault]

@[simp] theorem signals_editAccount (s : State) (o : WriteOutcome) (n : Nat) (clamped : Bool) (f : Account → Edit) :
    (editAccount s o n clamped f).signals = s.signals := by
  unfold editAccount
  split
  · simp [editOpen]
  · split <;> simp [editSlot]

@[simp] theorem signals_finishAttach (s : State) (writes : List WriteOutcome) (code clear : Nat) :
    (finishAttach s writes code clear).signals = s.signals := by
  have written : ∀ m c, ({ s with store := m, ctl := c } : State).signals = s.signals := fun _ _ => rfl
  simp only [finishAttach, signals_respond, written]

@[simp] theorem signals_addAccount (s : State) (o : WriteOutcome) (p : NewAccount) : (addAccount s o p).signals = s.signals := by
  unfold addAccount
  dsimp only
  split
  · simp
  · split
    · simp
    · split <;> simp [placeAccount]

@[simp] theorem signals_readAccount (s : State) (n : Nat) : (readAccount s n).signals = s.signals := by
  unfold readAccount
  split
  · simp
  · split <;> simp

@[simp] theorem signals_readAndClear (s : State) (o : WriteOutcome) (n : Nat) : (readAndClear s o n).signals = s.signals := by
  unfold readAndClear
  split
  · simp
  · split <;> simp

@[simp] theorem signals_replaceSlot (s : State) (o : WriteOutcome) (slot : Nat) (image : List Byte) :
    (replaceSlot s o slot image).signals = s.signals := by
  have written : (writeReplacement s o slot image).signals = s.signals := by simp [writeReplacement]
  unfold replaceSlot
  split
  · simp
  · split
    · exact written
    · split <;> simp [written]

@[simp] theorem signals_retire (s : State) (o : WriteOutcome) (n : Nat) : (retire s o n).signals = s.signals := by
  unfold retire
  split
  · simp [retireOpen]
  · split <;> simp

@[simp] theorem signals_flush (s : State) : (flush s).signals = s.signals := by simp [flush]

@[simp] theorem signals_discardOpen (s : State) (n : Nat) : (discardOpen s n).signals = s.signals := by
  unfold discardOpen
  split <;> simp

/-! ### RESTART -/

theorem signals_releaseLines (ls : List LineNo) (s : State) :
    (s.onLines fun c => ls.foldl releaseForRestart c).signals = s.signals := by
  refine signals_lines fun k => ?_
  rw [releaseLines_line]
  split
  · unfold LineRec.released
    split <;> rfl
  · rfl

@[simp] theorem signals_beginRestart (s : State) : (beginRestart s).signals = s.signals := by
  have settled : ∀ s l, (settleForRestart s l).signals = s.signals := fun s l => by
    simp [settleForRestart, signals_settle (signals_creditAction fun _ _ => rfl), restartAction]
  simp only [beginRestart, signals_flushEntries, signals_releaseLines, endCallsForRestart, signals_foldl settled,
    signals_lineParams]

@[simp] theorem signals_finishRestart (s : State) (writes : List WriteOutcome) (ended : Nat) :
    (finishRestart s writes ended).signals = s.signals := by
  have one : ∀ f e, (flushOne f e).state.signals = f.state.signals := fun f e => by
    unfold flushOne
    split
    · rfl
    · dsimp only
      split
      · split
        · unfold flushVacated
          dsimp only
          split <;> simp [Flush.keep, Flush.lose]
        · simp [Flush.keep]
      · simp [Flush.lose]
  have all : ∀ (es : List EntryNo) f, (es.foldl flushOne f).state.signals = f.state.signals := fun es => by
    induction es with
    | nil => exact fun _ => rfl
    | cons e es ih => exact fun f => (ih _).trans (one f e)
  exact all s.oat.writeBackList ⟨s, writes, 0, 0⟩

/-! ### The rotation and the completions -/

@[simp] theorem signals_performRequest (s : State) (writes : List WriteOutcome) (r : StoreReq) :
    (performRequest s writes r).signals = s.signals := by
  cases r <;> simp [performRequest, readSlots]

@[simp] theorem signals_rotationChoice (s : State) : (rotationChoice s).signals = s.signals := by
  have requested : ∀ t r, (startRequest t r).signals = t.signals := fun t r => by
    unfold startRequest
    split
    · simp [startAttach, State.inProgress, beginAttach]
    · simp [startRestart, State.inProgress]
    · simp [State.inProgress]
  have signed : ∀ t op, (startSignOn t op).signals = t.signals := fun t op => by simp [startSignOn, State.inProgress]
  have began : ∀ c t, beginClass s c = some t → t.signals = s.signals := fun c t h => by
    cases c <;> unfold beginClass at h <;> dsimp only at h <;> split at h <;> cases h <;>
      simp [requested, signed, setPointer]
  unfold rotationChoice
  split
  · rfl
  · dsimp only
    cases h : ((beginClass s s.ctl.rotation).or (beginClass s s.ctl.rotation.following)).or
        (beginClass s s.ctl.rotation.following.following) with
    | none => rfl
    | some t =>
      obtain h | ⟨_, h⟩ := Option.or_eq_some_iff.1 h
      · obtain h | ⟨_, h⟩ := Option.or_eq_some_iff.1 h
        · exact began _ t h
        · exact began _ t h
      · exact began _ t h

@[simp] theorem signals_storeOperationComplete (s : State) (writes : List WriteOutcome) :
    (storeOperationComplete s writes).signals = s.signals := by
  unfold storeOperationComplete
  split
  · rfl
  · rename_i op _
    cases op <;> simp [completeOperation]

/-! ## The second event -/

@[simp] theorem signals_tickTimers (s : State) : (tickTimers s).signals = s.signals := by
  have line : ∀ l, ((tickTimers s).line l).carrier = (s.line l).carrier := fun l => by
    simp [tickTimers, tickLine, State.line, LineCtl.line, Vector.get_eq_getElem]
  have port : ∀ p, ((tickTimers s).port p).hostReady = (s.port p).hostReady := fun p => by
    simp [tickTimers, tickPort, State.port, Vector.get_eq_getElem]
  exact congrArg₂ (fun c h => ({ carrier := c, hostReady := h, cal := s.cal } : Signals)) (funext line) (funext port)

@[simp] theorem signals_countIdle (s : State) (l : LineNo) : (countIdle s l).signals = s.signals := by simp [countIdle]

@[simp] theorem signals_countCongestion (s : State) : (countCongestion s).signals = s.signals := rfl

@[simp] theorem signals_meterStep (co : EndedSecond) (v : View) (s : State) (l : LineNo) :
    (meterStep co v s l).signals = s.signals := by
  unfold meterStep
  split <;> simp

@[simp] theorem signals_meterSteps (v : View) (ls : List LineNo) (s : State) : (meterSteps v ls s).signals = s.signals := by
  induction ls generalizing s with
  | nil => rfl
  | cons l ls ih => rw [meterSteps, ih, signals_meterStep]

@[simp] theorem signals_takeMoments (v : View) (ms : List SecondMoment) (owed : List LineNo) (s : State) :
    (takeMoments v owed ms s).signals = s.signals := by
  induction ms generalizing owed s with
  | nil => exact signals_meterSteps v owed s
  | cons m ms ih =>
    rw [takeMoments, ih]
    cases m <;> simp [takeMoment]

@[simp] theorem signals_takeBandEdge (s : State) : (takeBandEdge s).signals = s.signals := by
  have judged : ∀ b s l, (judgeHours b s l).signals = s.signals := fun b s l => by
    unfold judgeHours
    dsimp only
    split
    · split
      · simp
      · split <;> simp
    · rfl
  simp [takeBandEdge, signals_foldl (judged _)]

@[simp] theorem signals_minuteEvent (s : State) : (minuteEvent s).signals = s.signals := by
  have placed : ∀ g s l, (announcePlace g s l).signals = s.signals := fun g s l => by simp [announcePlace]
  have announced : ∀ s g, (announceQueue s g).signals = s.signals := fun s g => signals_foldl (placed g) _ s
  simp [minuteEvent, signals_foldl announced]

/-- A second event leaves what the buses signal, and the calendar takes its next second whatever the lines hold (R106). -/
theorem signals_secondEvent (order : SecondOrder) (s : State) :
    (secondEvent order s).signals = { s.signals with cal := s.cal.secondEvent } := by
  have expired : ∀ co (xs : List Expiry) t, (xs.foldl (takeExpiry co) t).signals = t.signals := fun co =>
    signals_foldl (signals_takeExpiry co)
  have early : (takeEarly order.early (tickTimers (takeOverdue s))).signals = s.signals := by
    simp [takeEarly, takeOverdue, expired]
  have latched : ∀ t, (latchSecond t).signals = { t.signals with cal := t.signals.cal.secondEvent } := fun t => rfl
  unfold secondEvent
  simp only [signals_ite, signals_minuteEvent, signals_takeBandEdge, expired, signals_takeMoments, signals_countCongestion,
    signals_foldl signals_countIdle, latched, early, ite_self]
  rfl

end Sys2Proof.Machine
end

/-! # The flags follow the buses, and the views and ACTIVE the second event (O9) -/
section
namespace Sys2Proof.Machine

/-! ## The requests of the supervisor -/

/-- Nothing the buses signal, no view and no tariff in force is changed; the rest of the calendar may be. -/
structure Steady (s t : State) : Prop where
  carrier : t.signals.carrier = s.signals.carrier
  hostReady : t.signals.hostReady = s.signals.hostReady
  view : t.cal.view = s.cal.view
  prevView : t.cal.prevView = s.cal.prevView
  active : t.cal.active = s.cal.active
  generation : t.cal.generation = s.cal.generation

theorem steady_of_signals {s t : State} (h : t.signals = s.signals) : Steady s t :=
  have cal : t.cal = s.cal := congrArg Signals.cal h
  ⟨congrArg Signals.carrier h, congrArg Signals.hostReady h, by rw [cal], by rw [cal], by rw [cal], by rw [cal]⟩

theorem steady_respond (s : State) (c : Code) (clamped : Bool) (result : List Byte) : Steady s (respond s c clamped result) :=
  steady_of_signals rfl

/-- A change of the calendar that leaves the views and the tariffs in force, and its answer. -/
theorem steady_onCal {s : State} {f : Calendar → Calendar} (view : (f s.cal).view = s.cal.view)
    (prevView : (f s.cal).prevView = s.cal.prevView) (active : (f s.cal).active = s.cal.active)
    (generation : (f s.cal).generation = s.cal.generation) (c : Code) (clamped : Bool) (result : List Byte) :
    Steady s (respond (s.onCal f) c clamped result) := ⟨rfl, rfl, view, prevView, active, generation⟩

theorem steady_writeSchedule (s : State) (first : Nat) (bands : List Nat) : Steady s (writeSchedule s first bands) := by
  unfold writeSchedule
  split
  · exact steady_onCal rfl rfl rfl rfl _ _ _
  · exact steady_respond s _ _ _

theorem steady_writeRates (s : State) (cls : Nat) (rates : List Nat) (w : Nat) : Steady s (writeRates s cls rates w) := by
  unfold writeRates
  split
  · exact steady_respond s _ _ _
  · split
    · exact steady_respond s _ _ _
    · exact steady_onCal rfl rfl rfl rfl _ _ _

theorem steady_writeClass (s : State) (cls : Nat) (f : PolicyChange) : Steady s (writeClass s cls f) := by
  unfold writeClass
  split
  · exact steady_respond s _ _ _
  · split
    · exact steady_respond s _ _ _
    · split
      · exact steady_respond s _ _ _
      · exact steady_onCal rfl rfl rfl rfl _ _ _

theorem steady_armTariff (s : State) (action : Nat) : Steady s (armTariff s action) := by
  unfold armTariff
  split
  · exact steady_onCal rfl rfl rfl rfl _ _ _
  · exact steady_onCal rfl rfl rfl rfl _ _ _
  · split
    · exact steady_respond s _ _ _
    · exact steady_onCal rfl rfl rfl rfl _ _ _
  · exact steady_respond s _ _ _

theorem signals_onLineRequest {s : State} {n : Nat} {f : LineNo → State} (h : ∀ l, (f l).signals = s.signals) :
    (onLineRequest s n f).signals = s.signals := by
  unfold onLineRequest
  split
  · rfl
  · exact h _

theorem signals_onPortRequest {s : State} {n : Nat} {f : PortNo → State} (h : ∀ p, (f p).signals = s.signals) :
    (onPortRequest s n f).signals = s.signals := by
  unfold onPortRequest
  split
  · rfl
  · exact h _

theorem signals_onGroupRequest {s : State} {n : Nat} {f : GroupNo → State} (h : ∀ g, (f g).signals = s.signals) :
    (onGroupRequest s n f).signals = s.signals := by
  unfold onGroupRequest
  split
  · rfl
  · exact h _

theorem signals_lineService (s : State) (line direction : Nat) : (lineService s line direction).signals = s.signals := by
  have out : ∀ l, (lineOut s l).signals = s.signals := fun l => by unfold lineOut; split <;> simp
  have back : ∀ l, (lineIn s l).signals = s.signals := fun l => by unfold lineIn; split <;> simp
  refine signals_onLineRequest fun l => ?_
  split <;> simp [out, back]

theorem signals_forceEnd (s : State) (line : Nat) : (forceEnd s line).signals = s.signals := by
  refine signals_onLineRequest fun l => ?_
  unfold forceEndLine
  split <;> simp

theorem signals_verdict (s : State) (line v : Nat) : (verdict s line v).signals = s.signals := by
  refine signals_onLineRequest fun l => ?_
  split <;> simp [verdictOn, verdictAdmit, verdictRefuse]

theorem signals_portService (s : State) (port direction : Nat) : (portService s port direction).signals = s.signals := by
  have out : ∀ p, (portOut s p).signals = s.signals := fun p => by
    unfold portOut
    cases (s.port p).line <;> split <;> simp
  have back : ∀ p, (portIn s p).signals = s.signals := fun p => by unfold portIn; split <;> simp
  refine signals_onPortRequest fun p => ?_
  split <;> simp [out, back]

theorem signals_configurePort (s : State) (port group role : Nat) : (configurePort s port group role).signals = s.signals := by
  refine signals_onPortRequest fun p => ?_
  split <;> simp

theorem signals_setWatch (s : State) (watch low high kinds action : Nat) :
    (setWatch s watch low high kinds action).signals = s.signals := by
  unfold setWatch
  dsimp only
  split <;> simp

theorem steady_carryOutQuick (s : State) (q : QuickReq) : Steady s (carryOutQuick s q) := by
  cases q with
  | writeSchedule first bands => exact steady_writeSchedule s first bands
  | writeRates cls rates w => exact steady_writeRates s cls rates w
  | writeClass cls f => exact steady_writeClass s cls f
  | armTariff action => exact steady_armTariff s action
  | setClock minute second => exact steady_onCal rfl rfl rfl rfl _ _ _
  | readSchedule copy first count =>
    refine steady_of_signals ?_
    simp only [carryOutQuick, readSchedule]
    split <;> simp
  | readRates copy cls =>
    refine steady_of_signals ?_
    simp only [carryOutQuick, readRates]
    split <;> simp
  | readClass copy cls =>
    refine steady_of_signals ?_
    simp only [carryOutQuick, readClass]
    split <;> simp
  | readClock => exact steady_of_signals rfl
  | setLineParams f => exact steady_of_signals rfl
  | lineService line direction => exact steady_of_signals (signals_lineService s line direction)
  | forceEnd line => exact steady_of_signals (signals_forceEnd s line)
  | readLine line => exact steady_of_signals (signals_onLineRequest fun l => by simp)
  | clearSummary line => exact steady_of_signals (signals_onLineRequest fun l => by simp)
  | writeMessage m text =>
    refine steady_of_signals ?_
    simp only [carryOutQuick, writeMessage]
    split <;> rfl
  | configurePort port group role => exact steady_of_signals (signals_configurePort s port group role)
  | portService port direction => exact steady_of_signals (signals_portService s port direction)
  | returnPort port => exact steady_of_signals (signals_onPortRequest fun p => by simp)
  | setGroup group f => exact steady_of_signals (signals_onGroupRequest fun g => by simp)
  | readPort port => exact steady_of_signals (signals_onPortRequest fun p => rfl)
  | readGroup group => exact steady_of_signals (signals_onGroupRequest fun g => rfl)
  | clearCounters group => exact steady_of_signals (signals_onGroupRequest fun g => rfl)
  | setWatch watch low high kinds action => exact steady_of_signals (signals_setWatch s watch low high kinds action)
  | clearWatch watch =>
    refine steady_of_signals ?_
    simp only [carryOutQuick, clearWatch]
    split <;> rfl
  | readWatch watch =>
    refine steady_of_signals ?_
    simp only [carryOutQuick, readWatch]
    split <;> rfl
  | verdict line v => exact steady_of_signals (signals_verdict s line v)
  | takeAttention => exact steady_of_signals rfl
  | describe => exact steady_of_signals rfl

theorem steady_carryOut (s : State) (r : Request) : Steady s (carryOut s r) := by
  cases r with
  | store r =>
    refine steady_of_signals ?_
    simp only [carryOut, acceptStore]
    split <;> rfl
  | quick q => exact steady_carryOutQuick s q

/-! ## The supervisor port -/

theorem Steady.trans {a b c : State} (h : Steady a b) (k : Steady b c) : Steady a c :=
  ⟨k.carrier.trans h.carrier, k.hostReady.trans h.hostReady, k.view.trans h.view, k.prevView.trans h.prevView,
    k.active.trans h.active, k.generation.trans h.generation⟩

theorem steady_onFrame {act : State → State} (h : ∀ t, Steady t (act t)) (s : State) : Steady s (onFrame s act) := by
  unfold onFrame
  split
  · exact steady_of_signals rfl
  · exact Steady.trans (steady_of_signals (s := s) (t := acceptFrame s) rfl) (h _)

theorem steady_submit (s : State) (r : Request) : Steady s (submit s r) := by
  refine steady_onFrame (fun t => ?_) s
  unfold checkAndCarryOut
  split
  · exact steady_carryOut t r
  · exact steady_respond t _ _ _

theorem steady_takeFrame (s : State) (code n : Nat) (bs : List Byte) : Steady s (takeFrame s code n bs) := by
  refine steady_onFrame (fun t => ?_) s
  unfold carryOutFrame
  split
  · split
    · exact steady_respond t _ _ _
    · split
      · exact steady_carryOut t _
      · exact steady_respond t _ _ _
  · exact steady_respond t _ _ _

theorem steady_writeStrobe (s : State) (b : Byte) : Steady s (writeStrobe s b) := by
  have stored : Steady s (storeByte s b) := steady_of_signals rfl
  unfold writeStrobe
  dsimp only
  split
  · split
    · exact stored.trans (steady_takeFrame _ _ _ _)
    · exact stored
  · exact stored

/-! ## Every command -/

/-- The events that set or clear a flag (R52, R144). -/
def setsFlag : Instr → Bool
  | .carrierOn _ | .carrierOff _ | .hostReadyOn _ | .hostReadyOff _ => true
  | _ => false

/-- What a command does to the signals. -/
inductive Signalled (s : State) : Instr → State → Prop
  | steady {i : Instr} {t : State} : setsFlag i = false → Steady s t → Signalled s i t
  | second (order : SecondOrder) {t : State} : t.signals = { s.signals with cal := s.cal.secondEvent } →
      Signalled s (.secondEvent order) t
  | carrier {i : Instr} {t : State} (n : Nat) (b : Bool) : i = (if b then .carrierOn n else .carrierOff n) →
      t.signals = { s.signals with carrier := fun l => if n = l.val then b else (s.line l).carrier } → Signalled s i t
  | hostReady {i : Instr} {t : State} (p : PortNo) (b : Bool) : i = (if b then .hostReadyOn p else .hostReadyOff p) →
      t.signals = { s.signals with hostReady := fun q => if p = q then b else (s.port q).hostReady } → Signalled s i t

/-- A carrier event sets the flag of the line it names, where there is one. -/
theorem signals_carrierEvent {f : State → LineNo → State} {s : State} {b : Bool}
    (h : ∀ l, (f s l).signals = (s.modLine l fun r => { r with carrier := b }).signals) (n : Nat) :
    (lineEvent n s f).signals =
      { s.signals with carrier := fun l => if n = l.val then b else (s.line l).carrier } := by
  unfold lineEvent
  split
  · rename_i absent
    have other : ∀ l : LineNo, n ≠ l.val := fun l hl => by rw [hl, lineNo?_val] at absent; cases absent
    simp only [other, if_false]
    rfl
  · rename_i k named
    have hk : n = k.val := by
      unfold lineNo? at named
      split at named
      · cases named; rfl
      · cases named
    rw [h]
    refine congrArg (fun c => { s.signals with carrier := c }) (funext fun l => ?_)
    show ((s.modLine k _).line l).carrier = _
    rw [modLine_line, hk]
    by_cases hl : l = k
    · rw [if_pos hl, if_pos (by rw [hl])]
    · rw [if_neg hl, if_neg fun h => hl (Fin.ext h.symm)]

theorem signals_setHostReady (s : State) (p : PortNo) (b : Bool) :
    (s.modPort p fun x => { x with hostReady := b }).signals =
      { s.signals with hostReady := fun q => if p = q then b else (s.port q).hostReady } := by
  refine congrArg (fun c => { s.signals with hostReady := c }) (funext fun q => ?_)
  show ((s.modPort p _).port q).hostReady = _
  rw [modPort_port]
  by_cases hq : q = p
  · rw [if_pos hq, if_pos hq.symm]
  · rw [if_neg hq, if_neg fun h => hq h.symm]

theorem exec_signalled {i : Instr} {s t : State} (run : exec i s = .next t) (hi : ∀ d m, i ≠ .powerOnReset d m) :
    Signalled s i t := by
  have sub : ∀ {r : Request}, (.next (submit s r) : Host.Outcome State Fault Refusal) = .next t → setsFlag i = false →
      Signalled s i t := by
    rintro r ⟨⟩ hf
    exact .steady hf (steady_submit s r)
  have exp : ∀ {x : Expiry}, (.next (takeExpiry noSecond s x) : Host.Outcome State Fault Refusal) = .next t →
      setsFlag i = false → Signalled s i t := by
    rintro x ⟨⟩ hf
    exact .steady hf (steady_of_signals (signals_takeExpiry _ s x))
  have kept : ∀ {u : State}, (.next u : Host.Outcome State Fault Refusal) = .next t → setsFlag i = false →
      u.signals = s.signals → Signalled s i t := by
    rintro u ⟨⟩ hf hu
    exact .steady hf (steady_of_signals hu)
  cases i with
  | powerOnReset d m => exact absurd rfl (hi d m)
  | secondEvent order => cases run; exact .second order (signals_secondEvent order s)
  | carrierOn n => cases run; exact .carrier n true rfl (signals_carrierEvent (signals_carrierOn s) n)
  | carrierOff n => cases run; exact .carrier n false rfl (signals_carrierEvent (signals_carrierOff s) n)
  | hostReadyOn p => cases run; exact .hostReady p true rfl ((signals_hostReadyOn s p).trans (signals_setHostReady s p true))
  | hostReadyOff p =>
    cases run; exact .hostReady p false rfl ((signals_hostReadyOff s p).trans (signals_setHostReady s p false))
  | ring n => exact kept run rfl (signals_lineEvent (signals_ring s))
  | lineRxChar n c => exact kept run rfl (signals_lineEvent fun l => signals_lineRxChar s l c)
  | rxBreak n => exact kept run rfl (signals_lineEvent (signals_rxBreak s))
  | txDone n => exact kept run rfl (signals_lineEvent (signals_txDone s))
  | lineCommandAccepted => exact kept run rfl (signals_lineCommandDone s)
  | lineCommandTimeout => exact kept run rfl (signals_lineCommandWithdrawn s)
  | accept p => exact kept run rfl (signals_acceptPort s p)
  | portRxChar p c => exact kept run rfl (signals_portRxChar s p c)
  | hostDisconnect p => exact kept run rfl (signals_hostDisconnect s p)
  | portCommandAccepted => exact kept run rfl (signals_portCommandDone s)
  | portCommandTimeout => exact kept run rfl (signals_portCommandDone s)
  | rotationChoice => exact kept run rfl (signals_rotationChoice s)
  | storeOperationComplete w => exact kept run rfl (signals_storeOperationComplete s w)
  | responseRead => exact kept run rfl rfl
  | frameRejected code params => cases run; exact .steady rfl (steady_takeFrame s _ _ _)
  | unknownRequest code params => cases run; exact .steady rfl (steady_takeFrame s _ _ _)
  | supervisorWriteStrobe b => cases run; exact .steady rfl (steady_writeStrobe s b)
  | answerLimitExpiry _ | signonLimitExpiry _ | holdTimerExpiry _ | selectionLimitExpiry _ | waitLimitExpiry _
  | escapeLimitExpiry _ | closingLimitExpiry _ | guardTimeExpiry _ | carrierHoldExpiry _ | idleWarningExpiry _
  | exhaustionCountdownExpiry _ | hoursCountdownExpiry _ | callTimerExpiry _ => exact exp run rfl
  | attachStore _ _ | addAccount _ | setPassword _ _ | changeAccount _ _ | grant _ _ | revoke _ _ | forgive _ | readAccount _
  | readSlots _ _ | readAndClearTotals _ | replaceSlot _ _ | retire _ | flush | discardOpen _ | restart | writeSchedule _ _
  | writeRates _ _ _ | writeClass _ _ | arm | cancel | revert | readTariffSchedule _ _ _ | readTariffRates _ _
  | readTariffClass _ _ | setClock _ _ | readClock | setLineParameters _ | lineServiceOut _ | lineServiceIn _ | forceEnd _
  | readLine _ | clearSummary _ | writeMessage _ _ | configurePort _ _ _ | portServiceOut _ | portServiceIn _ | returnPort _
  | setGroup _ _ | readPort _ | readGroup _ | clearCounters _ | setWatch _ _ _ _ _ | clearWatch _ | readWatch _
  | verdictAdmit _ | verdictRefuse _ | takeAttention | describe => exact sub run rfl

/-! ## The obligation -/

section
variable {i : Instr} {s t : State}

/-- The carrier present flag follows the line scanner bus (R52). -/
theorem Signalled.carrier_eq (h : Signalled s i t) (l : LineNo) : (t.line l).carrier =
    if i = .carrierOn l.val then true else if i = .carrierOff l.val then false else (s.line l).carrier := by
  have read : ∀ {c}, t.signals.carrier = c → (t.line l).carrier = c l := fun h => congrFun h l
  cases h with
  | steady plain h =>
    rw [if_neg (by rintro rfl; cases plain), if_neg (by rintro rfl; cases plain)]
    exact read h.carrier
  | second order h => exact read (congrArg Signals.carrier h)
  | carrier n b hi h =>
    rw [read (congrArg Signals.carrier h), hi]
    cases b <;> simp
  | hostReady p b hi h =>
    rw [read (congrArg Signals.carrier h), hi]
    cases b <;> simp [State.signals]

/-- The host ready flag follows the host port bus (R144). -/
theorem Signalled.hostReady_eq (h : Signalled s i t) (p : PortNo) : (t.port p).hostReady =
    if i = .hostReadyOn p then true else if i = .hostReadyOff p then false else (s.port p).hostReady := by
  have read : ∀ {c}, t.signals.hostReady = c → (t.port p).hostReady = c p := fun h => congrFun h p
  cases h with
  | steady plain h =>
    rw [if_neg (by rintro rfl; cases plain), if_neg (by rintro rfl; cases plain)]
    exact read h.hostReady
  | second order h => exact read (congrArg Signals.hostReady h)
  | carrier n b hi h =>
    rw [read (congrArg Signals.hostReady h), hi]
    cases b <;> simp [State.signals]
  | hostReady q b hi h =>
    rw [read (congrArg Signals.hostReady h), hi]
    cases b <;> simp

/-- A second event apart, a command leaves the views and the tariffs in force (R118). -/
theorem Signalled.steady_views (h : Signalled s i t) (hi : ∀ order, i ≠ .secondEvent order) :
    t.cal.view = s.cal.view ∧ t.cal.prevView = s.cal.prevView ∧ t.cal.active = s.cal.active ∧
      t.cal.generation = s.cal.generation := by
  have same : ∀ {c}, t.signals.cal = c → c = s.cal → t.cal.view = s.cal.view ∧ t.cal.prevView = s.cal.prevView ∧
      t.cal.active = s.cal.active ∧ t.cal.generation = s.cal.generation := by
    rintro c h rfl
    have cal : t.cal = s.cal := h
    exact ⟨by rw [cal], by rw [cal], by rw [cal], by rw [cal]⟩
  cases h with
  | steady _ h => exact ⟨h.view, h.prevView, h.active, h.generation⟩
  | second order _ => exact absurd rfl (hi order)
  | carrier n b _ h => exact same (congrArg Signals.cal h) rfl
  | hostReady p b _ h => exact same (congrArg Signals.cal h) rfl

/-- A second event changes ACTIVE by the swap alone (R117). -/
theorem active_swapped {c : Calendar} (h : c.secondEvent.active ≠ c.active) :
    59 ≤ c.second ∧ c.armed = true ∧ c.secondEvent.active = c.pendingSet ∧ c.secondEvent.generation = c.generation + 1 ∧
      c.secondEvent.armed = false := by
  have kept : c.advance.active = c.active ∧ c.advance.pendingSet = c.pendingSet ∧ c.advance.generation = c.generation := by
    unfold Calendar.advance
    split <;> exact ⟨rfl, rfl, rfl⟩
  obtain ⟨active, pending, generation⟩ := kept
  by_cases swaps : (c.minuteNext && c.armed) = true
  · have event : c.secondEvent = c.advance.swap.latch := if_pos swaps
    obtain ⟨minute, armed⟩ := Bool.and_eq_true_iff.1 swaps
    rw [event]
    exact ⟨of_decide_eq_true minute, armed, pending, congrArg (· + 1) generation, rfl⟩
  · have event : c.secondEvent = c.advance.latch := if_neg swaps
    rw [event] at h
    exact absurd active h

theorem Signalled.swapped (h : Signalled s i t) (changed : t.cal.active ≠ s.cal.active) :
    59 ≤ s.cal.second ∧ s.cal.armed = true ∧ t.cal.active = s.cal.pendingSet ∧ t.cal.generation = s.cal.generation + 1 ∧
      t.cal.armed = false := by
  by_cases second : ∃ order, i = .secondEvent order
  · obtain ⟨order, rfl⟩ := second
    cases h with
    | steady _ h => exact absurd h.active changed
    | second _ h =>
      have cal : t.cal = s.cal.secondEvent := congrArg Signals.cal h
      rw [cal] at changed ⊢
      exact active_swapped changed
    | carrier n b hi _ => cases b <;> cases hi
    | hostReady p b hi _ => cases b <;> cases hi
  · obtain ⟨_, _, active, _⟩ := h.steady_views fun order hi => second ⟨order, hi⟩
    exact absurd active changed

end

/-- Settles O9: each command is a steady one, a second event, or an event that sets one flag. -/
theorem flagsAndViewsKept : Obligations.FlagsAndViewsKept := by
  unfold Obligations.FlagsAndViewsKept
  refine ⟨⟨fun i s t l run hi => ?_, fun i s t p run hi => ?_⟩, fun i s t run hi => ⟨fun second => ?_, fun changed => ?_⟩⟩
  · exact (exec_signalled run hi).carrier_eq l
  · exact (exec_signalled run hi).hostReady_eq p
  · exact (exec_signalled run hi).steady_views second
  · exact (exec_signalled run hi).swapped changed

end Sys2Proof.Machine
end
